-- ==== Sys2Proof/Word.lean ====
section
/-! DEFINITION. The word types of the Ghegal and the sparse map every large store is held in
(00_scope.md R5, R6; 03_core_state.md R59). -/

namespace Sys2Proof

/-- A 32-bit word: an S register, a lane, a slot word. -/
abbrev W := BitVec 32

/-- A 64-bit word. -/
abbrev DW := BitVec 64

/-- A byte of any memory. -/
abbrev Byte := BitVec 8

/-- A vector register: 64 lanes of 32 bits, lane l in bits [32l+31:32l] (R5, R59). -/
abbrev VReg := BitVec 2048

/-- A code-image offset (R79). -/
abbrev PC := BitVec 26

/-- A sparse map from a natural key: the listed keys rise strictly and no listed value is the one an
unlisted key reads as.  `SMap Byte` is a byte memory, a list of `Host.Cell`. -/
abbrev SMap (α : Type) := List (Nat × α)

end Sys2Proof
end

