-- ==== Sys2Proof/Config.lean ====
section
/-! DEFINITION. The constants of the implementation, and the free values: constants without a body for
what the manual leaves open.  A statement proved of the model holds whatever they are. -/

namespace Sys2Proof.Config

/-- What a released register reads as (R64, R9 "unpredictable"): by read counter, register and lane. -/
opaque unpredictable : Nat → Nat → Nat → W

/-- Clock cycles from the sending of a far request to the event at the memory (R299: no bound). -/
opaque farGo : Nat → Nat

/-- Clock cycles from the event at the memory to the completion at the core (R299: no bound). -/
opaque farBack : Nat → Nat

/-- Clock cycles a code page load takes (R212: no bound). -/
opaque pageLoadTime : Nat → Nat

/-- Clock cycles until an image and its column state are in place (R248: no bound). -/
opaque imageTime : Nat → Nat

/-- Fabric cycles a Medlar channel message takes (R363: no architectural bound). -/
opaque medlarTransit : Nat → Nat

/-- Fabric cycles from package reset to the end of boot (R329 gives no time). -/
opaque bootTime : Nat → Nat

/-- Fabric cycles a tier move takes (R318 gives no time). -/
opaque tierMoveTime : Nat → Nat

/-- The data image of a task's program, which a fresh launch loads at scratchpad offset 0 (R220) and no descriptor field
gives: by task tag and stage. -/
opaque dataImage : Nat → Nat → List Byte

/-- Fabric cycles a whole-device checkpoint copy takes, cut to the bound of R320 where it is used. -/
opaque checkpointTime : Nat → Nat

/-- Fabric cycles the device takes to perform a host command (17 gives no time but the bound of ATTEST, R330, to which the
value is cut where it is used). -/
opaque commandTime : Nat → Nat

/-- The fabric cycle, counted from START, in which a reduction unit reads a flit's worth of its input (R357), cut to the
window where it is used. -/
opaque collRead : Nat → Nat

/-- The identity of a link in the nonce of its channels (R347 gives it no value): by package and port. -/
opaque linkIdentity : Nat → Nat → BitVec 32

/-- The code offset, in words, where a stage other than 0 starts (R263: "the entry of the kwas .stage block", which no
descriptor field gives): by task tag and stage. -/
opaque stageEntry : Nat → Nat → Nat

/-- Which of a stack's free blocks the Bramble directory takes (R309, R310: "a free block"). -/
opaque pickBlock : Nat → Nat

/-- The clock cycle, counted from issue, in which a TSTORE reads a source line (R275). -/
opaque sourceReadDelay : Nat → Nat

/-- AES-XTS encryption of one 64-byte line: key slot, tweak, plaintext (R346 names the standard). -/
opaque xtsEncrypt : BitVec 512 → BitVec 128 → BitVec 512 → BitVec 512

/-- AES-XTS decryption of one 64-byte line (R346). -/
opaque xtsDecrypt : BitVec 512 → BitVec 128 → BitVec 512 → BitVec 512

/-- The first 8 bytes of AES-CMAC over the tweak and the ciphertext (R346). -/
opaque cmacTag : BitVec 256 → BitVec 128 → BitVec 512 → BitVec 64

/-- SHAKE-256, first 32 bytes, of a byte string (R327, R329, R347). -/
opaque shake256 : List Byte → BitVec 256

/-- The SLH-DSA-SHAKE-256s signature of 29,792 bytes by the device identity key (R329, R330), as one number. -/
opaque identitySign : List Byte → BitVec 238336

/-- What the firmware writes into measurement register 1 of its configuration's bytes (R329, R336: the form is open). -/
opaque firmwareConfig : List Byte → BitVec 256

/-- The pod secret, part of the firmware configuration (R336, R347). -/
opaque podSecret : List Byte

/-- Φ, the offset of a die's clock from the pod clock, fixed at boot (R337). -/
opaque dieOffset : Nat → Nat

/-- What the boot-time array test finds (R329, R40, R242): by boot and core, the failing rows and whether an accumulator
fails; by boot and column, the failed wires. -/
opaque failingRows : Nat → Nat → BitVec 132
opaque failingAcc : Nat → Nat → Bool
opaque failingWires : Nat → Nat → List Nat

/-- The XTS key pair and the CMAC key of a key slot, part of the firmware configuration (R336, R346): by package and slot. -/
opaque xtsKey : Nat → Nat → BitVec 512
opaque macKey : Nat → Nat → BitVec 256

/-- Which task's translation table a host guard command uses (R325 names no task): an index. -/
opaque hostGuardTask : Nat → Nat

/-- H, the uniform hop time in fabric cycles (R338). -/
def hop : Nat := 128

/-- Frame length of the vertical bus and of the fabric, in slots (R224, R339). -/
def frameSlots : Nat := 16

/-- Offset of the multicast window and of its mirror (R78). -/
def mcWindow : Nat := 0x3F0000
def mcMirror : Nat := 0x400000
def mcMirrorEnd : Nat := 0x410000

/-- Frames of the instruction memory that hold task pages (R79). -/
def taskFrames : Nat := 60

/-- Far-request entries of a core (R270) and outstanding collectives of a core (R352). -/
def farEntries : Nat := 768
def collEntries : Nat := 256

end Sys2Proof.Config
end

