-- ==== Sys2Proof/Syntax.lean ====
section
/-! DEFINITION. The operand records of the slot formats (04_core_encoding.md R87 to R97) and the ONE
inductive of everything the machine does: a constructor for every row of spec/opcode_table.json, the
232 slot instructions first and then the 111 events, each an indivisible step of the machine. -/

namespace Sys2Proof

/-- The eight slots of a bundle (R82): slot 0 is S, then V0, V1, M, C0, C1, X, B. -/
inductive Slot where
  | s | v0 | v1 | m | c0 | c1 | x | b
deriving DecidableEq, Repr

/-- The seven opcode maps (R98): V0 and V1 share one. -/
inductive OpMap where
  | s | v | m | c0 | c1 | x | b
deriving DecidableEq, Repr

/-- Format with a guard alone (form BN of R97; MSWAP of R93). -/
structure FmtG where
  gn : Bool
  g : BitVec 4
deriving DecidableEq, Repr

/-- Format R (R87). -/
structure FmtR where
  gn : Bool
  g : BitVec 4
  d : BitVec 6
  a : BitVec 6
  b : BitVec 6
  la : Bool
  lb : Bool
  x : Bool
deriving DecidableEq, Repr

/-- Format R with one source: CLZ, POPC, MOV (R116: B = 0, X = 0). -/
structure FmtRA where
  gn : Bool
  g : BitVec 4
  d : BitVec 6
  a : BitVec 6
  la : Bool
deriving DecidableEq, Repr

/-- Format P (R88). -/
structure FmtP where
  g : BitVec 3
  p1 : BitVec 4
  p2 : BitVec 4
  ct : BitVec 3
  a : BitVec 6
  b : BitVec 6
deriving DecidableEq, Repr

/-- MFC (R116): a destination and a selector. -/
structure FmtMfc where
  gn : Bool
  g : BitVec 4
  d : BitVec 6
  sel : BitVec 6
deriving DecidableEq, Repr

/-- MTC (R116): a selector and a source. -/
structure FmtMtc where
  gn : Bool
  g : BitVec 4
  sel : BitVec 6
  a : BitVec 6
  la : Bool
deriving DecidableEq, Repr

/-- A guard and a destination: MFP (R116) and the status forms of C1 (R95). -/
structure FmtD where
  gn : Bool
  g : BitVec 4
  d : BitVec 6
deriving DecidableEq, Repr

/-- MTP (R116): values in A, mask in B. -/
structure FmtMtp where
  gn : Bool
  g : BitVec 4
  a : BitVec 6
  b : BitVec 6
  la : Bool
  lb : Bool
  x : Bool
deriving DecidableEq, Repr

/-- MFB (R116): a destination and a base number. -/
structure FmtMfb where
  gn : Bool
  g : BitVec 4
  d : BitVec 6
  n : BitVec 3
deriving DecidableEq, Repr

/-- MTB (R116): a base number and a source. -/
structure FmtMtb where
  gn : Bool
  g : BitVec 4
  n : BitVec 3
  a : BitVec 6
  la : Bool
deriving DecidableEq, Repr

/-- MFQ (R116): a destination, a ring number and a word index. -/
structure FmtMfq where
  gn : Bool
  g : BitVec 4
  d : BitVec 6
  n : BitVec 3
  w : BitVec 2
deriving DecidableEq, Repr

/-- MTQ (R116): a ring number, a source and a word index. -/
structure FmtMtq where
  gn : Bool
  g : BitVec 4
  n : BitVec 3
  a : BitVec 6
  w : BitVec 2
  la : Bool
deriving DecidableEq, Repr

/-- MFTASK (R116): a destination and a bank 0 register number. -/
structure FmtMftask where
  gn : Bool
  g : BitVec 4
  d : BitVec 6
  n : BitVec 6
deriving DecidableEq, Repr

/-- MTTASK (R116): a bank 0 register number and a source. -/
structure FmtMttask where
  gn : Bool
  g : BitVec 4
  n : BitVec 6
  a : BitVec 6
  la : Bool
deriving DecidableEq, Repr

/-- TRAPI (R116, R121): the cause argument. -/
structure FmtTrapi where
  gn : Bool
  g : BitVec 4
  arg : BitVec 5
deriving DecidableEq, Repr

/-- Form BJ (R97). -/
structure FmtBJ where
  gn : Bool
  g : BitVec 4
  off : BitVec 21
deriving DecidableEq, Repr

/-- Form BX (R97). -/
structure FmtBX where
  gn : Bool
  g : BitVec 4
  a : BitVec 6
deriving DecidableEq, Repr

/-- Form BL (R97): LOOP. -/
structure FmtLoop where
  gn : Bool
  g : BitVec 4
  a : BitVec 6
  nst : BitVec 3
  div : Bool
  len : BitVec 8
deriving DecidableEq, Repr

/-- Form BI (R97): LINC. -/
structure FmtLinc where
  gn : Bool
  g : BitVec 4
  d : BitVec 6
  k : Bool
  inc : BitVec 14
deriving DecidableEq, Repr

/-- Form BR (R97): ROT. -/
structure FmtRot where
  gn : Bool
  g : BitVec 4
  brb : Bool
  prb : Bool
deriving DecidableEq, Repr

/-- Form BB (R97): a named barrier. -/
structure FmtBB where
  gn : Bool
  g : BitVec 4
  bar : BitVec 5
deriving DecidableEq, Repr

/-- Form BP with RG = 0 (R97, R245). -/
structure FmtPhase where
  gn : Bool
  g : BitVec 4
  body : BitVec 20
deriving DecidableEq, Repr

/-- Form BP with RG = 1 (R97, R245). -/
structure FmtPhaseRg where
  gn : Bool
  g : BitVec 4
  a : BitVec 6
deriving DecidableEq, Repr

/-- Format VR with X fixed by the opcode row (R89, R101). -/
structure FmtVR where
  gs : BitVec 5
  d : BitVec 6
  a : BitVec 6
  b : BitVec 6
  la : Bool
  lb : Bool
deriving DecidableEq, Repr

/-- Format VR with the saturation bit X (R101). -/
structure FmtVRX where
  gs : BitVec 5
  d : BitVec 6
  a : BitVec 6
  b : BitVec 6
  la : Bool
  lb : Bool
  x : Bool
deriving DecidableEq, Repr

/-- Format VR with one source and B a sub-function or zero (R102, R146). -/
structure FmtVRA where
  gs : BitVec 5
  d : BitVec 6
  a : BitVec 6
  la : Bool
deriving DecidableEq, Repr

/-- VSEL (R146): the predicate number in B[2:0]. -/
structure FmtVSel where
  gs : BitVec 5
  d : BitVec 6
  a : BitVec 6
  n : BitVec 3
  la : Bool
deriving DecidableEq, Repr

/-- VFLG (R149): the clear mask in A[4:0]. -/
structure FmtVFlg where
  gs : BitVec 5
  d : BitVec 6
  mask : BitVec 5
deriving DecidableEq, Repr

/-- Format VC (R91). -/
structure FmtVC where
  df : BitVec 5
  sf : BitVec 5
  mode : BitVec 3
  d : BitVec 6
  a : BitVec 6
  la : Bool
deriving DecidableEq, Repr

/-- VBMAX in format VQ (R91, R154). -/
structure FmtVBMax where
  bt : BitVec 3
  d : BitVec 6
  a : BitVec 6
  la : Bool
deriving DecidableEq, Repr

/-- VBCVT in format VQ (R91, R155). -/
structure FmtVBCvt where
  bt : BitVec 3
  mode : BitVec 3
  d : BitVec 6
  a : BitVec 6
  b : BitVec 6
  la : Bool
  lb : Bool
deriving DecidableEq, Repr

/-- VQDUAL in format VQ (R91, R158): B4 types only, so BT has two free bits. -/
structure FmtVQDual where
  bt : BitVec 2
  mode : BitVec 3
  d : BitVec 6
  a : BitVec 6
  la : Bool
deriving DecidableEq, Repr

/-- VDQ in format VQ (R91, R157). -/
structure FmtVDq where
  bt : BitVec 3
  d : BitVec 6
  a : BitVec 6
  b : BitVec 6
  la : Bool
  lb : Bool
deriving DecidableEq, Repr

/-- VSTR in format VS (R91, R159). -/
structure FmtVStr where
  w : BitVec 2
  idx : BitVec 12
  v : BitVec 6
deriving DecidableEq, Repr

/-- VSTW in format VS (R91, R159). -/
structure FmtVStw where
  w : BitVec 2
  idx : BitVec 12
  v : BitVec 6
  la : Bool
deriving DecidableEq, Repr

/-- Format VP (R90). -/
structure FmtVP where
  g : BitVec 3
  ty : BitVec 2
  p1 : BitVec 3
  p2 : BitVec 3
  ct : BitVec 3
  a : BitVec 6
  b : BitVec 6
deriving DecidableEq, Repr

/-- MLDW in format M (R93). -/
structure FmtMldw where
  gn : Bool
  g : BitVec 4
  q : BitVec 3
deriving DecidableEq, Repr

/-- MLDWB in format M (R93). -/
structure FmtMldwb where
  gn : Bool
  g : BitVec 4
  vsel : BitVec 3
  tile : BitVec 9
deriving DecidableEq, Repr

/-- MSTREAM, MSTREAMB in format M (R93): n is the vector count less one. -/
structure FmtMstream where
  gn : Bool
  g : BitVec 4
  t : BitVec 5
  q : BitVec 3
  md : BitVec 3
  n : BitVec 8
deriving DecidableEq, Repr

/-- MCLR in format M (R93). -/
structure FmtMclr where
  gn : Bool
  g : BitVec 4
  t : BitVec 5
deriving DecidableEq, Repr

/-- MSETP in format M (R93). -/
structure FmtMsetp where
  gn : Bool
  g : BitVec 4
  t : BitVec 5
  p : BitVec 8
  rsc : Bool
deriving DecidableEq, Repr

/-- MDRAIN in format M (R93). -/
structure FmtMdrain where
  gn : Bool
  g : BitVec 4
  t : BitVec 5
  q : BitVec 3
  mode : BitVec 3
  blk : BitVec 3
  all : Bool
  clr : Bool
deriving DecidableEq, Repr

/-- MFLG in format M (R93). -/
structure FmtMflg where
  gn : Bool
  g : BitVec 4
  t : BitVec 5
  d : BitVec 6
deriving DecidableEq, Repr

/-- MCLRF in format M (R93): the flags NAN, INX, OVF from bit 2 down to bit 0. -/
structure FmtMclrf where
  gn : Bool
  g : BitVec 4
  t : BitVec 5
  f : BitVec 3
deriving DecidableEq, Repr

/-- Format C0 with an immediate offset (R94, XR = 0). -/
structure FmtC0 where
  gn : Bool
  g : BitVec 4
  d : BitVec 6
  bq : BitVec 3
  off : BitVec 11
deriving DecidableEq, Repr

/-- Format C0 with a register offset (R94, XR = 1). -/
structure FmtC0R where
  gn : Bool
  g : BitVec 4
  d : BitVec 6
  bq : BitVec 3
  a : BitVec 6
deriving DecidableEq, Repr

/-- Ring forms of format C0 (R94, R184). -/
structure FmtC0Q where
  gn : Bool
  g : BitVec 4
  d : BitVec 6
  q : BitVec 3
  adv : Bool
  off : BitVec 11
deriving DecidableEq, Repr

/-- Format C1 (R95) with one operand register and no destination. -/
structure FmtGA where
  gn : Bool
  g : BitVec 4
  a : BitVec 6
deriving DecidableEq, Repr

/-- Format C1 (R95) with a destination and one operand register. -/
structure FmtDA where
  gn : Bool
  g : BitVec 4
  d : BitVec 6
  a : BitVec 6
deriving DecidableEq, Repr

/-- Format C1 (R95) with a destination and two operand registers. -/
structure FmtDAB where
  gn : Bool
  g : BitVec 4
  d : BitVec 6
  a : BitVec 6
  b : BitVec 6
deriving DecidableEq, Repr

/-- Format X (R96) of the send and receive forms. -/
structure FmtX where
  gn : Bool
  g : BitVec 4
  v : BitVec 6
  un : Bool
  port : BitVec 3
  fl : BitVec 3
  nf : BitVec 3
deriving DecidableEq, Repr

/-- XFWD in format X (R96, R254). -/
structure FmtXFwd where
  gn : Bool
  g : BitVec 4
  port : BitVec 3
  nf : BitVec 3
  port2 : BitVec 3
deriving DecidableEq, Repr

/-- Everything the machine does in one indivisible step: the slot instructions with their operand record, and the
events, whose place and arguments stand in the field `ev` of State. -/
inductive Instr where
  /-- NOP (R83). Opcode 0x00 with all other bits zero in any slot does nothing; an absent slot executes as NOP. -/
  | nop
  /-- IADD (R117). S slot: r = a + b, wrapping. -/
  | iadd (f : FmtR)
  /-- ISUB (R117). S slot: r = a - b, wrapping. -/
  | isub (f : FmtR)
  /-- IMUL (R117). S slot: low 32 bits of the signed product, latency 3. -/
  | imul (f : FmtR)
  /-- IMULH (R117). S slot: bits 63:32 of the signed product, latency 3. -/
  | imulh (f : FmtR)
  /-- IMULHU (R117). S slot: bits 63:32 of the unsigned product, latency 3. -/
  | imulhu (f : FmtR)
  /-- AND (R117). S slot: bitwise a & b. -/
  | and (f : FmtR)
  /-- OR (R117). S slot: bitwise a | b. -/
  | or (f : FmtR)
  /-- XOR (R117). S slot: bitwise a ^ b. -/
  | xor (f : FmtR)
  /-- ANDN (R117). S slot: bitwise a & ~b. -/
  | andn (f : FmtR)
  /-- SHL (R117). S slot: logical left shift by b[4:0]. -/
  | shl (f : FmtR)
  /-- SHR (R117). S slot: logical right shift by b[4:0]. -/
  | shr (f : FmtR)
  /-- SRA (R117). S slot: arithmetic right shift by b[4:0]. -/
  | sra (f : FmtR)
  /-- ROTL (R117). S slot: rotate left by b[4:0]. -/
  | rotl (f : FmtR)
  /-- MIN (R117). S slot: signed minimum. -/
  | min (f : FmtR)
  /-- MAX (R117). S slot: signed maximum. -/
  | max (f : FmtR)
  /-- MINU (R117). S slot: unsigned minimum. -/
  | minu (f : FmtR)
  /-- MAXU (R117). S slot: unsigned maximum. -/
  | maxu (f : FmtR)
  /-- SHADD1 (R117). S slot: a + (b << 1), wrapping. -/
  | shadd1 (f : FmtR)
  /-- SHADD2 (R117). S slot: a + (b << 2), wrapping. -/
  | shadd2 (f : FmtR)
  /-- SHADD3 (R117). S slot: a + (b << 3), wrapping. -/
  | shadd3 (f : FmtR)
  /-- CLZ (R117). S slot: count of leading zeros of a. -/
  | clz (f : FmtRA)
  /-- POPC (R117). S slot: count of set bits of a. -/
  | popc (f : FmtRA)
  /-- MOV (R117). S slot: r = a. -/
  | mov (f : FmtRA)
  /-- SEL (R119). Unguarded S select: r = a if the G/GN predicate condition holds, else b. -/
  | sel (f : FmtR)
  /-- IADDS (R117). S slot: saturating signed add. -/
  | iadds (f : FmtR)
  /-- ISUBS (R117). S slot: saturating signed subtract. -/
  | isubs (f : FmtR)
  /-- CMPEQ (R118). Compare a == b and write P1, P2 under the combining type. -/
  | cmpeq (f : FmtP)
  /-- CMPNE (R118). Compare a != b and write P1, P2 under the combining type. -/
  | cmpne (f : FmtP)
  /-- CMPLT (R118). Signed compare a < b into predicates. -/
  | cmplt (f : FmtP)
  /-- CMPLE (R118). Signed compare a <= b into predicates. -/
  | cmple (f : FmtP)
  /-- CMPLTU (R118). Unsigned compare a < b into predicates. -/
  | cmpltu (f : FmtP)
  /-- CMPLEU (R118). Unsigned compare a <= b into predicates. -/
  | cmpleu (f : FmtP)
  /-- CMPBIT (R118). Test bit b[4:0] of a into predicates. -/
  | cmpbit (f : FmtP)
  /-- MFC (R120). Read the control register named by selector A into D. -/
  | mfc (f : FmtMfc)
  /-- MTC (R120). Write a to the control register named by selector D, checked under R75. -/
  | mtc (f : FmtMtc)
  /-- MFP (R120). Read p0-p15 into bits 15:0 of D. -/
  | mfp (f : FmtD)
  /-- MTP (R120). Write predicates p1-p15 selected by mask b from a. -/
  | mtp (f : FmtMtp)
  /-- MFB (R120). Read a base register into D. -/
  | mfb (f : FmtMfb)
  /-- MTB (R120). Write a[22:0] to a base register. -/
  | mtb (f : FmtMtb)
  /-- MFQ (R120). Read word B of a ring register into D. -/
  | mfq (f : FmtMfq)
  /-- MTQ (R120). Write a into word B of a ring register. -/
  | mtq (f : FmtMtq)
  /-- MFTASK (R120). Bank 1 reads bank 0's s register A. -/
  | mftask (f : FmtMftask)
  /-- MTTASK (R120). Bank 1 writes bank 0's s register D and makes it live. -/
  | mttask (f : FmtMttask)
  /-- TRAPI (R121). Raise SWTRAP with argument b when the guard is true. -/
  | trapi (f : FmtTrapi)
  /-- RFT (R122). End service in bank 1 and resume bank 0 from its checkpoint once bank 1 results are visible. -/
  | rft
  /-- BR (R123). Relative branch to this bundle + 4 * OFF. -/
  | br (f : FmtBJ)
  /-- CALL (R123). Relative call, writing the return offset into s47. -/
  | call (f : FmtBJ)
  /-- BRI (R123). Indirect branch to the offset held in register A. -/
  | bri (f : FmtBX)
  /-- CALLI (R123). Indirect call, writing the return offset into s47. -/
  | calli (f : FmtBX)
  /-- RET (R123). Branch to the offset held in s47. -/
  | ret (f : FmtG)
  /-- LOOP (R126). Arm the loop engine with trip count, stages and body length, or resume a drained loop. -/
  | loop (f : FmtLoop)
  /-- LINC (R125). Write the lowest invalid LINC entry with a register increment for loop-back. -/
  | linc (f : FmtLinc)
  /-- LEXIT (R129). End the armed loop after this bundle, clearing the LINC entries. -/
  | lexit (f : FmtG)
  /-- ROT (R130). Advance the base-register and/or stage-predicate rotation bases. -/
  | rot (f : FmtRot)
  /-- BARR (R134). Arrive at a named barrier without waiting. -/
  | barr (f : FmtBB)
  /-- BWAIT (R135). Wait until the own arrival at a named barrier has completed. -/
  | bwait (f : FmtBB)
  /-- BSYNC (R134). Arrive at a named barrier and wait for its completion. -/
  | bsync (f : FmtBB)
  /-- PHASE (R246). Checkpoint and record arrival at the boundary with an immediate budget in units of 64 issue cycles. -/
  | phase (f : FmtPhase)
  /-- PHASE_RG (R245). PHASE with the budget taken from a register. -/
  | phaseRg (f : FmtPhaseRg)
  /-- HALT (R137). End the core's part of the task after draining and committing, or in bank 1 abort the task. -/
  | halt (f : FmtG)
  /-- VADD_F32 (R142). Per-lane FP32 add, rounded once. -/
  | vaddF32 (f : FmtVR)
  /-- VADD_F16 (R142). Per-element FP16 add. -/
  | vaddF16 (f : FmtVR)
  /-- VADD_BF16 (R142). Per-element BF16 add. -/
  | vaddBf16 (f : FmtVR)
  /-- VSUB_F32 (R142). Per-lane FP32 subtract. -/
  | vsubF32 (f : FmtVR)
  /-- VSUB_F16 (R142). Per-element FP16 subtract. -/
  | vsubF16 (f : FmtVR)
  /-- VSUB_BF16 (R142). Per-element BF16 subtract. -/
  | vsubBf16 (f : FmtVR)
  /-- VMUL_F32 (R142). Per-lane FP32 multiply. -/
  | vmulF32 (f : FmtVR)
  /-- VMUL_F16 (R142). Per-element FP16 multiply. -/
  | vmulF16 (f : FmtVR)
  /-- VMUL_BF16 (R142). Per-element BF16 multiply. -/
  | vmulBf16 (f : FmtVR)
  /-- VFMA_F32 (R142). Per-lane FP32 fused a*b+d, rounded once. -/
  | vfmaF32 (f : FmtVR)
  /-- VFMA_F16 (R142). Per-element FP16 fused multiply-add. -/
  | vfmaF16 (f : FmtVR)
  /-- VFMA_BF16 (R142). Per-element BF16 fused multiply-add. -/
  | vfmaBf16 (f : FmtVR)
  /-- VMIN_F32 (R142). Per-lane FP32 minimum, -0 < +0. -/
  | vminF32 (f : FmtVR)
  /-- VMIN_F16 (R142). Per-element FP16 minimum. -/
  | vminF16 (f : FmtVR)
  /-- VMIN_BF16 (R142). Per-element BF16 minimum. -/
  | vminBf16 (f : FmtVR)
  /-- VMAX_F32 (R142). Per-lane FP32 maximum, -0 < +0. -/
  | vmaxF32 (f : FmtVR)
  /-- VMAX_F16 (R142). Per-element FP16 maximum. -/
  | vmaxF16 (f : FmtVR)
  /-- VMAX_BF16 (R142). Per-element BF16 maximum. -/
  | vmaxBf16 (f : FmtVR)
  /-- VIADD_I32 (R144). 32-bit integer add, wrapping or saturating. -/
  | viaddI32 (f : FmtVRX)
  /-- VIADD_I16 (R144). 16-bit integer add per sub-element. -/
  | viaddI16 (f : FmtVRX)
  /-- VIADD_I8 (R144). 8-bit integer add per sub-element. -/
  | viaddI8 (f : FmtVRX)
  /-- VISUB_I32 (R144). 32-bit integer subtract. -/
  | visubI32 (f : FmtVRX)
  /-- VISUB_I16 (R144). 16-bit integer subtract. -/
  | visubI16 (f : FmtVRX)
  /-- VISUB_I8 (R144). 8-bit integer subtract. -/
  | visubI8 (f : FmtVRX)
  /-- VIMUL_I32 (R144). 32-bit integer multiply. -/
  | vimulI32 (f : FmtVRX)
  /-- VIMUL_I16 (R144). 16-bit integer multiply. -/
  | vimulI16 (f : FmtVRX)
  /-- VIMUL_I8 (R144). 8-bit integer multiply. -/
  | vimulI8 (f : FmtVRX)
  /-- VIMIN_I32 (R144). 32-bit signed minimum. -/
  | viminI32 (f : FmtVR)
  /-- VIMIN_I16 (R144). 16-bit signed minimum. -/
  | viminI16 (f : FmtVR)
  /-- VIMIN_I8 (R144). 8-bit signed minimum. -/
  | viminI8 (f : FmtVR)
  /-- VIMAX_I32 (R144). 32-bit signed maximum. -/
  | vimaxI32 (f : FmtVR)
  /-- VIMAX_I16 (R144). 16-bit signed maximum. -/
  | vimaxI16 (f : FmtVR)
  /-- VIMAX_I8 (R144). 8-bit signed maximum. -/
  | vimaxI8 (f : FmtVR)
  /-- VAND (R144). 32-bit lane bitwise AND. -/
  | vand (f : FmtVR)
  /-- VOR (R144). 32-bit lane bitwise OR. -/
  | vor (f : FmtVR)
  /-- VXOR (R144). 32-bit lane bitwise XOR. -/
  | vxor (f : FmtVR)
  /-- VANDN (R144). 32-bit lane a & ~b. -/
  | vandn (f : FmtVR)
  /-- VSHL (R144). 32-bit lane left shift. -/
  | vshl (f : FmtVR)
  /-- VSHR (R144). 32-bit lane logical right shift. -/
  | vshr (f : FmtVR)
  /-- VSRA (R144). 32-bit lane arithmetic right shift. -/
  | vsra (f : FmtVR)
  /-- VSEL (R146). Lane select between a and the D operand by vector predicate vpN. -/
  | vsel (f : FmtVSel)
  /-- VPERM (R146). Permute lanes of a by indices in b. -/
  | vperm (f : FmtVR)
  /-- VBCST (R146). Broadcast lane b[0] of a to every lane. -/
  | vbcst (f : FmtVR)
  /-- VRED_ADD_F32 (R147). Exact FP32 sum of active lanes, rounded once, to every active lane. -/
  | vredAddF32 (f : FmtVRA)
  /-- VRED_MAX_F32 (R147). FP32 maximum over active lanes. -/
  | vredMaxF32 (f : FmtVRA)
  /-- VRED_MIN_F32 (R147). FP32 minimum over active lanes. -/
  | vredMinF32 (f : FmtVRA)
  /-- VRED_ADD_I32 (R147). Saturating INT32 sum over active lanes. -/
  | vredAddI32 (f : FmtVRA)
  /-- VRED_MAX_I32 (R147). Signed INT32 maximum over active lanes. -/
  | vredMaxI32 (f : FmtVRA)
  /-- VRED_MIN_I32 (R147). Signed INT32 minimum over active lanes. -/
  | vredMinI32 (f : FmtVRA)
  /-- VEXP2 (R148). Correctly rounded 2^a per FP32 lane. -/
  | vexp2 (f : FmtVRA)
  /-- VLOG2 (R148). Correctly rounded log2(a) per FP32 lane. -/
  | vlog2 (f : FmtVRA)
  /-- VRCP (R148). Correctly rounded 1/a per FP32 lane. -/
  | vrcp (f : FmtVRA)
  /-- VRSQ (R148). Correctly rounded 1/sqrt(a) per FP32 lane. -/
  | vrsq (f : FmtVRA)
  /-- VFLG (R149). Sample each active lane's sticky flags into D and clear the masked ones. -/
  | vflg (f : FmtVFlg)
  /-- VMOV (R146). Copy a into D lane by lane. -/
  | vmov (f : FmtVRA)
  /-- VCVT (R150). Convert every element between two formats with one rounding. -/
  | vcvt (f : FmtVC)
  /-- VCVTS (R152). Convert with the saturating option for float destinations. -/
  | vcvts (f : FmtVC)
  /-- VBMAX (R154). Select block words for each block of a by select_block. -/
  | vbmax (f : FmtVBMax)
  /-- VBCVT (R155). Encode each block of a under block words read late from B. -/
  | vbcvt (f : FmtVBCvt)
  /-- VQDUAL (R158). Quantise a 16x16 region into row- and column-blocked B4 copies. -/
  | vqdual (f : FmtVQDual)
  /-- VDQ (R157). Decode block codes with their block words into 64 FP32 values. -/
  | vdq (f : FmtVDq)
  /-- VSTR (R159). Read a statistics-buffer word for each lane. -/
  | vstr (f : FmtVStr)
  /-- VSTW (R159). Write a statistics-buffer word for each lane. -/
  | vstw (f : FmtVStw)
  /-- VFCMPEQ (R145). Float equality compare into vector predicates. -/
  | vfcmpeq (f : FmtVP)
  /-- VFCMPNE (R145). Float inequality compare into vector predicates. -/
  | vfcmpne (f : FmtVP)
  /-- VFCMPLT (R145). Float less-than compare into vector predicates. -/
  | vfcmplt (f : FmtVP)
  /-- VFCMPLE (R145). Float less-or-equal compare into vector predicates. -/
  | vfcmple (f : FmtVP)
  /-- VFCMPUN (R145). Float unordered compare into vector predicates. -/
  | vfcmpun (f : FmtVP)
  /-- VICMPEQ (R145). Integer equality compare into vector predicates. -/
  | vicmpeq (f : FmtVP)
  /-- VICMPNE (R145). Integer inequality compare into vector predicates. -/
  | vicmpne (f : FmtVP)
  /-- VICMPLT (R145). Signed integer less-than compare. -/
  | vicmplt (f : FmtVP)
  /-- VICMPLE (R145). Signed integer less-or-equal compare. -/
  | vicmple (f : FmtVP)
  /-- VICMPLTU (R145). Unsigned integer less-than compare. -/
  | vicmpltu (f : FmtVP)
  /-- VICMPLEU (R145). Unsigned integer less-or-equal compare. -/
  | vicmpleu (f : FmtVP)
  /-- MLDW (R164). Load the shadow weight plane from one ring slot. -/
  | mldw (f : FmtMldw)
  /-- MLDWB (R165). Load the shadow plane from a weight-bank tile over the vertical bus. -/
  | mldwb (f : FmtMldwb)
  /-- MSWAP (R166). Toggle the active weight plane. -/
  | mswap (f : FmtG)
  /-- MSTREAM (R168). Stream n vectors forward through the active plane into a tile via port S. -/
  | mstream (f : FmtMstream)
  /-- MSTREAMB (R168). Stream n vectors backward through the transposed plane via port W. -/
  | mstreamb (f : FmtMstream)
  /-- MCLR (R170). Clear a tile and its sticky flags. -/
  | mclr (f : FmtMclr)
  /-- MSETP (R171). Write a tile's binary point, optionally rescaling its contents. -/
  | msetp (f : FmtMsetp)
  /-- MDRAIN (R173). Convert tile rows into one ring slot in the ring's format. -/
  | mdrain (f : FmtMdrain)
  /-- MFLG (R172). Read a tile's control word into a scalar register. -/
  | mflg (f : FmtMflg)
  /-- MCLRF (R172). Clear selected sticky flags of a tile. -/
  | mclrf (f : FmtMclrf)
  /-- LDW (R180). Load a word from scratchpad, immediate offset. -/
  | ldw (f : FmtC0)
  /-- LDW_REG (R180). Load a word from scratchpad, register offset. -/
  | ldwReg (f : FmtC0R)
  /-- LDH (R180). Load a sign-extended half, immediate offset. -/
  | ldh (f : FmtC0)
  /-- LDH_REG (R180). Load a sign-extended half, register offset. -/
  | ldhReg (f : FmtC0R)
  /-- LDHU (R180). Load a zero-extended half, immediate offset. -/
  | ldhu (f : FmtC0)
  /-- LDHU_REG (R180). Load a zero-extended half, register offset. -/
  | ldhuReg (f : FmtC0R)
  /-- LDB (R180). Load a sign-extended byte, immediate offset. -/
  | ldb (f : FmtC0)
  /-- LDB_REG (R180). Load a sign-extended byte, register offset. -/
  | ldbReg (f : FmtC0R)
  /-- LDBU (R180). Load a zero-extended byte, immediate offset. -/
  | ldbu (f : FmtC0)
  /-- LDBU_REG (R180). Load a zero-extended byte, register offset. -/
  | ldbuReg (f : FmtC0R)
  /-- STW (R180). Store a word, immediate offset; multicast when in the alias. -/
  | stw (f : FmtC0)
  /-- STW_REG (R180). Store a word, register offset. -/
  | stwReg (f : FmtC0R)
  /-- STH (R180). Store a half, immediate offset. -/
  | sth (f : FmtC0)
  /-- STH_REG (R180). Store a half, register offset. -/
  | sthReg (f : FmtC0R)
  /-- STB (R180). Store a byte, immediate offset. -/
  | stb (f : FmtC0)
  /-- STB_REG (R180). Store a byte, register offset. -/
  | stbReg (f : FmtC0R)
  /-- VLD_V0 (R180). Load 256 bytes into a V0 register, immediate offset. -/
  | vldV0 (f : FmtC0)
  /-- VLD_V0_REG (R180). Load 256 bytes into a V0 register, register offset. -/
  | vldV0Reg (f : FmtC0R)
  /-- VLD_V1 (R180). Load 256 bytes into a V1 register, immediate offset. -/
  | vldV1 (f : FmtC0)
  /-- VLD_V1_REG (R180). Load 256 bytes into a V1 register, register offset. -/
  | vldV1Reg (f : FmtC0R)
  /-- VST_V0 (R180). Store a V0 register, immediate offset. -/
  | vstV0 (f : FmtC0)
  /-- VST_V0_REG (R180). Store a V0 register, register offset. -/
  | vstV0Reg (f : FmtC0R)
  /-- VST_V1 (R180). Store a V1 register, immediate offset. -/
  | vstV1 (f : FmtC0)
  /-- VST_V1_REG (R180). Store a V1 register, register offset. -/
  | vstV1Reg (f : FmtC0R)
  /-- VGTH_V0 (R183). Gather 64 words into a V0 register by per-lane offsets. -/
  | vgthV0 (f : FmtC0R)
  /-- VGTH_V1 (R183). Gather 64 words into a V1 register. -/
  | vgthV1 (f : FmtC0R)
  /-- VSCT_V0 (R183). Scatter a V0 register's lanes by per-lane offsets. -/
  | vsctV0 (f : FmtC0R)
  /-- VSCT_V1 (R183). Scatter a V1 register's lanes. -/
  | vsctV1 (f : FmtC0R)
  /-- QPUSH_V0 (R184). Write a V0 register into the TAIL slot of a ring, optionally advancing TAIL. -/
  | qpushV0 (f : FmtC0Q)
  /-- QPUSH_V1 (R184). Write a V1 register into the TAIL slot of a ring. -/
  | qpushV1 (f : FmtC0Q)
  /-- QPOP_V0 (R184). Load 256 bytes of the HEAD slot into a V0 register, optionally advancing HEAD. -/
  | qpopV0 (f : FmtC0Q)
  /-- QPOP_V1 (R184). Load 256 bytes of the HEAD slot into a V1 register. -/
  | qpopV1 (f : FmtC0Q)
  /-- SPADD (R186). Atomic scratchpad word add, immediate offset. -/
  | spadd (f : FmtC0)
  /-- SPADD_REG (R186). Atomic scratchpad word add, register offset. -/
  | spaddReg (f : FmtC0R)
  /-- SPMAX (R186). Atomic scratchpad signed maximum, immediate offset. -/
  | spmax (f : FmtC0)
  /-- SPMAX_REG (R186). Atomic scratchpad signed maximum, register offset. -/
  | spmaxReg (f : FmtC0R)
  /-- SPSWP (R186). Atomic scratchpad swap, immediate offset. -/
  | spswp (f : FmtC0)
  /-- SPSWP_REG (R186). Atomic scratchpad swap, register offset. -/
  | spswpReg (f : FmtC0R)
  /-- CPYLD (R191). Read a 64-byte copy descriptor into the staging register after checking it. -/
  | cpyld (f : FmtGA)
  /-- CPYGO (R192). Start the staged copy with a new ticket, or return 0 when four are queued. -/
  | cpygo (f : FmtD)
  /-- CPYSTAT (R193). Return the copy sequencer's queue count and last completed ticket. -/
  | cpystat (f : FmtD)
  /-- VBCPY_SS (R228). Queue a bus copy from this scratchpad to another layer's scratchpad. -/
  | vbcpySs (f : FmtDAB)
  /-- VBCPY_BS (R228). Queue a bus copy from a bank tile to this scratchpad or a ring slot. -/
  | vbcpyBs (f : FmtDAB)
  /-- VBCPY_SB (R228). Queue a bus copy from this scratchpad to a bank tile. -/
  | vbcpySb (f : FmtDAB)
  /-- WBZERO (R234). Queue a bank-engine zero fill of a tile version. -/
  | wbzero (f : FmtDA)
  /-- WBCOPY (R234). Queue a bank-engine tile copy. -/
  | wbcopy (f : FmtDAB)
  /-- WBCMP (R234). Queue a bank-engine tile compare. -/
  | wbcmp (f : FmtDAB)
  /-- WBFENCE (R238). Wait for this core's accepted bank operations to end, then return the bank status. -/
  | wbfence (f : FmtD)
  /-- LUPD (R237). Queue a multiplicative log update of a bank tile into the next version. -/
  | lupd (f : FmtDA)
  /-- WBTAG (R233). Read TVMAP and write the masked tag-to-version entries. -/
  | wbtag (f : FmtDA)
  /-- TLOAD (R274). Accept a far tile load into scratchpad or a ring slot. -/
  | tload (f : FmtDA)
  /-- TSTORE (R274). Accept a far tile store, optionally tagged with a guard. -/
  | tstore (f : FmtDA)
  /-- TLOADZ (R315). Accept a load of one Sloe compressed tile, decoded in the memory port. -/
  | tloadz (f : FmtDA)
  /-- GACQ (R277). Send a guard acquire in the mode found in the descriptor. -/
  | gacq (f : FmtDA)
  /-- GACQ_X (R277). Guard acquire requiring exclusive mode in the descriptor. -/
  | gacqX (f : FmtDA)
  /-- GACQ_S (R277). Guard acquire requiring shared mode in the descriptor. -/
  | gacqS (f : FmtDA)
  /-- GREL (R277). Send a guard release with the arrival count b, mode as found. -/
  | grel (f : FmtDAB)
  /-- GREL_X (R277). Guard release requiring exclusive mode. -/
  | grelX (f : FmtDAB)
  /-- GREL_S (R277). Guard release requiring shared mode. -/
  | grelS (f : FmtDAB)
  /-- FADD (R281). Accept a far 64-bit atomic add. -/
  | fadd (f : FmtDA)
  /-- FCAS (R281). Accept a far 64-bit compare-and-swap. -/
  | fcas (f : FmtDA)
  /-- FSWAP (R281). Accept a far 64-bit swap. -/
  | fswap (f : FmtDA)
  /-- NMSADD (R302). Send a near-memory FP32 d += A*x command. -/
  | nmsadd (f : FmtDA)
  /-- NMSGD (R302). Send a near-memory SGD with weight fade command. -/
  | nmsgd (f : FmtDA)
  /-- NMZERO (R302). Send a near-memory zero fill command. -/
  | nmzero (f : FmtDA)
  /-- NMCOPY (R302). Send a near-memory in-stack copy command. -/
  | nmcopy (f : FmtDA)
  /-- NMCMP (R302). Send a near-memory line compare command. -/
  | nmcmp (f : FmtDA)
  /-- NMFENCE (R306). Fence this core's earlier NMU commands and report their poison. -/
  | nmfence (f : FmtDA)
  /-- BKALLOC (R309). Allocate a Bramble block for a key. -/
  | bkalloc (f : FmtDA)
  /-- BKXLAT (R309). Translate a Bramble key to its block without change. -/
  | bkxlat (f : FmtDA)
  /-- BKSHARE (R309). Map a second key to a key's Bramble block. -/
  | bkshare (f : FmtDA)
  /-- BKFREE (R309). Remove a Bramble key and drop one reference. -/
  | bkfree (f : FmtDA)
  /-- BKLOAD (R309). Load bytes of a key's Bramble block into scratchpad or a ring slot. -/
  | bkload (f : FmtDA)
  /-- BKSTORE (R309). Store bytes into a key's Bramble block, copying on write when shared. -/
  | bkstore (f : FmtDA)
  /-- FSTAT (R283). Return the count of this core's held far-request entries. -/
  | fstat (f : FmtD)
  /-- COLL_AR (R352). Request an all-reduce collective. -/
  | collAr (f : FmtDA)
  /-- COLL_RS (R352). Request a reduce-scatter collective. -/
  | collRs (f : FmtDA)
  /-- COLL_AG (R352). Request an all-gather collective. -/
  | collAg (f : FmtDA)
  /-- COLL_BC (R352). Request a broadcast collective. -/
  | collBc (f : FmtDA)
  /-- CCANCEL (R358). Send a collective cancel to the Medlar primary. -/
  | ccancel (f : FmtDA)
  /-- CSTAT (R359). Return sequencer heartbeat, link status and outstanding collective count. -/
  | cstat (f : FmtD)
  /-- CPLD (R212). Bank 1 starts loading a code page into a frame and returns a status. -/
  | cpld (f : FmtDAB)
  /-- XSEND (R255). Send a flit range of a vector register out of a mesh port. -/
  | xsend (f : FmtX)
  /-- XRECV (R255). Take flits from a mesh inbound FIFO into a vector register. -/
  | xrecv (f : FmtX)
  /-- XFWD (R255). Forward flits from a mesh inbound FIFO to an outbound port. -/
  | xfwd (f : FmtXFwd)
  /-- FSEND (R343). Send register flits as one link flit out of a fabric port. -/
  | fsend (f : FmtX)
  /-- FRECV (R343). Take flits from a fabric inbound FIFO into a vector register. -/
  | frecv (f : FmtX)
  -- the events: rows without an encoding
  /-- RESULT_VISIBLE (R4). An exposed result becomes visible at its latency and is pushed into the last-result file. -/
  | resultVisible
  /-- C0_WRITE_APPLIED (R181). A C0 store, scatter, push or atomic write is applied two issue cycles after issue. -/
  | c0WriteApplied
  /-- VBCVT_LATE_READ (R156). VBCVT reads its block-word operand three cycles after issue. -/
  | vbcvtLateRead
  /-- ROLLBACK (R204). At the end of the drain, state is restored to the last checkpoint from the undo and pre-image buffers. -/
  | rollback
  /-- SERVICE_HANDLER_ENTRY (R205). After rollback, CAUSE, TRAP_PC and CKP_PC are written and bank 1 issues at offset 0. -/
  | serviceHandlerEntry
  /-- BANK0_RESUME (R206). After RFT and all bank 1 results settle, bank 0 runs the remaining dwell and issues at CKP_PC. -/
  | bank0Resume
  /-- CHECKPOINT_COMMIT (R207). A checkpoint bundle commits once no M operation is busy and all checks of its interval are done. -/
  | checkpointCommit
  /-- DATA_ERROR (R213). A detected data error drains, rolls back and reruns the interval twice. -/
  | dataError
  /-- RERUN_COMPARE (R213). At the end of the second rerun, cycles and signatures are compared to commit, trap or retire. -/
  | rerunCompare
  /-- LOOP_BACK (R127). When the last body bundle issues, the loop engine advances the pass, stage predicates and increments or exits. -/
  | loopBack
  /-- ARRIVAL_PROPAGATE (R134). A barrier arrival is set in the other cores' copies three cycles after it. -/
  | arrivalPropagate
  /-- BARRIER_COMPLETE (R134). When ARR equals PART, every copy clears ARR and toggles GEN, releasing waiters. -/
  | barrierComplete
  /-- STREAM_VECTOR_BEGIN (R169). A stream vector is read from its ring slot and enters the array. -/
  | streamVectorBegin
  /-- LINE_SUM_ADD (R45). Line sums of a vector are added, saturating, into tile elements and their checks made. -/
  | lineSumAdd
  /-- STREAM_RETIRE (R169). A stream's last vector completes and its ring slot is freed. -/
  | streamRetire
  /-- PLANE_ROW_WRITE (R164). A row of a weight load is read from its source and written into the plane. -/
  | planeRowWrite
  /-- PLANE_LOAD_COMPLETE (R164). A weight load records the new WFMT in MSTAT and frees the plane. -/
  | planeLoadComplete
  /-- TILE_OP_COMPLETE (R170). An MCLR or rescaling MSETP finishes and frees the tile. -/
  | tileOpComplete
  /-- DRAIN_ROW_WRITE (R175). A drained row is written into the ring slot. -/
  | drainRowWrite
  /-- DRAIN_COMPLETE (R174). A drain records its conversion flags in the tile and frees tile and slot. -/
  | drainComplete
  /-- BUS_BEAT (R225). A vertical-bus beat moves 128 bytes in an owned slot. -/
  | busBeat
  /-- BUS_COPY_REQUEST (R229). A bus copy places its request in the first owned slot with the port free. -/
  | busCopyRequest
  /-- COPY_START (R194). A queued copy starts after its predecessor completes. -/
  | copyStart
  /-- COPY_BEAT (R194). A copy beat reads its source bytes and writes them two cycles later. -/
  | copyBeat
  /-- COPY_COMPLETE (R194). A copy completes, updates LASTDONE and frees its ring slot. -/
  | copyComplete
  /-- COPY_RESTART (R196). After rollback, recorded copies restart at their first incomplete run. -/
  | copyRestart
  /-- MULTICAST_LAND (R231). A multicast store is written into every target layer in one clock cycle. -/
  | multicastLand
  /-- VB_SLOTS_TAKE_EFFECT (R223). A written VB_SLOTS or VB_BANK value takes effect at the next slot 0. -/
  | vbSlotsTakeEffect
  /-- CPLD_COMPLETE (R212). A code page load finishes and its map entry becomes valid. -/
  | cpldComplete
  /-- TVMAP_UPDATE (R233). WBTAG's masked entries are written into TVMAP three cycles after issue. -/
  | tvmapUpdate
  /-- BANK_OP_START (R234). The bank engine starts the next queued operation. -/
  | bankOpStart
  /-- LUPD_GRADIENT_BEAT (R237). A gradient beat of LUPD travels in a bank-engine slot. -/
  | lupdGradientBeat
  /-- LUPD_ROW_UPDATE (R237). A row of the log update is read, updated and written as a bank atomic. -/
  | lupdRowUpdate
  /-- BANK_OP_END (R235). A bank operation ends and WBCMP or LUPD replaces the bank status. -/
  | bankOpEnd
  /-- WBFENCE_RELEASE (R238). The fenced bank operations have ended and the fence wait ends. -/
  | wbfenceRelease
  /-- BUS_WIRE_FAILURE (R240). A failing check code on the vertical bus discards the beat and marks transfers late. -/
  | busWireFailure
  /-- BUS_WIRE_REPAIR_START (R240). Repair of a failed wire starts at the next suitable slot 0. -/
  | busWireRepairStart
  /-- BUS_WIRE_REPAIR_END (R240). Repair ends after 32 cycles and owned-slot sequences resume. -/
  | busWireRepairEnd
  /-- PHASE_ARRIVAL (R246). A core's arrival at the boundary is recorded with its budget after the PHASE dwell. -/
  | phaseArrival
  /-- BOUNDARY_COMPLETE (R247). The boundary completes when every resident task has arrived or been stopped. -/
  | boundaryComplete
  /-- PHASE_COUNTER_ADVANCE (R248). The phase counter takes its new value one cycle after the boundary. -/
  | phaseCounterAdvance
  /-- SUPERSTEP_START (R248). A task's cores issue the next superstep, 16 cycles after the boundary or once its image is in place. -/
  | superstepStart
  /-- EMPTY_BOUNDARY (R259). With no resident task, a boundary completes when a queued task becomes ready. -/
  | emptyBoundary
  /-- STRAGGLER_DEADLINE (R249). A task not arrived by its deadline has every core stopped. -/
  | stragglerDeadline
  /-- STRAGGLER_STOP_COMPLETE (R249). The stop is complete 64 cycles later and the task is aborted. -/
  | stragglerStopComplete
  /-- MESH_FLIT_DEPART (R253). A mesh flit departs its port in its departure cycle. -/
  | meshFlitDepart
  /-- MESH_FLIT_ARRIVE (R253). A mesh flit is written into the neighbour's inbound FIFO. -/
  | meshFlitArrive
  /-- FAR_REQUEST_SEND (R280). A far form held behind an acquire or release is sent. -/
  | farRequestSend
  /-- TILE_TRANSFER_COMPLETE (R274). A tile load or store completes and writes DELIV, FIRST and STATUS. -/
  | tileTransferComplete
  /-- TAGGED_STORE_AT_GUARD (R279). A tagged store is checked at its guard, performed and counted, or refused NOTHELD. -/
  | taggedStoreAtGuard
  /-- GACQ_AT_GUARD (R278). An acquire attempt at the guard is granted or found BUSY. -/
  | gacqAtGuard
  /-- GREL_AT_GUARD (R279). A release at the guard frees it with MIS, or finds LOST. -/
  | grelAtGuard
  /-- ATOMIC_AT_MEMORY (R282). A far atomic is performed indivisibly at the memory holding its target. -/
  | atomicAtMemory
  /-- DUP_COPY_ACK (R289). The other die acknowledges its copy of a store to a duplicated segment. -/
  | dupCopyAck
  /-- NM_COMMAND_AT_NMU (R303). An NMU command reaches its stack and is checked at its guard. -/
  | nmCommandAtNmu
  /-- NM_LINE_STEP (R303). One 64-byte line is read, computed and written indivisibly. -/
  | nmLineStep
  /-- NM_COMMAND_COMPLETE (R304). An NMU command writes DONE, FIRST, NFIN, FIRSTD and STATUS and counts at its guard. -/
  | nmCommandComplete
  /-- NMFENCE_COMPLETE (R306). The fence completes when its commands have, writing NCMD and STATUS. -/
  | nmfenceComplete
  /-- BRAMBLE_DIRECTORY_OP (R311). A Bramble form takes effect at the package directory in the package-wide order. -/
  | brambleDirectoryOp
  /-- BRAMBLE_COMPLETE (R309). A Bramble form completes, writing OUTCOME, REFS, location and STATUS. -/
  | brambleComplete
  /-- BLOCK_RETURN_TO_POOL (R311). A block with no references returns to its pool after its translated accesses complete. -/
  | blockReturnToPool
  /-- TLOADZ_COMPLETE (R316). A compressed tile load writes decoded codes or the malformed outcome and completes. -/
  | tloadzComplete
  /-- SEGMENT_MOVE_COMPLETE (R318). A tier move finishes and the new entry is written at the next boundary. -/
  | segmentMoveComplete
  /-- DEVICE_CHECKPOINT_START (R320). With both dies holding and memory work drained, the checkpoint copy starts. -/
  | deviceCheckpointStart
  /-- DEVICE_CHECKPOINT_COMMIT (R319). The commit record is written after the last line and tier DIRTY bits are cleared. -/
  | deviceCheckpointCommit
  /-- REGISTER_WRITE (R322). A write to a window register without a row of its own, refused with DENY from a non-owner. -/
  | registerWrite
  /-- OWN_CLAIM (R326). A write to OWN_CLAIM claims ownership. -/
  | ownClaim
  /-- OWN_BEAT (R323). A write to OWN_BEAT from the owner renews its lease. -/
  | ownBeat
  /-- DENY_CLEAR (R322). An agent writing 1 to its own DENY bit clears it. -/
  | denyClear
  /-- OWNER_LEASE_EXPIRY (R326). After 400 ms without a beat ownership lapses. -/
  | ownerLeaseExpiry
  /-- HANDOVER_WINDOW_EXPIRY (R326). A handover unclaimed within 1 s ends with ownership unchanged. -/
  | handoverWindowExpiry
  /-- SUBMIT (R325). Read a task descriptor and enqueue the task or refuse it. -/
  | submit
  /-- PREEMPT (R325). Set the pre-emption request bit of a resident task. -/
  | preempt
  /-- RESUME (R325). Clear the hold of a held task. -/
  | resume
  /-- DISCARD (R325). Remove a queued or held task and write its completion record. -/
  | discard
  /-- HGACQ (R325). Host guard acquire acting as GACQ. -/
  | hgacq
  /-- HGREL (R325). Host guard release acting as GREL. -/
  | hgrel
  /-- GFREE (R325). Write 64 zero bytes to a guard. -/
  | gfree
  /-- LOGREAD (R325). Move the oldest fault-log records to a host buffer. -/
  | logread
  /-- CKPT (R325). Start a whole-device checkpoint into a slot. -/
  | ckpt
  /-- RESTORE (R321). Restore a whole-device checkpoint and resume every task. -/
  | restore
  /-- BKPOOL (R325). Set the Bramble pool size of a stack. -/
  | bkpool
  /-- HANDOVER (R326). Open a 1 s window in which only the named agent may claim. -/
  | handover
  /-- ATTEST (R330). Write a signed attestation report to a host buffer. -/
  | attest
  /-- UNKNOWN_COMMAND (R324). A slot with unknown OP or non-zero RSVD completes BADCMD without effect. -/
  | unknownCommand
  /-- POWER_ON_RESET (R7). Power-on reset puts registers to their reset values and starts boot. -/
  | powerOnReset
  /-- PACKAGE_RESET (R7). A package reset puts registers to their reset values and starts boot. -/
  | packageReset
  /-- BOOT_COMPLETE (R329). Firmware verification, array test, training and pending commands finish and READY is set. -/
  | bootComplete
  /-- FIRMWARE_WRITE (R330). A signed firmware write into slot B in recovery mode. -/
  | firmwareWrite
  /-- THERMAL_THROTTLE (R332). At 95 C the core clock steps down 100 MHz at the next boundary. -/
  | thermalThrottle
  /-- THERMAL_TRIP (R332). At 110 C the package resets. -/
  | thermalTrip
  /-- POD_BOOT (R337). The pod clock starts at 0 and die clocks lock to it. -/
  | podBoot
  /-- LINK_FLIT_DELIVERY (R338). A link flit is delivered H cycles after departure, corrected or marked uncorrectable. -/
  | linkFlitDelivery
  /-- LINK_DOWN (R340). After 1,024 uncorrectable flits or loss of alignment a link goes down. -/
  | linkDown
  /-- LINK_TRAINING (R340). A link is trained again through the management channel. -/
  | linkTraining
  /-- FABRIC_FLIT_DEPART (R343). A queued FSEND link flit departs in a free data slot. -/
  | fabricFlitDepart
  /-- FABRIC_FLIT_ARRIVE (R343). A link flit is written into the matching core's fabric FIFO, or discarded. -/
  | fabricFlitArrive
  /-- CREDIT_RETURN (R344). A credit returns to the sender after the receiver takes or discards a flit. -/
  | creditReturn
  /-- REMOTE_MEMORY_HOP (R345). A remote-memory request or reply crosses one hop in a remote-memory slot. -/
  | remoteMemoryHop
  /-- CHANNEL_MESSAGE_RECEIVE (R347). A Medlar or management channel message is authenticated, acknowledged or dropped. -/
  | channelMessageReceive
  /-- CHANNEL_RETRANSMIT (R347). A message unacknowledged for 2 us is sent again. -/
  | channelRetransmit
  /-- COLL_REQUEST_AT_PRIMARY (R349). The primary takes a collective request and assigns a CSN when the last arrives, or voids it. -/
  | collRequestAtPrimary
  /-- GRANT_RECEIVED (R350). A package receives a grant and schedules it, or completes it LATE. -/
  | grantReceived
  /-- COLLECTIVE_START (R354). At START the reduction unit runs the collective window on its links. -/
  | collectiveStart
  /-- COLLECTIVE_COMPLETE (R354). After the window the collective writes FLAGS, OUTCOME, CSN, TERM, START and STATUS. -/
  | collectiveComplete
  /-- CANCEL_AT_PRIMARY (R358). The primary voids, refuses or records a cancelled collective and writes RESULT. -/
  | cancelAtPrimary
  /-- VOID_COLLECTIVE_COMPLETE (R358). A void collective completes at START with LOST and CANCELLED. -/
  | voidCollectiveComplete
  /-- HEARTBEAT (R361). The primary sends its term every 10 us. -/
  | heartbeat
  /-- FAILOVER (R361). After four missed heartbeats the standby raises the term and sends collect requests. -/
  | failover
  /-- COLLECT_REQUEST (R361). A package discards later old-term grants and returns its requests and highest CSN. -/
  | collectRequest
  /-- NUMBERING_RESUME (R361). After all replies or 1 ms the new primary resumes numbering and assigns returned requests. -/
  | numberingResume
deriving DecidableEq, Repr

end Sys2Proof
end

