-- ==== Sys2Proof/WellFormed.lean ====
section
/-! DEFINITION. The well-formed instructions: what the encoding rules of 04_core_encoding.md (R87 to R106)
and R160, R183 admit of an operand record beyond the widths of its fields. -/

namespace Sys2Proof

/-- A register code that the C0, C1, M and X slots accept as a destination (R106): 0 to 47, or 63. -/
def regOk (r : BitVec 6) : Bool := decide (r.toNat < 48) || r == 63#6

/-- An accumulator tile number (R93). -/
def tileOk (t : BitVec 5) : Bool := decide (t.toNat < 24)

/-- A rounding-mode field: 5 and 6 are reserved (R91, R93). -/
def modeOk (m : BitVec 3) : Bool := m != 5#3 && m != 6#3

/-- A mesh port (R96, R105). -/
def meshPort (p : BitVec 3) : Bool := decide (p.toNat < 4)

/-- A fabric port (R96, R105). -/
def fabricPort (p : BitVec 3) : Bool := decide (p.toNat < 6)

/-- The control-register selectors of R74. -/
def selectorAssigned (sel : BitVec 6) : Bool :=
  let n := sel.toNat
  decide (n ≤ 0x05) || (decide (0x08 ≤ n) && decide (n ≤ 0x0C)) || (decide (0x10 ≤ n) && decide (n ≤ 0x12)) ||
  (decide (0x18 ≤ n) && decide (n ≤ 0x1E)) || (decide (0x20 ≤ n) && decide (n ≤ 0x2F))

/-- The element format codes that format VC accepts (R92). -/
def vcFormat (c : BitVec 5) : Bool :=
  decide (c.toNat ≤ 2) || (decide (10 ≤ c.toNat) && decide (c.toNat ≤ 17))

/-- R87: LB is 0 when B is an immediate. -/
def FmtR.wf (f : FmtR) : Bool := !(f.x && f.lb)

/-- R88: the combining type 7 is reserved. -/
def FmtP.wf (f : FmtP) : Bool := f.ct != 7#3

/-- R97: LINC names s0 to s47, or b0 to b7 with D[5:3] = 0. -/
def FmtLinc.wf (f : FmtLinc) : Bool :=
  if f.k then decide (f.d.toNat < 8) else decide (f.d.toNat < 48)

/-- R90: TY 3 and CT 7 are reserved. -/
def FmtVP.wf (f : FmtVP) : Bool := f.ty != 3#2 && f.ct != 7#3

/-- R91, R92: the formats and the mode of a conversion. -/
def FmtVC.wf (f : FmtVC) : Bool := vcFormat f.df && vcFormat f.sf && modeOk f.mode

/-- R91: the block type 7 is reserved. -/
def FmtVBMax.wf (f : FmtVBMax) : Bool := f.bt != 7#3
def FmtVBCvt.wf (f : FmtVBCvt) : Bool := f.bt != 7#3 && modeOk f.mode
def FmtVDq.wf (f : FmtVDq) : Bool := f.bt != 7#3

/-- R160: VQDUAL names four source registers and two destinations. -/
def FmtVQDual.wf (f : FmtVQDual) : Bool :=
  modeOk f.mode && decide (f.a.toNat ≤ 44) && decide (f.d.toNat ≤ 46)

/-- R93: with ALL the row block is 0. -/
def FmtMdrain.wf (f : FmtMdrain) : Bool :=
  tileOk f.t && modeOk f.mode && !(f.all && f.blk != 0#3)

/-- R96: the flits of one register. -/
def FmtX.wf (f : FmtX) : Bool := decide (f.fl.toNat + f.nf.toNat ≤ 7)

/-- An instruction that the encoding rules of 04 admit (R106); an event is well formed when its arguments
name what exists. -/
def Instr.wf : Instr → Bool
  | .nop => true
  | .iadd f => f.wf
  | .isub f => f.wf
  | .imul f => f.wf
  | .imulh f => f.wf
  | .imulhu f => f.wf
  | .and f => f.wf
  | .or f => f.wf
  | .xor f => f.wf
  | .andn f => f.wf
  | .shl f => f.wf
  | .shr f => f.wf
  | .sra f => f.wf
  | .rotl f => f.wf
  | .min f => f.wf
  | .max f => f.wf
  | .minu f => f.wf
  | .maxu f => f.wf
  | .shadd1 f => f.wf
  | .shadd2 f => f.wf
  | .shadd3 f => f.wf
  | .clz _ => true
  | .popc _ => true
  | .mov _ => true
  | .sel f => f.wf
  | .iadds f => f.wf
  | .isubs f => f.wf
  | .cmpeq f => f.wf
  | .cmpne f => f.wf
  | .cmplt f => f.wf
  | .cmple f => f.wf
  | .cmpltu f => f.wf
  | .cmpleu f => f.wf
  | .cmpbit f => f.wf
  | .mfc f => selectorAssigned f.sel
  | .mtc f => selectorAssigned f.sel
  | .mfp _ => true
  | .mtp f => !(f.x && f.lb)
  | .mfb _ => true
  | .mtb _ => true
  | .mfq _ => true
  | .mtq _ => true
  | .mftask f => decide (f.n.toNat < 48)
  | .mttask f => decide (f.n.toNat < 48)
  | .trapi _ => true
  | .rft => true
  | .br _ => true
  | .call _ => true
  | .bri _ => true
  | .calli _ => true
  | .ret _ => true
  | .loop _ => true
  | .linc f => f.wf
  | .lexit _ => true
  | .rot _ => true
  | .barr _ => true
  | .bwait _ => true
  | .bsync _ => true
  | .phase _ => true
  | .phaseRg _ => true
  | .halt _ => true
  | .vaddF32 _ => true
  | .vaddF16 _ => true
  | .vaddBf16 _ => true
  | .vsubF32 _ => true
  | .vsubF16 _ => true
  | .vsubBf16 _ => true
  | .vmulF32 _ => true
  | .vmulF16 _ => true
  | .vmulBf16 _ => true
  | .vfmaF32 _ => true
  | .vfmaF16 _ => true
  | .vfmaBf16 _ => true
  | .vminF32 _ => true
  | .vminF16 _ => true
  | .vminBf16 _ => true
  | .vmaxF32 _ => true
  | .vmaxF16 _ => true
  | .vmaxBf16 _ => true
  | .viaddI32 _ => true
  | .viaddI16 _ => true
  | .viaddI8 _ => true
  | .visubI32 _ => true
  | .visubI16 _ => true
  | .visubI8 _ => true
  | .vimulI32 _ => true
  | .vimulI16 _ => true
  | .vimulI8 _ => true
  | .viminI32 _ => true
  | .viminI16 _ => true
  | .viminI8 _ => true
  | .vimaxI32 _ => true
  | .vimaxI16 _ => true
  | .vimaxI8 _ => true
  | .vand _ => true
  | .vor _ => true
  | .vxor _ => true
  | .vandn _ => true
  | .vshl _ => true
  | .vshr _ => true
  | .vsra _ => true
  | .vsel _ => true
  | .vperm _ => true
  | .vbcst _ => true
  | .vredAddF32 _ => true
  | .vredMaxF32 _ => true
  | .vredMinF32 _ => true
  | .vredAddI32 _ => true
  | .vredMaxI32 _ => true
  | .vredMinI32 _ => true
  | .vexp2 _ => true
  | .vlog2 _ => true
  | .vrcp _ => true
  | .vrsq _ => true
  | .vflg _ => true
  | .vmov _ => true
  | .vcvt f => f.wf
  | .vcvts f => f.wf
  | .vbmax f => f.wf
  | .vbcvt f => f.wf
  | .vqdual f => f.wf
  | .vdq f => f.wf
  | .vstr _ => true
  | .vstw _ => true
  | .vfcmpeq f => f.wf
  | .vfcmpne f => f.wf
  | .vfcmplt f => f.wf
  | .vfcmple f => f.wf
  | .vfcmpun f => f.wf
  | .vicmpeq f => f.wf
  | .vicmpne f => f.wf
  | .vicmplt f => f.wf
  | .vicmple f => f.wf
  | .vicmpltu f => f.wf
  | .vicmpleu f => f.wf
  | .mldw _ => true
  | .mldwb _ => true
  | .mswap _ => true
  | .mstream f => tileOk f.t
  | .mstreamb f => tileOk f.t
  | .mclr f => tileOk f.t
  | .msetp f => tileOk f.t
  | .mdrain f => f.wf
  | .mflg f => tileOk f.t && regOk f.d
  | .mclrf f => tileOk f.t
  | .ldw f => regOk f.d
  | .ldwReg f => regOk f.d
  | .ldh f => regOk f.d
  | .ldhReg f => regOk f.d
  | .ldhu f => regOk f.d
  | .ldhuReg f => regOk f.d
  | .ldb f => regOk f.d
  | .ldbReg f => regOk f.d
  | .ldbu f => regOk f.d
  | .ldbuReg f => regOk f.d
  | .stw _ => true
  | .stwReg _ => true
  | .sth _ => true
  | .sthReg _ => true
  | .stb _ => true
  | .stbReg _ => true
  | .vldV0 f => regOk f.d
  | .vldV0Reg f => regOk f.d
  | .vldV1 f => regOk f.d
  | .vldV1Reg f => regOk f.d
  | .vstV0 f => regOk f.d
  | .vstV0Reg f => regOk f.d
  | .vstV1 f => regOk f.d
  | .vstV1Reg f => regOk f.d
  | .vgthV0 f => regOk f.d && regOk f.a
  | .vgthV1 f => regOk f.d && regOk f.a
  | .vsctV0 f => regOk f.d && regOk f.a
  | .vsctV1 f => regOk f.d && regOk f.a
  | .qpushV0 f => regOk f.d
  | .qpushV1 f => regOk f.d
  | .qpopV0 f => regOk f.d
  | .qpopV1 f => regOk f.d
  | .spadd f => regOk f.d
  | .spaddReg f => regOk f.d
  | .spmax f => regOk f.d
  | .spmaxReg f => regOk f.d
  | .spswp f => regOk f.d
  | .spswpReg f => regOk f.d
  | .cpyld _ => true
  | .cpygo f => regOk f.d
  | .cpystat f => regOk f.d
  | .vbcpySs f => regOk f.d
  | .vbcpyBs f => regOk f.d
  | .vbcpySb f => regOk f.d
  | .wbzero f => regOk f.d
  | .wbcopy f => regOk f.d
  | .wbcmp f => regOk f.d
  | .wbfence f => regOk f.d
  | .lupd f => regOk f.d
  | .wbtag f => regOk f.d
  | .tload f => regOk f.d
  | .tstore f => regOk f.d
  | .tloadz f => regOk f.d
  | .gacq f => regOk f.d
  | .gacqX f => regOk f.d
  | .gacqS f => regOk f.d
  | .grel f => regOk f.d
  | .grelX f => regOk f.d
  | .grelS f => regOk f.d
  | .fadd f => regOk f.d
  | .fcas f => regOk f.d
  | .fswap f => regOk f.d
  | .nmsadd f => regOk f.d
  | .nmsgd f => regOk f.d
  | .nmzero f => regOk f.d
  | .nmcopy f => regOk f.d
  | .nmcmp f => regOk f.d
  | .nmfence f => regOk f.d
  | .bkalloc f => regOk f.d
  | .bkxlat f => regOk f.d
  | .bkshare f => regOk f.d
  | .bkfree f => regOk f.d
  | .bkload f => regOk f.d
  | .bkstore f => regOk f.d
  | .fstat f => regOk f.d
  | .collAr f => regOk f.d
  | .collRs f => regOk f.d
  | .collAg f => regOk f.d
  | .collBc f => regOk f.d
  | .ccancel f => regOk f.d
  | .cstat f => regOk f.d
  | .cpld f => regOk f.d
  | .xsend f => f.wf && meshPort f.port
  | .xrecv f => f.wf && meshPort f.port && regOk f.v
  | .xfwd f => meshPort f.port && meshPort f.port2
  | .fsend f => f.wf && fabricPort f.port
  | .frecv f => f.wf && fabricPort f.port && regOk f.v
  | .resultVisible => true
  | .c0WriteApplied => true
  | .vbcvtLateRead => true
  | .rollback => true
  | .serviceHandlerEntry => true
  | .bank0Resume => true
  | .checkpointCommit => true
  | .dataError => true
  | .rerunCompare => true
  | .loopBack => true
  | .arrivalPropagate => true
  | .barrierComplete => true
  | .streamVectorBegin => true
  | .lineSumAdd => true
  | .streamRetire => true
  | .planeRowWrite => true
  | .planeLoadComplete => true
  | .tileOpComplete => true
  | .drainRowWrite => true
  | .drainComplete => true
  | .busBeat => true
  | .busCopyRequest => true
  | .copyStart => true
  | .copyBeat => true
  | .copyComplete => true
  | .copyRestart => true
  | .multicastLand => true
  | .vbSlotsTakeEffect => true
  | .cpldComplete => true
  | .tvmapUpdate => true
  | .bankOpStart => true
  | .lupdGradientBeat => true
  | .lupdRowUpdate => true
  | .bankOpEnd => true
  | .wbfenceRelease => true
  | .busWireFailure => true
  | .busWireRepairStart => true
  | .busWireRepairEnd => true
  | .phaseArrival => true
  | .boundaryComplete => true
  | .phaseCounterAdvance => true
  | .superstepStart => true
  | .emptyBoundary => true
  | .stragglerDeadline => true
  | .stragglerStopComplete => true
  | .meshFlitDepart => true
  | .meshFlitArrive => true
  | .farRequestSend => true
  | .tileTransferComplete => true
  | .taggedStoreAtGuard => true
  | .gacqAtGuard => true
  | .grelAtGuard => true
  | .atomicAtMemory => true
  | .dupCopyAck => true
  | .nmCommandAtNmu => true
  | .nmLineStep => true
  | .nmCommandComplete => true
  | .nmfenceComplete => true
  | .brambleDirectoryOp => true
  | .brambleComplete => true
  | .blockReturnToPool => true
  | .tloadzComplete => true
  | .segmentMoveComplete => true
  | .deviceCheckpointStart => true
  | .deviceCheckpointCommit => true
  | .registerWrite => true
  | .ownClaim => true
  | .ownBeat => true
  | .denyClear => true
  | .ownerLeaseExpiry => true
  | .handoverWindowExpiry => true
  | .submit => true
  | .preempt => true
  | .resume => true
  | .discard => true
  | .hgacq => true
  | .hgrel => true
  | .gfree => true
  | .logread => true
  | .ckpt => true
  | .restore => true
  | .bkpool => true
  | .handover => true
  | .attest => true
  | .unknownCommand => true
  | .powerOnReset => true
  | .packageReset => true
  | .bootComplete => true
  | .firmwareWrite => true
  | .thermalThrottle => true
  | .thermalTrip => true
  | .podBoot => true
  | .linkFlitDelivery => true
  | .linkDown => true
  | .linkTraining => true
  | .fabricFlitDepart => true
  | .fabricFlitArrive => true
  | .creditReturn => true
  | .remoteMemoryHop => true
  | .channelMessageReceive => true
  | .channelRetransmit => true
  | .collRequestAtPrimary => true
  | .grantReceived => true
  | .collectiveStart => true
  | .collectiveComplete => true
  | .cancelAtPrimary => true
  | .voidCollectiveComplete => true
  | .heartbeat => true
  | .failover => true
  | .collectRequest => true
  | .numberingResume => true

end Sys2Proof
end

