-- ==== Sys2Proof/Decode.lean ====
section
/-! DEFINITION. The decoder and the encoder (04_core_encoding.md R82 to R106): a word of each slot format,
the seven opcode maps, the bundle, and the fate of every encoding that is no instruction. -/

namespace Sys2Proof

/-- Why bytes are no bundle (R106): the trap that decoding raises. -/
inductive DecodeReject where
  /-- MALFORMED: a header reserved bit, or code 62 read without a literal. -/
  | malformed
  /-- ILLEGAL_SLOT: an unassigned opcode or a field out of form. -/
  | illegalSlot
  /-- The bytes end before the bundle does. -/
  | truncated
deriving DecidableEq, Repr

/-- Whether a register field holds code 62, the bundle literal (R84). -/
def isLit (r : BitVec 6) : Bool := r == 62#6

/-- The number that fields make, the first the most significant: (width, value) each. -/
def packFields (l : List (Nat × Nat)) : Nat := l.foldl (fun acc f => acc * 2 ^ f.1 + f.2) 0

/-- The word of format G with opcode `op`. -/
def FmtG.toWord (op : BitVec 6) (f : FmtG) : W :=
  BitVec.ofNat 32 (packFields [(6, op.toNat), (1, f.gn.toNat), (4, f.g.toNat), (21, 0)])

/-- Format G read from a word; none where a fixed field differs. -/
def FmtG.ofWord (w : W) : Option FmtG :=
  if w.extractLsb' 0 21 = 0#21 then
    some { gn := w.getLsbD 25, g := w.extractLsb' 21 4 }
  else none

/-- The word of format R with opcode `op`. -/
def FmtR.toWord (op : BitVec 6) (f : FmtR) : W :=
  BitVec.ofNat 32 (packFields [(6, op.toNat), (1, f.gn.toNat), (4, f.g.toNat), (6, f.d.toNat), (6, f.a.toNat), (6, f.b.toNat), (1, f.la.toNat), (1, f.lb.toNat), (1, f.x.toNat)])

/-- Format R read from a word; none where a fixed field differs. -/
def FmtR.ofWord (w : W) : Option FmtR :=
  some { gn := w.getLsbD 25, g := w.extractLsb' 21 4, d := w.extractLsb' 15 6, a := w.extractLsb' 9 6, b := w.extractLsb' 3 6, la := w.getLsbD 2, lb := w.getLsbD 1, x := w.getLsbD 0 }

/-- The word of format RA with opcode `op`. -/
def FmtRA.toWord (op : BitVec 6) (f : FmtRA) : W :=
  BitVec.ofNat 32 (packFields [(6, op.toNat), (1, f.gn.toNat), (4, f.g.toNat), (6, f.d.toNat), (6, f.a.toNat), (6, 0), (1, f.la.toNat), (2, 0)])

/-- Format RA read from a word; none where a fixed field differs. -/
def FmtRA.ofWord (w : W) : Option FmtRA :=
  if w.extractLsb' 3 6 = 0#6 ∧ w.extractLsb' 0 2 = 0#2 then
    some { gn := w.getLsbD 25, g := w.extractLsb' 21 4, d := w.extractLsb' 15 6, a := w.extractLsb' 9 6, la := w.getLsbD 2 }
  else none

/-- The word of format P with opcode `op`. -/
def FmtP.toWord (op : BitVec 6) (f : FmtP) : W :=
  BitVec.ofNat 32 (packFields [(6, op.toNat), (3, f.g.toNat), (4, f.p1.toNat), (4, f.p2.toNat), (3, f.ct.toNat), (6, f.a.toNat), (6, f.b.toNat)])

/-- Format P read from a word; none where a fixed field differs. -/
def FmtP.ofWord (w : W) : Option FmtP :=
  some { g := w.extractLsb' 23 3, p1 := w.extractLsb' 19 4, p2 := w.extractLsb' 15 4, ct := w.extractLsb' 12 3, a := w.extractLsb' 6 6, b := w.extractLsb' 0 6 }

/-- The word of format Mfc with opcode `op`. -/
def FmtMfc.toWord (op : BitVec 6) (f : FmtMfc) : W :=
  BitVec.ofNat 32 (packFields [(6, op.toNat), (1, f.gn.toNat), (4, f.g.toNat), (6, f.d.toNat), (6, f.sel.toNat), (9, 0)])

/-- Format Mfc read from a word; none where a fixed field differs. -/
def FmtMfc.ofWord (w : W) : Option FmtMfc :=
  if w.extractLsb' 0 9 = 0#9 then
    some { gn := w.getLsbD 25, g := w.extractLsb' 21 4, d := w.extractLsb' 15 6, sel := w.extractLsb' 9 6 }
  else none

/-- The word of format Mtc with opcode `op`. -/
def FmtMtc.toWord (op : BitVec 6) (f : FmtMtc) : W :=
  BitVec.ofNat 32 (packFields [(6, op.toNat), (1, f.gn.toNat), (4, f.g.toNat), (6, f.sel.toNat), (6, f.a.toNat), (6, 0), (1, f.la.toNat), (2, 0)])

/-- Format Mtc read from a word; none where a fixed field differs. -/
def FmtMtc.ofWord (w : W) : Option FmtMtc :=
  if w.extractLsb' 3 6 = 0#6 ∧ w.extractLsb' 0 2 = 0#2 then
    some { gn := w.getLsbD 25, g := w.extractLsb' 21 4, sel := w.extractLsb' 15 6, a := w.extractLsb' 9 6, la := w.getLsbD 2 }
  else none

/-- The word of format D with opcode `op`. -/
def FmtD.toWord (op : BitVec 6) (f : FmtD) : W :=
  BitVec.ofNat 32 (packFields [(6, op.toNat), (1, f.gn.toNat), (4, f.g.toNat), (6, f.d.toNat), (15, 0)])

/-- Format D read from a word; none where a fixed field differs. -/
def FmtD.ofWord (w : W) : Option FmtD :=
  if w.extractLsb' 0 15 = 0#15 then
    some { gn := w.getLsbD 25, g := w.extractLsb' 21 4, d := w.extractLsb' 15 6 }
  else none

/-- The word of format Mtp with opcode `op`. -/
def FmtMtp.toWord (op : BitVec 6) (f : FmtMtp) : W :=
  BitVec.ofNat 32 (packFields [(6, op.toNat), (1, f.gn.toNat), (4, f.g.toNat), (6, 0), (6, f.a.toNat), (6, f.b.toNat), (1, f.la.toNat), (1, f.lb.toNat), (1, f.x.toNat)])

/-- Format Mtp read from a word; none where a fixed field differs. -/
def FmtMtp.ofWord (w : W) : Option FmtMtp :=
  if w.extractLsb' 15 6 = 0#6 then
    some { gn := w.getLsbD 25, g := w.extractLsb' 21 4, a := w.extractLsb' 9 6, b := w.extractLsb' 3 6, la := w.getLsbD 2, lb := w.getLsbD 1, x := w.getLsbD 0 }
  else none

/-- The word of format Mfb with opcode `op`. -/
def FmtMfb.toWord (op : BitVec 6) (f : FmtMfb) : W :=
  BitVec.ofNat 32 (packFields [(6, op.toNat), (1, f.gn.toNat), (4, f.g.toNat), (6, f.d.toNat), (3, 0), (3, f.n.toNat), (9, 0)])

/-- Format Mfb read from a word; none where a fixed field differs. -/
def FmtMfb.ofWord (w : W) : Option FmtMfb :=
  if w.extractLsb' 12 3 = 0#3 ∧ w.extractLsb' 0 9 = 0#9 then
    some { gn := w.getLsbD 25, g := w.extractLsb' 21 4, d := w.extractLsb' 15 6, n := w.extractLsb' 9 3 }
  else none

/-- The word of format Mtb with opcode `op`. -/
def FmtMtb.toWord (op : BitVec 6) (f : FmtMtb) : W :=
  BitVec.ofNat 32 (packFields [(6, op.toNat), (1, f.gn.toNat), (4, f.g.toNat), (3, 0), (3, f.n.toNat), (6, f.a.toNat), (6, 0), (1, f.la.toNat), (2, 0)])

/-- Format Mtb read from a word; none where a fixed field differs. -/
def FmtMtb.ofWord (w : W) : Option FmtMtb :=
  if w.extractLsb' 18 3 = 0#3 ∧ w.extractLsb' 3 6 = 0#6 ∧ w.extractLsb' 0 2 = 0#2 then
    some { gn := w.getLsbD 25, g := w.extractLsb' 21 4, n := w.extractLsb' 15 3, a := w.extractLsb' 9 6, la := w.getLsbD 2 }
  else none

/-- The word of format Mfq with opcode `op`. -/
def FmtMfq.toWord (op : BitVec 6) (f : FmtMfq) : W :=
  BitVec.ofNat 32 (packFields [(6, op.toNat), (1, f.gn.toNat), (4, f.g.toNat), (6, f.d.toNat), (3, 0), (3, f.n.toNat), (4, 0), (2, f.w.toNat), (3, 1)])

/-- Format Mfq read from a word; none where a fixed field differs. -/
def FmtMfq.ofWord (w : W) : Option FmtMfq :=
  if w.extractLsb' 12 3 = 0#3 ∧ w.extractLsb' 5 4 = 0#4 ∧ w.extractLsb' 0 3 = 1#3 then
    some { gn := w.getLsbD 25, g := w.extractLsb' 21 4, d := w.extractLsb' 15 6, n := w.extractLsb' 9 3, w := w.extractLsb' 3 2 }
  else none

/-- The word of format Mtq with opcode `op`. -/
def FmtMtq.toWord (op : BitVec 6) (f : FmtMtq) : W :=
  BitVec.ofNat 32 (packFields [(6, op.toNat), (1, f.gn.toNat), (4, f.g.toNat), (3, 0), (3, f.n.toNat), (6, f.a.toNat), (4, 0), (2, f.w.toNat), (1, f.la.toNat), (2, 1)])

/-- Format Mtq read from a word; none where a fixed field differs. -/
def FmtMtq.ofWord (w : W) : Option FmtMtq :=
  if w.extractLsb' 18 3 = 0#3 ∧ w.extractLsb' 5 4 = 0#4 ∧ w.extractLsb' 0 2 = 1#2 then
    some { gn := w.getLsbD 25, g := w.extractLsb' 21 4, n := w.extractLsb' 15 3, a := w.extractLsb' 9 6, w := w.extractLsb' 3 2, la := w.getLsbD 2 }
  else none

/-- The word of format Mftask with opcode `op`. -/
def FmtMftask.toWord (op : BitVec 6) (f : FmtMftask) : W :=
  BitVec.ofNat 32 (packFields [(6, op.toNat), (1, f.gn.toNat), (4, f.g.toNat), (6, f.d.toNat), (6, f.n.toNat), (9, 0)])

/-- Format Mftask read from a word; none where a fixed field differs. -/
def FmtMftask.ofWord (w : W) : Option FmtMftask :=
  if w.extractLsb' 0 9 = 0#9 then
    some { gn := w.getLsbD 25, g := w.extractLsb' 21 4, d := w.extractLsb' 15 6, n := w.extractLsb' 9 6 }
  else none

/-- The word of format Mttask with opcode `op`. -/
def FmtMttask.toWord (op : BitVec 6) (f : FmtMttask) : W :=
  BitVec.ofNat 32 (packFields [(6, op.toNat), (1, f.gn.toNat), (4, f.g.toNat), (6, f.n.toNat), (6, f.a.toNat), (6, 0), (1, f.la.toNat), (2, 0)])

/-- Format Mttask read from a word; none where a fixed field differs. -/
def FmtMttask.ofWord (w : W) : Option FmtMttask :=
  if w.extractLsb' 3 6 = 0#6 ∧ w.extractLsb' 0 2 = 0#2 then
    some { gn := w.getLsbD 25, g := w.extractLsb' 21 4, n := w.extractLsb' 15 6, a := w.extractLsb' 9 6, la := w.getLsbD 2 }
  else none

/-- The word of format Trapi with opcode `op`. -/
def FmtTrapi.toWord (op : BitVec 6) (f : FmtTrapi) : W :=
  BitVec.ofNat 32 (packFields [(6, op.toNat), (1, f.gn.toNat), (4, f.g.toNat), (13, 0), (5, f.arg.toNat), (3, 1)])

/-- Format Trapi read from a word; none where a fixed field differs. -/
def FmtTrapi.ofWord (w : W) : Option FmtTrapi :=
  if w.extractLsb' 8 13 = 0#13 ∧ w.extractLsb' 0 3 = 1#3 then
    some { gn := w.getLsbD 25, g := w.extractLsb' 21 4, arg := w.extractLsb' 3 5 }
  else none

/-- The word of format BJ with opcode `op`. -/
def FmtBJ.toWord (op : BitVec 6) (f : FmtBJ) : W :=
  BitVec.ofNat 32 (packFields [(6, op.toNat), (1, f.gn.toNat), (4, f.g.toNat), (21, f.off.toNat)])

/-- Format BJ read from a word; none where a fixed field differs. -/
def FmtBJ.ofWord (w : W) : Option FmtBJ :=
  some { gn := w.getLsbD 25, g := w.extractLsb' 21 4, off := w.extractLsb' 0 21 }

/-- The word of format BX with opcode `op`. -/
def FmtBX.toWord (op : BitVec 6) (f : FmtBX) : W :=
  BitVec.ofNat 32 (packFields [(6, op.toNat), (1, f.gn.toNat), (4, f.g.toNat), (6, f.a.toNat), (15, 0)])

/-- Format BX read from a word; none where a fixed field differs. -/
def FmtBX.ofWord (w : W) : Option FmtBX :=
  if w.extractLsb' 0 15 = 0#15 then
    some { gn := w.getLsbD 25, g := w.extractLsb' 21 4, a := w.extractLsb' 15 6 }
  else none

/-- The word of format Loop with opcode `op`. -/
def FmtLoop.toWord (op : BitVec 6) (f : FmtLoop) : W :=
  BitVec.ofNat 32 (packFields [(6, op.toNat), (1, f.gn.toNat), (4, f.g.toNat), (6, f.a.toNat), (3, f.nst.toNat), (1, f.div.toNat), (3, 0), (8, f.len.toNat)])

/-- Format Loop read from a word; none where a fixed field differs. -/
def FmtLoop.ofWord (w : W) : Option FmtLoop :=
  if w.extractLsb' 8 3 = 0#3 then
    some { gn := w.getLsbD 25, g := w.extractLsb' 21 4, a := w.extractLsb' 15 6, nst := w.extractLsb' 12 3, div := w.getLsbD 11, len := w.extractLsb' 0 8 }
  else none

/-- The word of format Linc with opcode `op`. -/
def FmtLinc.toWord (op : BitVec 6) (f : FmtLinc) : W :=
  BitVec.ofNat 32 (packFields [(6, op.toNat), (1, f.gn.toNat), (4, f.g.toNat), (6, f.d.toNat), (1, f.k.toNat), (14, f.inc.toNat)])

/-- Format Linc read from a word; none where a fixed field differs. -/
def FmtLinc.ofWord (w : W) : Option FmtLinc :=
  some { gn := w.getLsbD 25, g := w.extractLsb' 21 4, d := w.extractLsb' 15 6, k := w.getLsbD 14, inc := w.extractLsb' 0 14 }

/-- The word of format Rot with opcode `op`. -/
def FmtRot.toWord (op : BitVec 6) (f : FmtRot) : W :=
  BitVec.ofNat 32 (packFields [(6, op.toNat), (1, f.gn.toNat), (4, f.g.toNat), (19, 0), (1, f.brb.toNat), (1, f.prb.toNat)])

/-- Format Rot read from a word; none where a fixed field differs. -/
def FmtRot.ofWord (w : W) : Option FmtRot :=
  if w.extractLsb' 2 19 = 0#19 then
    some { gn := w.getLsbD 25, g := w.extractLsb' 21 4, brb := w.getLsbD 1, prb := w.getLsbD 0 }
  else none

/-- The word of format BB with opcode `op`. -/
def FmtBB.toWord (op : BitVec 6) (f : FmtBB) : W :=
  BitVec.ofNat 32 (packFields [(6, op.toNat), (1, f.gn.toNat), (4, f.g.toNat), (5, f.bar.toNat), (16, 0)])

/-- Format BB read from a word; none where a fixed field differs. -/
def FmtBB.ofWord (w : W) : Option FmtBB :=
  if w.extractLsb' 0 16 = 0#16 then
    some { gn := w.getLsbD 25, g := w.extractLsb' 21 4, bar := w.extractLsb' 16 5 }
  else none

/-- The word of format Phase with opcode `op`. -/
def FmtPhase.toWord (op : BitVec 6) (f : FmtPhase) : W :=
  BitVec.ofNat 32 (packFields [(6, op.toNat), (1, f.gn.toNat), (4, f.g.toNat), (1, 0), (20, f.body.toNat)])

/-- Format Phase read from a word; none where a fixed field differs. -/
def FmtPhase.ofWord (w : W) : Option FmtPhase :=
  if w.extractLsb' 20 1 = 0#1 then
    some { gn := w.getLsbD 25, g := w.extractLsb' 21 4, body := w.extractLsb' 0 20 }
  else none

/-- The word of format PhaseRg with opcode `op`. -/
def FmtPhaseRg.toWord (op : BitVec 6) (f : FmtPhaseRg) : W :=
  BitVec.ofNat 32 (packFields [(6, op.toNat), (1, f.gn.toNat), (4, f.g.toNat), (1, 1), (6, f.a.toNat), (14, 0)])

/-- Format PhaseRg read from a word; none where a fixed field differs. -/
def FmtPhaseRg.ofWord (w : W) : Option FmtPhaseRg :=
  if w.extractLsb' 20 1 = 1#1 ∧ w.extractLsb' 0 14 = 0#14 then
    some { gn := w.getLsbD 25, g := w.extractLsb' 21 4, a := w.extractLsb' 14 6 }
  else none

/-- The word of format VR with opcode `op`. -/
def FmtVR.toWord (op : BitVec 6) (x : BitVec 1) (f : FmtVR) : W :=
  BitVec.ofNat 32 (packFields [(6, op.toNat), (5, f.gs.toNat), (6, f.d.toNat), (6, f.a.toNat), (6, f.b.toNat), (1, f.la.toNat), (1, f.lb.toNat), (1, x.toNat)])

/-- Format VR read from a word; none where a fixed field differs. -/
def FmtVR.ofWord (x : BitVec 1) (w : W) : Option FmtVR :=
  if w.extractLsb' 0 1 = x then
    some { gs := w.extractLsb' 21 5, d := w.extractLsb' 15 6, a := w.extractLsb' 9 6, b := w.extractLsb' 3 6, la := w.getLsbD 2, lb := w.getLsbD 1 }
  else none

/-- The word of format VRX with opcode `op`. -/
def FmtVRX.toWord (op : BitVec 6) (f : FmtVRX) : W :=
  BitVec.ofNat 32 (packFields [(6, op.toNat), (5, f.gs.toNat), (6, f.d.toNat), (6, f.a.toNat), (6, f.b.toNat), (1, f.la.toNat), (1, f.lb.toNat), (1, f.x.toNat)])

/-- Format VRX read from a word; none where a fixed field differs. -/
def FmtVRX.ofWord (w : W) : Option FmtVRX :=
  some { gs := w.extractLsb' 21 5, d := w.extractLsb' 15 6, a := w.extractLsb' 9 6, b := w.extractLsb' 3 6, la := w.getLsbD 2, lb := w.getLsbD 1, x := w.getLsbD 0 }

/-- The word of format VRA with opcode `op`. -/
def FmtVRA.toWord (op : BitVec 6) (sub : BitVec 6) (f : FmtVRA) : W :=
  BitVec.ofNat 32 (packFields [(6, op.toNat), (5, f.gs.toNat), (6, f.d.toNat), (6, f.a.toNat), (6, sub.toNat), (1, f.la.toNat), (2, 0)])

/-- Format VRA read from a word; none where a fixed field differs. -/
def FmtVRA.ofWord (sub : BitVec 6) (w : W) : Option FmtVRA :=
  if w.extractLsb' 3 6 = sub ∧ w.extractLsb' 0 2 = 0#2 then
    some { gs := w.extractLsb' 21 5, d := w.extractLsb' 15 6, a := w.extractLsb' 9 6, la := w.getLsbD 2 }
  else none

/-- The word of format VSel with opcode `op`. -/
def FmtVSel.toWord (op : BitVec 6) (f : FmtVSel) : W :=
  BitVec.ofNat 32 (packFields [(6, op.toNat), (5, f.gs.toNat), (6, f.d.toNat), (6, f.a.toNat), (3, 0), (3, f.n.toNat), (1, f.la.toNat), (2, 0)])

/-- Format VSel read from a word; none where a fixed field differs. -/
def FmtVSel.ofWord (w : W) : Option FmtVSel :=
  if w.extractLsb' 6 3 = 0#3 ∧ w.extractLsb' 0 2 = 0#2 then
    some { gs := w.extractLsb' 21 5, d := w.extractLsb' 15 6, a := w.extractLsb' 9 6, n := w.extractLsb' 3 3, la := w.getLsbD 2 }
  else none

/-- The word of format VFlg with opcode `op`. -/
def FmtVFlg.toWord (op : BitVec 6) (f : FmtVFlg) : W :=
  BitVec.ofNat 32 (packFields [(6, op.toNat), (5, f.gs.toNat), (6, f.d.toNat), (1, 0), (5, f.mask.toNat), (9, 0)])

/-- Format VFlg read from a word; none where a fixed field differs. -/
def FmtVFlg.ofWord (w : W) : Option FmtVFlg :=
  if w.extractLsb' 14 1 = 0#1 ∧ w.extractLsb' 0 9 = 0#9 then
    some { gs := w.extractLsb' 21 5, d := w.extractLsb' 15 6, mask := w.extractLsb' 9 5 }
  else none

/-- The word of format VC with opcode `op`. -/
def FmtVC.toWord (op : BitVec 6) (f : FmtVC) : W :=
  BitVec.ofNat 32 (packFields [(6, op.toNat), (5, f.df.toNat), (5, f.sf.toNat), (3, f.mode.toNat), (6, f.d.toNat), (6, f.a.toNat), (1, f.la.toNat)])

/-- Format VC read from a word; none where a fixed field differs. -/
def FmtVC.ofWord (w : W) : Option FmtVC :=
  some { df := w.extractLsb' 21 5, sf := w.extractLsb' 16 5, mode := w.extractLsb' 13 3, d := w.extractLsb' 7 6, a := w.extractLsb' 1 6, la := w.getLsbD 0 }

/-- The word of format VBMax with opcode `op`. -/
def FmtVBMax.toWord (op : BitVec 6) (f : FmtVBMax) : W :=
  BitVec.ofNat 32 (packFields [(6, op.toNat), (3, f.bt.toNat), (3, 0), (6, f.d.toNat), (6, f.a.toNat), (6, 0), (1, f.la.toNat), (1, 0)])

/-- Format VBMax read from a word; none where a fixed field differs. -/
def FmtVBMax.ofWord (w : W) : Option FmtVBMax :=
  if w.extractLsb' 20 3 = 0#3 ∧ w.extractLsb' 2 6 = 0#6 ∧ w.extractLsb' 0 1 = 0#1 then
    some { bt := w.extractLsb' 23 3, d := w.extractLsb' 14 6, a := w.extractLsb' 8 6, la := w.getLsbD 1 }
  else none

/-- The word of format VBCvt with opcode `op`. -/
def FmtVBCvt.toWord (op : BitVec 6) (f : FmtVBCvt) : W :=
  BitVec.ofNat 32 (packFields [(6, op.toNat), (3, f.bt.toNat), (3, f.mode.toNat), (6, f.d.toNat), (6, f.a.toNat), (6, f.b.toNat), (1, f.la.toNat), (1, f.lb.toNat)])

/-- Format VBCvt read from a word; none where a fixed field differs. -/
def FmtVBCvt.ofWord (w : W) : Option FmtVBCvt :=
  some { bt := w.extractLsb' 23 3, mode := w.extractLsb' 20 3, d := w.extractLsb' 14 6, a := w.extractLsb' 8 6, b := w.extractLsb' 2 6, la := w.getLsbD 1, lb := w.getLsbD 0 }

/-- The word of format VQDual with opcode `op`. -/
def FmtVQDual.toWord (op : BitVec 6) (f : FmtVQDual) : W :=
  BitVec.ofNat 32 (packFields [(6, op.toNat), (1, 0), (2, f.bt.toNat), (3, f.mode.toNat), (6, f.d.toNat), (6, f.a.toNat), (6, 0), (1, f.la.toNat), (1, 0)])

/-- Format VQDual read from a word; none where a fixed field differs. -/
def FmtVQDual.ofWord (w : W) : Option FmtVQDual :=
  if w.extractLsb' 25 1 = 0#1 ∧ w.extractLsb' 2 6 = 0#6 ∧ w.extractLsb' 0 1 = 0#1 then
    some { bt := w.extractLsb' 23 2, mode := w.extractLsb' 20 3, d := w.extractLsb' 14 6, a := w.extractLsb' 8 6, la := w.getLsbD 1 }
  else none

/-- The word of format VDq with opcode `op`. -/
def FmtVDq.toWord (op : BitVec 6) (f : FmtVDq) : W :=
  BitVec.ofNat 32 (packFields [(6, op.toNat), (3, f.bt.toNat), (3, 0), (6, f.d.toNat), (6, f.a.toNat), (6, f.b.toNat), (1, f.la.toNat), (1, f.lb.toNat)])

/-- Format VDq read from a word; none where a fixed field differs. -/
def FmtVDq.ofWord (w : W) : Option FmtVDq :=
  if w.extractLsb' 20 3 = 0#3 then
    some { bt := w.extractLsb' 23 3, d := w.extractLsb' 14 6, a := w.extractLsb' 8 6, b := w.extractLsb' 2 6, la := w.getLsbD 1, lb := w.getLsbD 0 }
  else none

/-- The word of format VStr with opcode `op`. -/
def FmtVStr.toWord (op : BitVec 6) (f : FmtVStr) : W :=
  BitVec.ofNat 32 (packFields [(6, op.toNat), (2, f.w.toNat), (12, f.idx.toNat), (6, f.v.toNat), (6, 0)])

/-- Format VStr read from a word; none where a fixed field differs. -/
def FmtVStr.ofWord (w : W) : Option FmtVStr :=
  if w.extractLsb' 0 6 = 0#6 then
    some { w := w.extractLsb' 24 2, idx := w.extractLsb' 12 12, v := w.extractLsb' 6 6 }
  else none

/-- The word of format VStw with opcode `op`. -/
def FmtVStw.toWord (op : BitVec 6) (f : FmtVStw) : W :=
  BitVec.ofNat 32 (packFields [(6, op.toNat), (2, f.w.toNat), (12, f.idx.toNat), (6, f.v.toNat), (1, f.la.toNat), (5, 0)])

/-- Format VStw read from a word; none where a fixed field differs. -/
def FmtVStw.ofWord (w : W) : Option FmtVStw :=
  if w.extractLsb' 0 5 = 0#5 then
    some { w := w.extractLsb' 24 2, idx := w.extractLsb' 12 12, v := w.extractLsb' 6 6, la := w.getLsbD 5 }
  else none

/-- The word of format VP with opcode `op`. -/
def FmtVP.toWord (op : BitVec 6) (f : FmtVP) : W :=
  BitVec.ofNat 32 (packFields [(6, op.toNat), (3, f.g.toNat), (2, f.ty.toNat), (3, f.p1.toNat), (3, f.p2.toNat), (3, f.ct.toNat), (6, f.a.toNat), (6, f.b.toNat)])

/-- Format VP read from a word; none where a fixed field differs. -/
def FmtVP.ofWord (w : W) : Option FmtVP :=
  some { g := w.extractLsb' 23 3, ty := w.extractLsb' 21 2, p1 := w.extractLsb' 18 3, p2 := w.extractLsb' 15 3, ct := w.extractLsb' 12 3, a := w.extractLsb' 6 6, b := w.extractLsb' 0 6 }

/-- The word of format Mldw with opcode `op`. -/
def FmtMldw.toWord (op : BitVec 6) (f : FmtMldw) : W :=
  BitVec.ofNat 32 (packFields [(6, op.toNat), (1, f.gn.toNat), (4, f.g.toNat), (5, 0), (3, f.q.toNat), (13, 0)])

/-- Format Mldw read from a word; none where a fixed field differs. -/
def FmtMldw.ofWord (w : W) : Option FmtMldw :=
  if w.extractLsb' 16 5 = 0#5 ∧ w.extractLsb' 0 13 = 0#13 then
    some { gn := w.getLsbD 25, g := w.extractLsb' 21 4, q := w.extractLsb' 13 3 }
  else none

/-- The word of format Mldwb with opcode `op`. -/
def FmtMldwb.toWord (op : BitVec 6) (f : FmtMldwb) : W :=
  BitVec.ofNat 32 (packFields [(6, op.toNat), (1, f.gn.toNat), (4, f.g.toNat), (8, 0), (3, f.vsel.toNat), (9, f.tile.toNat), (1, 0)])

/-- Format Mldwb read from a word; none where a fixed field differs. -/
def FmtMldwb.ofWord (w : W) : Option FmtMldwb :=
  if w.extractLsb' 13 8 = 0#8 ∧ w.extractLsb' 0 1 = 0#1 then
    some { gn := w.getLsbD 25, g := w.extractLsb' 21 4, vsel := w.extractLsb' 10 3, tile := w.extractLsb' 1 9 }
  else none

/-- The word of format Mstream with opcode `op`. -/
def FmtMstream.toWord (op : BitVec 6) (f : FmtMstream) : W :=
  BitVec.ofNat 32 (packFields [(6, op.toNat), (1, f.gn.toNat), (4, f.g.toNat), (5, f.t.toNat), (3, f.q.toNat), (3, f.md.toNat), (8, f.n.toNat), (2, 0)])

/-- Format Mstream read from a word; none where a fixed field differs. -/
def FmtMstream.ofWord (w : W) : Option FmtMstream :=
  if w.extractLsb' 0 2 = 0#2 then
    some { gn := w.getLsbD 25, g := w.extractLsb' 21 4, t := w.extractLsb' 16 5, q := w.extractLsb' 13 3, md := w.extractLsb' 10 3, n := w.extractLsb' 2 8 }
  else none

/-- The word of format Mclr with opcode `op`. -/
def FmtMclr.toWord (op : BitVec 6) (f : FmtMclr) : W :=
  BitVec.ofNat 32 (packFields [(6, op.toNat), (1, f.gn.toNat), (4, f.g.toNat), (5, f.t.toNat), (16, 0)])

/-- Format Mclr read from a word; none where a fixed field differs. -/
def FmtMclr.ofWord (w : W) : Option FmtMclr :=
  if w.extractLsb' 0 16 = 0#16 then
    some { gn := w.getLsbD 25, g := w.extractLsb' 21 4, t := w.extractLsb' 16 5 }
  else none

/-- The word of format Msetp with opcode `op`. -/
def FmtMsetp.toWord (op : BitVec 6) (f : FmtMsetp) : W :=
  BitVec.ofNat 32 (packFields [(6, op.toNat), (1, f.gn.toNat), (4, f.g.toNat), (5, f.t.toNat), (6, 0), (8, f.p.toNat), (1, f.rsc.toNat), (1, 0)])

/-- Format Msetp read from a word; none where a fixed field differs. -/
def FmtMsetp.ofWord (w : W) : Option FmtMsetp :=
  if w.extractLsb' 10 6 = 0#6 ∧ w.extractLsb' 0 1 = 0#1 then
    some { gn := w.getLsbD 25, g := w.extractLsb' 21 4, t := w.extractLsb' 16 5, p := w.extractLsb' 2 8, rsc := w.getLsbD 1 }
  else none

/-- The word of format Mdrain with opcode `op`. -/
def FmtMdrain.toWord (op : BitVec 6) (f : FmtMdrain) : W :=
  BitVec.ofNat 32 (packFields [(6, op.toNat), (1, f.gn.toNat), (4, f.g.toNat), (5, f.t.toNat), (3, f.q.toNat), (3, f.mode.toNat), (3, f.blk.toNat), (1, f.all.toNat), (1, f.clr.toNat), (5, 0)])

/-- Format Mdrain read from a word; none where a fixed field differs. -/
def FmtMdrain.ofWord (w : W) : Option FmtMdrain :=
  if w.extractLsb' 0 5 = 0#5 then
    some { gn := w.getLsbD 25, g := w.extractLsb' 21 4, t := w.extractLsb' 16 5, q := w.extractLsb' 13 3, mode := w.extractLsb' 10 3, blk := w.extractLsb' 7 3, all := w.getLsbD 6, clr := w.getLsbD 5 }
  else none

/-- The word of format Mflg with opcode `op`. -/
def FmtMflg.toWord (op : BitVec 6) (f : FmtMflg) : W :=
  BitVec.ofNat 32 (packFields [(6, op.toNat), (1, f.gn.toNat), (4, f.g.toNat), (5, f.t.toNat), (6, 0), (6, f.d.toNat), (4, 0)])

/-- Format Mflg read from a word; none where a fixed field differs. -/
def FmtMflg.ofWord (w : W) : Option FmtMflg :=
  if w.extractLsb' 10 6 = 0#6 ∧ w.extractLsb' 0 4 = 0#4 then
    some { gn := w.getLsbD 25, g := w.extractLsb' 21 4, t := w.extractLsb' 16 5, d := w.extractLsb' 4 6 }
  else none

/-- The word of format Mclrf with opcode `op`. -/
def FmtMclrf.toWord (op : BitVec 6) (f : FmtMclrf) : W :=
  BitVec.ofNat 32 (packFields [(6, op.toNat), (1, f.gn.toNat), (4, f.g.toNat), (5, f.t.toNat), (6, 0), (3, f.f.toNat), (7, 0)])

/-- Format Mclrf read from a word; none where a fixed field differs. -/
def FmtMclrf.ofWord (w : W) : Option FmtMclrf :=
  if w.extractLsb' 10 6 = 0#6 ∧ w.extractLsb' 0 7 = 0#7 then
    some { gn := w.getLsbD 25, g := w.extractLsb' 21 4, t := w.extractLsb' 16 5, f := w.extractLsb' 7 3 }
  else none

/-- The word of format C0 with opcode `op`. -/
def FmtC0.toWord (op : BitVec 6) (f : FmtC0) : W :=
  BitVec.ofNat 32 (packFields [(6, op.toNat), (1, f.gn.toNat), (4, f.g.toNat), (6, f.d.toNat), (3, f.bq.toNat), (1, 0), (11, f.off.toNat)])

/-- Format C0 read from a word; none where a fixed field differs. -/
def FmtC0.ofWord (w : W) : Option FmtC0 :=
  if w.extractLsb' 11 1 = 0#1 then
    some { gn := w.getLsbD 25, g := w.extractLsb' 21 4, d := w.extractLsb' 15 6, bq := w.extractLsb' 12 3, off := w.extractLsb' 0 11 }
  else none

/-- The word of format C0R with opcode `op`. -/
def FmtC0R.toWord (op : BitVec 6) (f : FmtC0R) : W :=
  BitVec.ofNat 32 (packFields [(6, op.toNat), (1, f.gn.toNat), (4, f.g.toNat), (6, f.d.toNat), (3, f.bq.toNat), (1, 1), (5, 0), (6, f.a.toNat)])

/-- Format C0R read from a word; none where a fixed field differs. -/
def FmtC0R.ofWord (w : W) : Option FmtC0R :=
  if w.extractLsb' 11 1 = 1#1 ∧ w.extractLsb' 6 5 = 0#5 then
    some { gn := w.getLsbD 25, g := w.extractLsb' 21 4, d := w.extractLsb' 15 6, bq := w.extractLsb' 12 3, a := w.extractLsb' 0 6 }
  else none

/-- The word of format C0Q with opcode `op`. -/
def FmtC0Q.toWord (op : BitVec 6) (f : FmtC0Q) : W :=
  BitVec.ofNat 32 (packFields [(6, op.toNat), (1, f.gn.toNat), (4, f.g.toNat), (6, f.d.toNat), (3, f.q.toNat), (1, f.adv.toNat), (11, f.off.toNat)])

/-- Format C0Q read from a word; none where a fixed field differs. -/
def FmtC0Q.ofWord (w : W) : Option FmtC0Q :=
  some { gn := w.getLsbD 25, g := w.extractLsb' 21 4, d := w.extractLsb' 15 6, q := w.extractLsb' 12 3, adv := w.getLsbD 11, off := w.extractLsb' 0 11 }

/-- The word of format GA with opcode `op`. -/
def FmtGA.toWord (op : BitVec 6) (f : FmtGA) : W :=
  BitVec.ofNat 32 (packFields [(6, op.toNat), (1, f.gn.toNat), (4, f.g.toNat), (6, 0), (6, f.a.toNat), (9, 0)])

/-- Format GA read from a word; none where a fixed field differs. -/
def FmtGA.ofWord (w : W) : Option FmtGA :=
  if w.extractLsb' 15 6 = 0#6 ∧ w.extractLsb' 0 9 = 0#9 then
    some { gn := w.getLsbD 25, g := w.extractLsb' 21 4, a := w.extractLsb' 9 6 }
  else none

/-- The word of format DA with opcode `op`. -/
def FmtDA.toWord (op : BitVec 6) (sub : BitVec 3) (f : FmtDA) : W :=
  BitVec.ofNat 32 (packFields [(6, op.toNat), (1, f.gn.toNat), (4, f.g.toNat), (6, f.d.toNat), (6, f.a.toNat), (6, 0), (3, sub.toNat)])

/-- Format DA read from a word; none where a fixed field differs. -/
def FmtDA.ofWord (sub : BitVec 3) (w : W) : Option FmtDA :=
  if w.extractLsb' 3 6 = 0#6 ∧ w.extractLsb' 0 3 = sub then
    some { gn := w.getLsbD 25, g := w.extractLsb' 21 4, d := w.extractLsb' 15 6, a := w.extractLsb' 9 6 }
  else none

/-- The word of format DAB with opcode `op`. -/
def FmtDAB.toWord (op : BitVec 6) (sub : BitVec 3) (f : FmtDAB) : W :=
  BitVec.ofNat 32 (packFields [(6, op.toNat), (1, f.gn.toNat), (4, f.g.toNat), (6, f.d.toNat), (6, f.a.toNat), (6, f.b.toNat), (3, sub.toNat)])

/-- Format DAB read from a word; none where a fixed field differs. -/
def FmtDAB.ofWord (sub : BitVec 3) (w : W) : Option FmtDAB :=
  if w.extractLsb' 0 3 = sub then
    some { gn := w.getLsbD 25, g := w.extractLsb' 21 4, d := w.extractLsb' 15 6, a := w.extractLsb' 9 6, b := w.extractLsb' 3 6 }
  else none

/-- The word of format X with opcode `op`. -/
def FmtX.toWord (op : BitVec 6) (f : FmtX) : W :=
  BitVec.ofNat 32 (packFields [(6, op.toNat), (1, f.gn.toNat), (4, f.g.toNat), (6, f.v.toNat), (1, f.un.toNat), (3, f.port.toNat), (3, f.fl.toNat), (3, f.nf.toNat), (5, 0)])

/-- Format X read from a word; none where a fixed field differs. -/
def FmtX.ofWord (w : W) : Option FmtX :=
  if w.extractLsb' 0 5 = 0#5 then
    some { gn := w.getLsbD 25, g := w.extractLsb' 21 4, v := w.extractLsb' 15 6, un := w.getLsbD 14, port := w.extractLsb' 11 3, fl := w.extractLsb' 8 3, nf := w.extractLsb' 5 3 }
  else none

/-- The word of format XFwd with opcode `op`. -/
def FmtXFwd.toWord (op : BitVec 6) (f : FmtXFwd) : W :=
  BitVec.ofNat 32 (packFields [(6, op.toNat), (1, f.gn.toNat), (4, f.g.toNat), (7, 0), (3, f.port.toNat), (3, 0), (3, f.nf.toNat), (3, f.port2.toNat), (2, 0)])

/-- Format XFwd read from a word; none where a fixed field differs. -/
def FmtXFwd.ofWord (w : W) : Option FmtXFwd :=
  if w.extractLsb' 14 7 = 0#7 ∧ w.extractLsb' 8 3 = 0#3 ∧ w.extractLsb' 0 2 = 0#2 then
    some { gn := w.getLsbD 25, g := w.extractLsb' 21 4, port := w.extractLsb' 11 3, nf := w.extractLsb' 5 3, port2 := w.extractLsb' 2 3 }
  else none

/-- The opcode map of slot class s (R99 to R105). -/
def decodeS (op : Nat) (w : W) : Option Instr :=
  match op with
  | 0x00 => if w = 0#32 then some .nop else none
  | 0x01 => (FmtR.ofWord w).map .iadd
  | 0x02 => (FmtR.ofWord w).map .isub
  | 0x03 => (FmtR.ofWord w).map .imul
  | 0x04 => (FmtR.ofWord w).map .imulh
  | 0x05 => (FmtR.ofWord w).map .imulhu
  | 0x06 => (FmtR.ofWord w).map .and
  | 0x07 => (FmtR.ofWord w).map .or
  | 0x08 => (FmtR.ofWord w).map .xor
  | 0x09 => (FmtR.ofWord w).map .andn
  | 0x0A => (FmtR.ofWord w).map .shl
  | 0x0B => (FmtR.ofWord w).map .shr
  | 0x0C => (FmtR.ofWord w).map .sra
  | 0x0D => (FmtR.ofWord w).map .rotl
  | 0x0E => (FmtR.ofWord w).map .min
  | 0x0F => (FmtR.ofWord w).map .max
  | 0x10 => (FmtR.ofWord w).map .minu
  | 0x11 => (FmtR.ofWord w).map .maxu
  | 0x12 => (FmtR.ofWord w).map .shadd1
  | 0x13 => (FmtR.ofWord w).map .shadd2
  | 0x14 => (FmtR.ofWord w).map .shadd3
  | 0x15 => (FmtRA.ofWord w).map .clz
  | 0x16 => (FmtRA.ofWord w).map .popc
  | 0x17 => (FmtRA.ofWord w).map .mov
  | 0x18 => (FmtR.ofWord w).map .sel
  | 0x19 => (FmtR.ofWord w).map .iadds
  | 0x1A => (FmtR.ofWord w).map .isubs
  | 0x20 => (FmtP.ofWord w).map .cmpeq
  | 0x21 => (FmtP.ofWord w).map .cmpne
  | 0x22 => (FmtP.ofWord w).map .cmplt
  | 0x23 => (FmtP.ofWord w).map .cmple
  | 0x24 => (FmtP.ofWord w).map .cmpltu
  | 0x25 => (FmtP.ofWord w).map .cmpleu
  | 0x26 => (FmtP.ofWord w).map .cmpbit
  | 0x28 => (FmtMfc.ofWord w).map .mfc
  | 0x29 => (FmtMtc.ofWord w).map .mtc
  | 0x2A => (FmtD.ofWord w).map .mfp
  | 0x2B => (FmtMtp.ofWord w).map .mtp
  | 0x2C => (FmtMfb.ofWord w).map .mfb
  | 0x2D => (FmtMtb.ofWord w).map .mtb
  | 0x2E => (FmtMfq.ofWord w).map .mfq
  | 0x2F => (FmtMtq.ofWord w).map .mtq
  | 0x30 => (FmtMftask.ofWord w).map .mftask
  | 0x31 => (FmtMttask.ofWord w).map .mttask
  | 0x32 => (FmtTrapi.ofWord w).map .trapi
  | 0x33 => if w = 0xCC000000#32 then some .rft else none
  | _ => none

/-- The opcode map of slot class b (R99 to R105). -/
def decodeB (op : Nat) (w : W) : Option Instr :=
  match op with
  | 0x00 => if w = 0#32 then some .nop else none
  | 0x01 => (FmtBJ.ofWord w).map .br
  | 0x02 => (FmtBJ.ofWord w).map .call
  | 0x03 => (FmtBX.ofWord w).map .bri
  | 0x04 => (FmtBX.ofWord w).map .calli
  | 0x05 => (FmtG.ofWord w).map .ret
  | 0x06 => (FmtLoop.ofWord w).map .loop
  | 0x07 => (FmtLinc.ofWord w).map .linc
  | 0x08 => (FmtG.ofWord w).map .lexit
  | 0x09 => (FmtRot.ofWord w).map .rot
  | 0x0A => (FmtBB.ofWord w).map .barr
  | 0x0B => (FmtBB.ofWord w).map .bwait
  | 0x0C => (FmtBB.ofWord w).map .bsync
  | 0x0D => (FmtPhase.ofWord w).map .phase <|>
      (FmtPhaseRg.ofWord w).map .phaseRg
  | 0x0E => (FmtG.ofWord w).map .halt
  | _ => none

/-- The opcode map of slot class v (R99 to R105). -/
def decodeV (op : Nat) (w : W) : Option Instr :=
  match op with
  | 0x00 => if w = 0#32 then some .nop else none
  | 0x01 => (FmtVR.ofWord 0#1 w).map .vaddF32
  | 0x02 => (FmtVR.ofWord 0#1 w).map .vaddF16 <|>
      (FmtVR.ofWord 1#1 w).map .vaddBf16
  | 0x03 => (FmtVR.ofWord 0#1 w).map .vsubF32
  | 0x04 => (FmtVR.ofWord 0#1 w).map .vsubF16 <|>
      (FmtVR.ofWord 1#1 w).map .vsubBf16
  | 0x05 => (FmtVR.ofWord 0#1 w).map .vmulF32
  | 0x06 => (FmtVR.ofWord 0#1 w).map .vmulF16 <|>
      (FmtVR.ofWord 1#1 w).map .vmulBf16
  | 0x07 => (FmtVR.ofWord 0#1 w).map .vfmaF32
  | 0x08 => (FmtVR.ofWord 0#1 w).map .vfmaF16 <|>
      (FmtVR.ofWord 1#1 w).map .vfmaBf16
  | 0x09 => (FmtVR.ofWord 0#1 w).map .vminF32
  | 0x0A => (FmtVR.ofWord 0#1 w).map .vminF16 <|>
      (FmtVR.ofWord 1#1 w).map .vminBf16
  | 0x0B => (FmtVR.ofWord 0#1 w).map .vmaxF32
  | 0x0C => (FmtVR.ofWord 0#1 w).map .vmaxF16 <|>
      (FmtVR.ofWord 1#1 w).map .vmaxBf16
  | 0x0D => (FmtVRX.ofWord w).map .viaddI32
  | 0x0E => (FmtVRX.ofWord w).map .viaddI16
  | 0x0F => (FmtVRX.ofWord w).map .viaddI8
  | 0x10 => (FmtVRX.ofWord w).map .visubI32
  | 0x11 => (FmtVRX.ofWord w).map .visubI16
  | 0x12 => (FmtVRX.ofWord w).map .visubI8
  | 0x13 => (FmtVRX.ofWord w).map .vimulI32
  | 0x14 => (FmtVRX.ofWord w).map .vimulI16
  | 0x15 => (FmtVRX.ofWord w).map .vimulI8
  | 0x16 => (FmtVR.ofWord 0#1 w).map .viminI32
  | 0x17 => (FmtVR.ofWord 0#1 w).map .viminI16
  | 0x18 => (FmtVR.ofWord 0#1 w).map .viminI8
  | 0x19 => (FmtVR.ofWord 0#1 w).map .vimaxI32
  | 0x1A => (FmtVR.ofWord 0#1 w).map .vimaxI16
  | 0x1B => (FmtVR.ofWord 0#1 w).map .vimaxI8
  | 0x1C => (FmtVR.ofWord 0#1 w).map .vand
  | 0x1D => (FmtVR.ofWord 0#1 w).map .vor
  | 0x1E => (FmtVR.ofWord 0#1 w).map .vxor
  | 0x1F => (FmtVR.ofWord 0#1 w).map .vandn
  | 0x20 => (FmtVR.ofWord 0#1 w).map .vshl
  | 0x21 => (FmtVR.ofWord 0#1 w).map .vshr
  | 0x22 => (FmtVR.ofWord 0#1 w).map .vsra
  | 0x23 => (FmtVSel.ofWord w).map .vsel
  | 0x24 => (FmtVR.ofWord 0#1 w).map .vperm
  | 0x25 => (FmtVR.ofWord 0#1 w).map .vbcst
  | 0x26 => (FmtVRA.ofWord 0#6 w).map .vredAddF32 <|>
      (FmtVRA.ofWord 1#6 w).map .vredMaxF32 <|>
      (FmtVRA.ofWord 2#6 w).map .vredMinF32 <|>
      (FmtVRA.ofWord 3#6 w).map .vredAddI32 <|>
      (FmtVRA.ofWord 4#6 w).map .vredMaxI32 <|>
      (FmtVRA.ofWord 5#6 w).map .vredMinI32
  | 0x27 => (FmtVRA.ofWord 0#6 w).map .vexp2 <|>
      (FmtVRA.ofWord 1#6 w).map .vlog2 <|>
      (FmtVRA.ofWord 2#6 w).map .vrcp <|>
      (FmtVRA.ofWord 3#6 w).map .vrsq
  | 0x28 => (FmtVFlg.ofWord w).map .vflg
  | 0x29 => (FmtVRA.ofWord 0#6 w).map .vmov
  | 0x2A => (FmtVC.ofWord w).map .vcvt
  | 0x2B => (FmtVC.ofWord w).map .vcvts
  | 0x2C => (FmtVBMax.ofWord w).map .vbmax
  | 0x2D => (FmtVBCvt.ofWord w).map .vbcvt
  | 0x2E => (FmtVQDual.ofWord w).map .vqdual
  | 0x2F => (FmtVDq.ofWord w).map .vdq
  | 0x30 => (FmtVStr.ofWord w).map .vstr
  | 0x31 => (FmtVStw.ofWord w).map .vstw
  | 0x32 => (FmtVP.ofWord w).map .vfcmpeq
  | 0x33 => (FmtVP.ofWord w).map .vfcmpne
  | 0x34 => (FmtVP.ofWord w).map .vfcmplt
  | 0x35 => (FmtVP.ofWord w).map .vfcmple
  | 0x36 => (FmtVP.ofWord w).map .vfcmpun
  | 0x37 => (FmtVP.ofWord w).map .vicmpeq
  | 0x38 => (FmtVP.ofWord w).map .vicmpne
  | 0x39 => (FmtVP.ofWord w).map .vicmplt
  | 0x3A => (FmtVP.ofWord w).map .vicmple
  | 0x3B => (FmtVP.ofWord w).map .vicmpltu
  | 0x3C => (FmtVP.ofWord w).map .vicmpleu
  | _ => none

/-- The opcode map of slot class m (R99 to R105). -/
def decodeM (op : Nat) (w : W) : Option Instr :=
  match op with
  | 0x00 => if w = 0#32 then some .nop else none
  | 0x01 => (FmtMldw.ofWord w).map .mldw
  | 0x02 => (FmtMldwb.ofWord w).map .mldwb
  | 0x03 => (FmtG.ofWord w).map .mswap
  | 0x04 => (FmtMstream.ofWord w).map .mstream
  | 0x05 => (FmtMstream.ofWord w).map .mstreamb
  | 0x06 => (FmtMclr.ofWord w).map .mclr
  | 0x07 => (FmtMsetp.ofWord w).map .msetp
  | 0x08 => (FmtMdrain.ofWord w).map .mdrain
  | 0x09 => (FmtMflg.ofWord w).map .mflg
  | 0x0A => (FmtMclrf.ofWord w).map .mclrf
  | _ => none

/-- The opcode map of slot class c0 (R99 to R105). -/
def decodeC0 (op : Nat) (w : W) : Option Instr :=
  match op with
  | 0x00 => if w = 0#32 then some .nop else none
  | 0x01 => (FmtC0.ofWord w).map .ldw <|>
      (FmtC0R.ofWord w).map .ldwReg
  | 0x02 => (FmtC0.ofWord w).map .ldh <|>
      (FmtC0R.ofWord w).map .ldhReg
  | 0x03 => (FmtC0.ofWord w).map .ldhu <|>
      (FmtC0R.ofWord w).map .ldhuReg
  | 0x04 => (FmtC0.ofWord w).map .ldb <|>
      (FmtC0R.ofWord w).map .ldbReg
  | 0x05 => (FmtC0.ofWord w).map .ldbu <|>
      (FmtC0R.ofWord w).map .ldbuReg
  | 0x06 => (FmtC0.ofWord w).map .stw <|>
      (FmtC0R.ofWord w).map .stwReg
  | 0x07 => (FmtC0.ofWord w).map .sth <|>
      (FmtC0R.ofWord w).map .sthReg
  | 0x08 => (FmtC0.ofWord w).map .stb <|>
      (FmtC0R.ofWord w).map .stbReg
  | 0x09 => (FmtC0.ofWord w).map .vldV0 <|>
      (FmtC0R.ofWord w).map .vldV0Reg
  | 0x0A => (FmtC0.ofWord w).map .vldV1 <|>
      (FmtC0R.ofWord w).map .vldV1Reg
  | 0x0B => (FmtC0.ofWord w).map .vstV0 <|>
      (FmtC0R.ofWord w).map .vstV0Reg
  | 0x0C => (FmtC0.ofWord w).map .vstV1 <|>
      (FmtC0R.ofWord w).map .vstV1Reg
  | 0x0D => (FmtC0R.ofWord w).map .vgthV0
  | 0x0E => (FmtC0R.ofWord w).map .vgthV1
  | 0x0F => (FmtC0R.ofWord w).map .vsctV0
  | 0x10 => (FmtC0R.ofWord w).map .vsctV1
  | 0x11 => (FmtC0Q.ofWord w).map .qpushV0
  | 0x12 => (FmtC0Q.ofWord w).map .qpushV1
  | 0x13 => (FmtC0Q.ofWord w).map .qpopV0
  | 0x14 => (FmtC0Q.ofWord w).map .qpopV1
  | 0x15 => (FmtC0.ofWord w).map .spadd <|>
      (FmtC0R.ofWord w).map .spaddReg
  | 0x16 => (FmtC0.ofWord w).map .spmax <|>
      (FmtC0R.ofWord w).map .spmaxReg
  | 0x17 => (FmtC0.ofWord w).map .spswp <|>
      (FmtC0R.ofWord w).map .spswpReg
  | _ => none

/-- The opcode map of slot class c1 (R99 to R105). -/
def decodeC1 (op : Nat) (w : W) : Option Instr :=
  match op with
  | 0x00 => if w = 0#32 then some .nop else none
  | 0x01 => (FmtGA.ofWord w).map .cpyld
  | 0x02 => (FmtD.ofWord w).map .cpygo
  | 0x03 => (FmtD.ofWord w).map .cpystat
  | 0x08 => (FmtDAB.ofWord 0#3 w).map .vbcpySs <|>
      (FmtDAB.ofWord 1#3 w).map .vbcpyBs <|>
      (FmtDAB.ofWord 2#3 w).map .vbcpySb
  | 0x09 => (FmtDA.ofWord 0#3 w).map .wbzero
  | 0x0A => (FmtDAB.ofWord 0#3 w).map .wbcopy
  | 0x0B => (FmtDAB.ofWord 0#3 w).map .wbcmp
  | 0x0C => (FmtD.ofWord w).map .wbfence
  | 0x0D => (FmtDA.ofWord 0#3 w).map .lupd
  | 0x0E => (FmtDA.ofWord 0#3 w).map .wbtag
  | 0x10 => (FmtDA.ofWord 0#3 w).map .tload
  | 0x11 => (FmtDA.ofWord 0#3 w).map .tstore
  | 0x12 => (FmtDA.ofWord 0#3 w).map .tloadz
  | 0x13 => (FmtDA.ofWord 0#3 w).map .gacq <|>
      (FmtDA.ofWord 1#3 w).map .gacqX <|>
      (FmtDA.ofWord 2#3 w).map .gacqS
  | 0x14 => (FmtDAB.ofWord 0#3 w).map .grel <|>
      (FmtDAB.ofWord 1#3 w).map .grelX <|>
      (FmtDAB.ofWord 2#3 w).map .grelS
  | 0x15 => (FmtDA.ofWord 0#3 w).map .fadd <|>
      (FmtDA.ofWord 1#3 w).map .fcas <|>
      (FmtDA.ofWord 2#3 w).map .fswap
  | 0x16 => (FmtDA.ofWord 0#3 w).map .nmsadd <|>
      (FmtDA.ofWord 1#3 w).map .nmsgd <|>
      (FmtDA.ofWord 2#3 w).map .nmzero <|>
      (FmtDA.ofWord 3#3 w).map .nmcopy <|>
      (FmtDA.ofWord 4#3 w).map .nmcmp
  | 0x17 => (FmtDA.ofWord 0#3 w).map .nmfence
  | 0x18 => (FmtDA.ofWord 0#3 w).map .bkalloc <|>
      (FmtDA.ofWord 1#3 w).map .bkxlat <|>
      (FmtDA.ofWord 2#3 w).map .bkshare <|>
      (FmtDA.ofWord 3#3 w).map .bkfree
  | 0x19 => (FmtDA.ofWord 0#3 w).map .bkload
  | 0x1A => (FmtDA.ofWord 0#3 w).map .bkstore
  | 0x1B => (FmtD.ofWord w).map .fstat
  | 0x20 => (FmtDA.ofWord 0#3 w).map .collAr <|>
      (FmtDA.ofWord 1#3 w).map .collRs <|>
      (FmtDA.ofWord 2#3 w).map .collAg <|>
      (FmtDA.ofWord 3#3 w).map .collBc
  | 0x21 => (FmtDA.ofWord 0#3 w).map .ccancel
  | 0x22 => (FmtD.ofWord w).map .cstat
  | 0x30 => (FmtDAB.ofWord 0#3 w).map .cpld
  | _ => none

/-- The opcode map of slot class x (R99 to R105). -/
def decodeX (op : Nat) (w : W) : Option Instr :=
  match op with
  | 0x00 => if w = 0#32 then some .nop else none
  | 0x01 => (FmtX.ofWord w).map .xsend
  | 0x02 => (FmtX.ofWord w).map .xrecv
  | 0x03 => (FmtXFwd.ofWord w).map .xfwd
  | 0x04 => (FmtX.ofWord w).map .fsend
  | 0x05 => (FmtX.ofWord w).map .frecv
  | _ => none

/-- One slot word under its opcode map, before the operand limits are checked. -/
def decodeRaw (om : OpMap) (w : W) : Option Instr :=
  let op := (w.extractLsb' 26 6).toNat
  match om with
  | .s => decodeS op w
  | .v => decodeV op w
  | .m => decodeM op w
  | .c0 => decodeC0 op w
  | .c1 => decodeC1 op w
  | .x => decodeX op w
  | .b => decodeB op w

/-- One slot word: the instruction it stands for, or ILLEGAL_SLOT (R106). -/
def decodeSlot (om : OpMap) (w : W) : Except DecodeReject Instr :=
  match decodeRaw om w with
  | some i => if i.wf then .ok i else .error .illegalSlot
  | none => .error .illegalSlot

/-- The slot word of an instruction; none for an event, which has no encoding. -/
def encode : Instr → Option W
  | .nop => some 0#32
  | .iadd f => some (f.toWord 0x01#6)
  | .isub f => some (f.toWord 0x02#6)
  | .imul f => some (f.toWord 0x03#6)
  | .imulh f => some (f.toWord 0x04#6)
  | .imulhu f => some (f.toWord 0x05#6)
  | .and f => some (f.toWord 0x06#6)
  | .or f => some (f.toWord 0x07#6)
  | .xor f => some (f.toWord 0x08#6)
  | .andn f => some (f.toWord 0x09#6)
  | .shl f => some (f.toWord 0x0A#6)
  | .shr f => some (f.toWord 0x0B#6)
  | .sra f => some (f.toWord 0x0C#6)
  | .rotl f => some (f.toWord 0x0D#6)
  | .min f => some (f.toWord 0x0E#6)
  | .max f => some (f.toWord 0x0F#6)
  | .minu f => some (f.toWord 0x10#6)
  | .maxu f => some (f.toWord 0x11#6)
  | .shadd1 f => some (f.toWord 0x12#6)
  | .shadd2 f => some (f.toWord 0x13#6)
  | .shadd3 f => some (f.toWord 0x14#6)
  | .clz f => some (f.toWord 0x15#6)
  | .popc f => some (f.toWord 0x16#6)
  | .mov f => some (f.toWord 0x17#6)
  | .sel f => some (f.toWord 0x18#6)
  | .iadds f => some (f.toWord 0x19#6)
  | .isubs f => some (f.toWord 0x1A#6)
  | .cmpeq f => some (f.toWord 0x20#6)
  | .cmpne f => some (f.toWord 0x21#6)
  | .cmplt f => some (f.toWord 0x22#6)
  | .cmple f => some (f.toWord 0x23#6)
  | .cmpltu f => some (f.toWord 0x24#6)
  | .cmpleu f => some (f.toWord 0x25#6)
  | .cmpbit f => some (f.toWord 0x26#6)
  | .mfc f => some (f.toWord 0x28#6)
  | .mtc f => some (f.toWord 0x29#6)
  | .mfp f => some (f.toWord 0x2A#6)
  | .mtp f => some (f.toWord 0x2B#6)
  | .mfb f => some (f.toWord 0x2C#6)
  | .mtb f => some (f.toWord 0x2D#6)
  | .mfq f => some (f.toWord 0x2E#6)
  | .mtq f => some (f.toWord 0x2F#6)
  | .mftask f => some (f.toWord 0x30#6)
  | .mttask f => some (f.toWord 0x31#6)
  | .trapi f => some (f.toWord 0x32#6)
  | .rft => some 0xCC000000#32
  | .br f => some (f.toWord 0x01#6)
  | .call f => some (f.toWord 0x02#6)
  | .bri f => some (f.toWord 0x03#6)
  | .calli f => some (f.toWord 0x04#6)
  | .ret f => some (f.toWord 0x05#6)
  | .loop f => some (f.toWord 0x06#6)
  | .linc f => some (f.toWord 0x07#6)
  | .lexit f => some (f.toWord 0x08#6)
  | .rot f => some (f.toWord 0x09#6)
  | .barr f => some (f.toWord 0x0A#6)
  | .bwait f => some (f.toWord 0x0B#6)
  | .bsync f => some (f.toWord 0x0C#6)
  | .phase f => some (f.toWord 0x0D#6)
  | .phaseRg f => some (f.toWord 0x0D#6)
  | .halt f => some (f.toWord 0x0E#6)
  | .vaddF32 f => some (f.toWord 0x01#6 0#1)
  | .vaddF16 f => some (f.toWord 0x02#6 0#1)
  | .vaddBf16 f => some (f.toWord 0x02#6 1#1)
  | .vsubF32 f => some (f.toWord 0x03#6 0#1)
  | .vsubF16 f => some (f.toWord 0x04#6 0#1)
  | .vsubBf16 f => some (f.toWord 0x04#6 1#1)
  | .vmulF32 f => some (f.toWord 0x05#6 0#1)
  | .vmulF16 f => some (f.toWord 0x06#6 0#1)
  | .vmulBf16 f => some (f.toWord 0x06#6 1#1)
  | .vfmaF32 f => some (f.toWord 0x07#6 0#1)
  | .vfmaF16 f => some (f.toWord 0x08#6 0#1)
  | .vfmaBf16 f => some (f.toWord 0x08#6 1#1)
  | .vminF32 f => some (f.toWord 0x09#6 0#1)
  | .vminF16 f => some (f.toWord 0x0A#6 0#1)
  | .vminBf16 f => some (f.toWord 0x0A#6 1#1)
  | .vmaxF32 f => some (f.toWord 0x0B#6 0#1)
  | .vmaxF16 f => some (f.toWord 0x0C#6 0#1)
  | .vmaxBf16 f => some (f.toWord 0x0C#6 1#1)
  | .viaddI32 f => some (f.toWord 0x0D#6)
  | .viaddI16 f => some (f.toWord 0x0E#6)
  | .viaddI8 f => some (f.toWord 0x0F#6)
  | .visubI32 f => some (f.toWord 0x10#6)
  | .visubI16 f => some (f.toWord 0x11#6)
  | .visubI8 f => some (f.toWord 0x12#6)
  | .vimulI32 f => some (f.toWord 0x13#6)
  | .vimulI16 f => some (f.toWord 0x14#6)
  | .vimulI8 f => some (f.toWord 0x15#6)
  | .viminI32 f => some (f.toWord 0x16#6 0#1)
  | .viminI16 f => some (f.toWord 0x17#6 0#1)
  | .viminI8 f => some (f.toWord 0x18#6 0#1)
  | .vimaxI32 f => some (f.toWord 0x19#6 0#1)
  | .vimaxI16 f => some (f.toWord 0x1A#6 0#1)
  | .vimaxI8 f => some (f.toWord 0x1B#6 0#1)
  | .vand f => some (f.toWord 0x1C#6 0#1)
  | .vor f => some (f.toWord 0x1D#6 0#1)
  | .vxor f => some (f.toWord 0x1E#6 0#1)
  | .vandn f => some (f.toWord 0x1F#6 0#1)
  | .vshl f => some (f.toWord 0x20#6 0#1)
  | .vshr f => some (f.toWord 0x21#6 0#1)
  | .vsra f => some (f.toWord 0x22#6 0#1)
  | .vsel f => some (f.toWord 0x23#6)
  | .vperm f => some (f.toWord 0x24#6 0#1)
  | .vbcst f => some (f.toWord 0x25#6 0#1)
  | .vredAddF32 f => some (f.toWord 0x26#6 0#6)
  | .vredMaxF32 f => some (f.toWord 0x26#6 1#6)
  | .vredMinF32 f => some (f.toWord 0x26#6 2#6)
  | .vredAddI32 f => some (f.toWord 0x26#6 3#6)
  | .vredMaxI32 f => some (f.toWord 0x26#6 4#6)
  | .vredMinI32 f => some (f.toWord 0x26#6 5#6)
  | .vexp2 f => some (f.toWord 0x27#6 0#6)
  | .vlog2 f => some (f.toWord 0x27#6 1#6)
  | .vrcp f => some (f.toWord 0x27#6 2#6)
  | .vrsq f => some (f.toWord 0x27#6 3#6)
  | .vflg f => some (f.toWord 0x28#6)
  | .vmov f => some (f.toWord 0x29#6 0#6)
  | .vcvt f => some (f.toWord 0x2A#6)
  | .vcvts f => some (f.toWord 0x2B#6)
  | .vbmax f => some (f.toWord 0x2C#6)
  | .vbcvt f => some (f.toWord 0x2D#6)
  | .vqdual f => some (f.toWord 0x2E#6)
  | .vdq f => some (f.toWord 0x2F#6)
  | .vstr f => some (f.toWord 0x30#6)
  | .vstw f => some (f.toWord 0x31#6)
  | .vfcmpeq f => some (f.toWord 0x32#6)
  | .vfcmpne f => some (f.toWord 0x33#6)
  | .vfcmplt f => some (f.toWord 0x34#6)
  | .vfcmple f => some (f.toWord 0x35#6)
  | .vfcmpun f => some (f.toWord 0x36#6)
  | .vicmpeq f => some (f.toWord 0x37#6)
  | .vicmpne f => some (f.toWord 0x38#6)
  | .vicmplt f => some (f.toWord 0x39#6)
  | .vicmple f => some (f.toWord 0x3A#6)
  | .vicmpltu f => some (f.toWord 0x3B#6)
  | .vicmpleu f => some (f.toWord 0x3C#6)
  | .mldw f => some (f.toWord 0x01#6)
  | .mldwb f => some (f.toWord 0x02#6)
  | .mswap f => some (f.toWord 0x03#6)
  | .mstream f => some (f.toWord 0x04#6)
  | .mstreamb f => some (f.toWord 0x05#6)
  | .mclr f => some (f.toWord 0x06#6)
  | .msetp f => some (f.toWord 0x07#6)
  | .mdrain f => some (f.toWord 0x08#6)
  | .mflg f => some (f.toWord 0x09#6)
  | .mclrf f => some (f.toWord 0x0A#6)
  | .ldw f => some (f.toWord 0x01#6)
  | .ldwReg f => some (f.toWord 0x01#6)
  | .ldh f => some (f.toWord 0x02#6)
  | .ldhReg f => some (f.toWord 0x02#6)
  | .ldhu f => some (f.toWord 0x03#6)
  | .ldhuReg f => some (f.toWord 0x03#6)
  | .ldb f => some (f.toWord 0x04#6)
  | .ldbReg f => some (f.toWord 0x04#6)
  | .ldbu f => some (f.toWord 0x05#6)
  | .ldbuReg f => some (f.toWord 0x05#6)
  | .stw f => some (f.toWord 0x06#6)
  | .stwReg f => some (f.toWord 0x06#6)
  | .sth f => some (f.toWord 0x07#6)
  | .sthReg f => some (f.toWord 0x07#6)
  | .stb f => some (f.toWord 0x08#6)
  | .stbReg f => some (f.toWord 0x08#6)
  | .vldV0 f => some (f.toWord 0x09#6)
  | .vldV0Reg f => some (f.toWord 0x09#6)
  | .vldV1 f => some (f.toWord 0x0A#6)
  | .vldV1Reg f => some (f.toWord 0x0A#6)
  | .vstV0 f => some (f.toWord 0x0B#6)
  | .vstV0Reg f => some (f.toWord 0x0B#6)
  | .vstV1 f => some (f.toWord 0x0C#6)
  | .vstV1Reg f => some (f.toWord 0x0C#6)
  | .vgthV0 f => some (f.toWord 0x0D#6)
  | .vgthV1 f => some (f.toWord 0x0E#6)
  | .vsctV0 f => some (f.toWord 0x0F#6)
  | .vsctV1 f => some (f.toWord 0x10#6)
  | .qpushV0 f => some (f.toWord 0x11#6)
  | .qpushV1 f => some (f.toWord 0x12#6)
  | .qpopV0 f => some (f.toWord 0x13#6)
  | .qpopV1 f => some (f.toWord 0x14#6)
  | .spadd f => some (f.toWord 0x15#6)
  | .spaddReg f => some (f.toWord 0x15#6)
  | .spmax f => some (f.toWord 0x16#6)
  | .spmaxReg f => some (f.toWord 0x16#6)
  | .spswp f => some (f.toWord 0x17#6)
  | .spswpReg f => some (f.toWord 0x17#6)
  | .cpyld f => some (f.toWord 0x01#6)
  | .cpygo f => some (f.toWord 0x02#6)
  | .cpystat f => some (f.toWord 0x03#6)
  | .vbcpySs f => some (f.toWord 0x08#6 0#3)
  | .vbcpyBs f => some (f.toWord 0x08#6 1#3)
  | .vbcpySb f => some (f.toWord 0x08#6 2#3)
  | .wbzero f => some (f.toWord 0x09#6 0#3)
  | .wbcopy f => some (f.toWord 0x0A#6 0#3)
  | .wbcmp f => some (f.toWord 0x0B#6 0#3)
  | .wbfence f => some (f.toWord 0x0C#6)
  | .lupd f => some (f.toWord 0x0D#6 0#3)
  | .wbtag f => some (f.toWord 0x0E#6 0#3)
  | .tload f => some (f.toWord 0x10#6 0#3)
  | .tstore f => some (f.toWord 0x11#6 0#3)
  | .tloadz f => some (f.toWord 0x12#6 0#3)
  | .gacq f => some (f.toWord 0x13#6 0#3)
  | .gacqX f => some (f.toWord 0x13#6 1#3)
  | .gacqS f => some (f.toWord 0x13#6 2#3)
  | .grel f => some (f.toWord 0x14#6 0#3)
  | .grelX f => some (f.toWord 0x14#6 1#3)
  | .grelS f => some (f.toWord 0x14#6 2#3)
  | .fadd f => some (f.toWord 0x15#6 0#3)
  | .fcas f => some (f.toWord 0x15#6 1#3)
  | .fswap f => some (f.toWord 0x15#6 2#3)
  | .nmsadd f => some (f.toWord 0x16#6 0#3)
  | .nmsgd f => some (f.toWord 0x16#6 1#3)
  | .nmzero f => some (f.toWord 0x16#6 2#3)
  | .nmcopy f => some (f.toWord 0x16#6 3#3)
  | .nmcmp f => some (f.toWord 0x16#6 4#3)
  | .nmfence f => some (f.toWord 0x17#6 0#3)
  | .bkalloc f => some (f.toWord 0x18#6 0#3)
  | .bkxlat f => some (f.toWord 0x18#6 1#3)
  | .bkshare f => some (f.toWord 0x18#6 2#3)
  | .bkfree f => some (f.toWord 0x18#6 3#3)
  | .bkload f => some (f.toWord 0x19#6 0#3)
  | .bkstore f => some (f.toWord 0x1A#6 0#3)
  | .fstat f => some (f.toWord 0x1B#6)
  | .collAr f => some (f.toWord 0x20#6 0#3)
  | .collRs f => some (f.toWord 0x20#6 1#3)
  | .collAg f => some (f.toWord 0x20#6 2#3)
  | .collBc f => some (f.toWord 0x20#6 3#3)
  | .ccancel f => some (f.toWord 0x21#6 0#3)
  | .cstat f => some (f.toWord 0x22#6)
  | .cpld f => some (f.toWord 0x30#6 0#3)
  | .xsend f => some (f.toWord 0x01#6)
  | .xrecv f => some (f.toWord 0x02#6)
  | .xfwd f => some (f.toWord 0x03#6)
  | .fsend f => some (f.toWord 0x04#6)
  | .frecv f => some (f.toWord 0x05#6)
  | .resultVisible => none
  | .c0WriteApplied => none
  | .vbcvtLateRead => none
  | .rollback => none
  | .serviceHandlerEntry => none
  | .bank0Resume => none
  | .checkpointCommit => none
  | .dataError => none
  | .rerunCompare => none
  | .loopBack => none
  | .arrivalPropagate => none
  | .barrierComplete => none
  | .streamVectorBegin => none
  | .lineSumAdd => none
  | .streamRetire => none
  | .planeRowWrite => none
  | .planeLoadComplete => none
  | .tileOpComplete => none
  | .drainRowWrite => none
  | .drainComplete => none
  | .busBeat => none
  | .busCopyRequest => none
  | .copyStart => none
  | .copyBeat => none
  | .copyComplete => none
  | .copyRestart => none
  | .multicastLand => none
  | .vbSlotsTakeEffect => none
  | .cpldComplete => none
  | .tvmapUpdate => none
  | .bankOpStart => none
  | .lupdGradientBeat => none
  | .lupdRowUpdate => none
  | .bankOpEnd => none
  | .wbfenceRelease => none
  | .busWireFailure => none
  | .busWireRepairStart => none
  | .busWireRepairEnd => none
  | .phaseArrival => none
  | .boundaryComplete => none
  | .phaseCounterAdvance => none
  | .superstepStart => none
  | .emptyBoundary => none
  | .stragglerDeadline => none
  | .stragglerStopComplete => none
  | .meshFlitDepart => none
  | .meshFlitArrive => none
  | .farRequestSend => none
  | .tileTransferComplete => none
  | .taggedStoreAtGuard => none
  | .gacqAtGuard => none
  | .grelAtGuard => none
  | .atomicAtMemory => none
  | .dupCopyAck => none
  | .nmCommandAtNmu => none
  | .nmLineStep => none
  | .nmCommandComplete => none
  | .nmfenceComplete => none
  | .brambleDirectoryOp => none
  | .brambleComplete => none
  | .blockReturnToPool => none
  | .tloadzComplete => none
  | .segmentMoveComplete => none
  | .deviceCheckpointStart => none
  | .deviceCheckpointCommit => none
  | .registerWrite => none
  | .ownClaim => none
  | .ownBeat => none
  | .denyClear => none
  | .ownerLeaseExpiry => none
  | .handoverWindowExpiry => none
  | .submit => none
  | .preempt => none
  | .resume => none
  | .discard => none
  | .hgacq => none
  | .hgrel => none
  | .gfree => none
  | .logread => none
  | .ckpt => none
  | .restore => none
  | .bkpool => none
  | .handover => none
  | .attest => none
  | .unknownCommand => none
  | .powerOnReset => none
  | .packageReset => none
  | .bootComplete => none
  | .firmwareWrite => none
  | .thermalThrottle => none
  | .thermalTrip => none
  | .podBoot => none
  | .linkFlitDelivery => none
  | .linkDown => none
  | .linkTraining => none
  | .fabricFlitDepart => none
  | .fabricFlitArrive => none
  | .creditReturn => none
  | .remoteMemoryHop => none
  | .channelMessageReceive => none
  | .channelRetransmit => none
  | .collRequestAtPrimary => none
  | .grantReceived => none
  | .collectiveStart => none
  | .collectiveComplete => none
  | .cancelAtPrimary => none
  | .voidCollectiveComplete => none
  | .heartbeat => none
  | .failover => none
  | .collectRequest => none
  | .numberingResume => none

/-- The opcode map an instruction stands in; none for NOP, which stands in every map, and for events. -/
def opMap : Instr → Option OpMap
  | .nop => none
  | .iadd _ => some .s
  | .isub _ => some .s
  | .imul _ => some .s
  | .imulh _ => some .s
  | .imulhu _ => some .s
  | .and _ => some .s
  | .or _ => some .s
  | .xor _ => some .s
  | .andn _ => some .s
  | .shl _ => some .s
  | .shr _ => some .s
  | .sra _ => some .s
  | .rotl _ => some .s
  | .min _ => some .s
  | .max _ => some .s
  | .minu _ => some .s
  | .maxu _ => some .s
  | .shadd1 _ => some .s
  | .shadd2 _ => some .s
  | .shadd3 _ => some .s
  | .clz _ => some .s
  | .popc _ => some .s
  | .mov _ => some .s
  | .sel _ => some .s
  | .iadds _ => some .s
  | .isubs _ => some .s
  | .cmpeq _ => some .s
  | .cmpne _ => some .s
  | .cmplt _ => some .s
  | .cmple _ => some .s
  | .cmpltu _ => some .s
  | .cmpleu _ => some .s
  | .cmpbit _ => some .s
  | .mfc _ => some .s
  | .mtc _ => some .s
  | .mfp _ => some .s
  | .mtp _ => some .s
  | .mfb _ => some .s
  | .mtb _ => some .s
  | .mfq _ => some .s
  | .mtq _ => some .s
  | .mftask _ => some .s
  | .mttask _ => some .s
  | .trapi _ => some .s
  | .rft => some .s
  | .br _ => some .b
  | .call _ => some .b
  | .bri _ => some .b
  | .calli _ => some .b
  | .ret _ => some .b
  | .loop _ => some .b
  | .linc _ => some .b
  | .lexit _ => some .b
  | .rot _ => some .b
  | .barr _ => some .b
  | .bwait _ => some .b
  | .bsync _ => some .b
  | .phase _ => some .b
  | .phaseRg _ => some .b
  | .halt _ => some .b
  | .vaddF32 _ => some .v
  | .vaddF16 _ => some .v
  | .vaddBf16 _ => some .v
  | .vsubF32 _ => some .v
  | .vsubF16 _ => some .v
  | .vsubBf16 _ => some .v
  | .vmulF32 _ => some .v
  | .vmulF16 _ => some .v
  | .vmulBf16 _ => some .v
  | .vfmaF32 _ => some .v
  | .vfmaF16 _ => some .v
  | .vfmaBf16 _ => some .v
  | .vminF32 _ => some .v
  | .vminF16 _ => some .v
  | .vminBf16 _ => some .v
  | .vmaxF32 _ => some .v
  | .vmaxF16 _ => some .v
  | .vmaxBf16 _ => some .v
  | .viaddI32 _ => some .v
  | .viaddI16 _ => some .v
  | .viaddI8 _ => some .v
  | .visubI32 _ => some .v
  | .visubI16 _ => some .v
  | .visubI8 _ => some .v
  | .vimulI32 _ => some .v
  | .vimulI16 _ => some .v
  | .vimulI8 _ => some .v
  | .viminI32 _ => some .v
  | .viminI16 _ => some .v
  | .viminI8 _ => some .v
  | .vimaxI32 _ => some .v
  | .vimaxI16 _ => some .v
  | .vimaxI8 _ => some .v
  | .vand _ => some .v
  | .vor _ => some .v
  | .vxor _ => some .v
  | .vandn _ => some .v
  | .vshl _ => some .v
  | .vshr _ => some .v
  | .vsra _ => some .v
  | .vsel _ => some .v
  | .vperm _ => some .v
  | .vbcst _ => some .v
  | .vredAddF32 _ => some .v
  | .vredMaxF32 _ => some .v
  | .vredMinF32 _ => some .v
  | .vredAddI32 _ => some .v
  | .vredMaxI32 _ => some .v
  | .vredMinI32 _ => some .v
  | .vexp2 _ => some .v
  | .vlog2 _ => some .v
  | .vrcp _ => some .v
  | .vrsq _ => some .v
  | .vflg _ => some .v
  | .vmov _ => some .v
  | .vcvt _ => some .v
  | .vcvts _ => some .v
  | .vbmax _ => some .v
  | .vbcvt _ => some .v
  | .vqdual _ => some .v
  | .vdq _ => some .v
  | .vstr _ => some .v
  | .vstw _ => some .v
  | .vfcmpeq _ => some .v
  | .vfcmpne _ => some .v
  | .vfcmplt _ => some .v
  | .vfcmple _ => some .v
  | .vfcmpun _ => some .v
  | .vicmpeq _ => some .v
  | .vicmpne _ => some .v
  | .vicmplt _ => some .v
  | .vicmple _ => some .v
  | .vicmpltu _ => some .v
  | .vicmpleu _ => some .v
  | .mldw _ => some .m
  | .mldwb _ => some .m
  | .mswap _ => some .m
  | .mstream _ => some .m
  | .mstreamb _ => some .m
  | .mclr _ => some .m
  | .msetp _ => some .m
  | .mdrain _ => some .m
  | .mflg _ => some .m
  | .mclrf _ => some .m
  | .ldw _ => some .c0
  | .ldwReg _ => some .c0
  | .ldh _ => some .c0
  | .ldhReg _ => some .c0
  | .ldhu _ => some .c0
  | .ldhuReg _ => some .c0
  | .ldb _ => some .c0
  | .ldbReg _ => some .c0
  | .ldbu _ => some .c0
  | .ldbuReg _ => some .c0
  | .stw _ => some .c0
  | .stwReg _ => some .c0
  | .sth _ => some .c0
  | .sthReg _ => some .c0
  | .stb _ => some .c0
  | .stbReg _ => some .c0
  | .vldV0 _ => some .c0
  | .vldV0Reg _ => some .c0
  | .vldV1 _ => some .c0
  | .vldV1Reg _ => some .c0
  | .vstV0 _ => some .c0
  | .vstV0Reg _ => some .c0
  | .vstV1 _ => some .c0
  | .vstV1Reg _ => some .c0
  | .vgthV0 _ => some .c0
  | .vgthV1 _ => some .c0
  | .vsctV0 _ => some .c0
  | .vsctV1 _ => some .c0
  | .qpushV0 _ => some .c0
  | .qpushV1 _ => some .c0
  | .qpopV0 _ => some .c0
  | .qpopV1 _ => some .c0
  | .spadd _ => some .c0
  | .spaddReg _ => some .c0
  | .spmax _ => some .c0
  | .spmaxReg _ => some .c0
  | .spswp _ => some .c0
  | .spswpReg _ => some .c0
  | .cpyld _ => some .c1
  | .cpygo _ => some .c1
  | .cpystat _ => some .c1
  | .vbcpySs _ => some .c1
  | .vbcpyBs _ => some .c1
  | .vbcpySb _ => some .c1
  | .wbzero _ => some .c1
  | .wbcopy _ => some .c1
  | .wbcmp _ => some .c1
  | .wbfence _ => some .c1
  | .lupd _ => some .c1
  | .wbtag _ => some .c1
  | .tload _ => some .c1
  | .tstore _ => some .c1
  | .tloadz _ => some .c1
  | .gacq _ => some .c1
  | .gacqX _ => some .c1
  | .gacqS _ => some .c1
  | .grel _ => some .c1
  | .grelX _ => some .c1
  | .grelS _ => some .c1
  | .fadd _ => some .c1
  | .fcas _ => some .c1
  | .fswap _ => some .c1
  | .nmsadd _ => some .c1
  | .nmsgd _ => some .c1
  | .nmzero _ => some .c1
  | .nmcopy _ => some .c1
  | .nmcmp _ => some .c1
  | .nmfence _ => some .c1
  | .bkalloc _ => some .c1
  | .bkxlat _ => some .c1
  | .bkshare _ => some .c1
  | .bkfree _ => some .c1
  | .bkload _ => some .c1
  | .bkstore _ => some .c1
  | .fstat _ => some .c1
  | .collAr _ => some .c1
  | .collRs _ => some .c1
  | .collAg _ => some .c1
  | .collBc _ => some .c1
  | .ccancel _ => some .c1
  | .cstat _ => some .c1
  | .cpld _ => some .c1
  | .xsend _ => some .x
  | .xrecv _ => some .x
  | .xfwd _ => some .x
  | .fsend _ => some .x
  | .frecv _ => some .x
  | .resultVisible => none
  | .c0WriteApplied => none
  | .vbcvtLateRead => none
  | .rollback => none
  | .serviceHandlerEntry => none
  | .bank0Resume => none
  | .checkpointCommit => none
  | .dataError => none
  | .rerunCompare => none
  | .loopBack => none
  | .arrivalPropagate => none
  | .barrierComplete => none
  | .streamVectorBegin => none
  | .lineSumAdd => none
  | .streamRetire => none
  | .planeRowWrite => none
  | .planeLoadComplete => none
  | .tileOpComplete => none
  | .drainRowWrite => none
  | .drainComplete => none
  | .busBeat => none
  | .busCopyRequest => none
  | .copyStart => none
  | .copyBeat => none
  | .copyComplete => none
  | .copyRestart => none
  | .multicastLand => none
  | .vbSlotsTakeEffect => none
  | .cpldComplete => none
  | .tvmapUpdate => none
  | .bankOpStart => none
  | .lupdGradientBeat => none
  | .lupdRowUpdate => none
  | .bankOpEnd => none
  | .wbfenceRelease => none
  | .busWireFailure => none
  | .busWireRepairStart => none
  | .busWireRepairEnd => none
  | .phaseArrival => none
  | .boundaryComplete => none
  | .phaseCounterAdvance => none
  | .superstepStart => none
  | .emptyBoundary => none
  | .stragglerDeadline => none
  | .stragglerStopComplete => none
  | .meshFlitDepart => none
  | .meshFlitArrive => none
  | .farRequestSend => none
  | .tileTransferComplete => none
  | .taggedStoreAtGuard => none
  | .gacqAtGuard => none
  | .grelAtGuard => none
  | .atomicAtMemory => none
  | .dupCopyAck => none
  | .nmCommandAtNmu => none
  | .nmLineStep => none
  | .nmCommandComplete => none
  | .nmfenceComplete => none
  | .brambleDirectoryOp => none
  | .brambleComplete => none
  | .blockReturnToPool => none
  | .tloadzComplete => none
  | .segmentMoveComplete => none
  | .deviceCheckpointStart => none
  | .deviceCheckpointCommit => none
  | .registerWrite => none
  | .ownClaim => none
  | .ownBeat => none
  | .denyClear => none
  | .ownerLeaseExpiry => none
  | .handoverWindowExpiry => none
  | .submit => none
  | .preempt => none
  | .resume => none
  | .discard => none
  | .hgacq => none
  | .hgrel => none
  | .gfree => none
  | .logread => none
  | .ckpt => none
  | .restore => none
  | .bkpool => none
  | .handover => none
  | .attest => none
  | .unknownCommand => none
  | .powerOnReset => none
  | .packageReset => none
  | .bootComplete => none
  | .firmwareWrite => none
  | .thermalThrottle => none
  | .thermalTrip => none
  | .podBoot => none
  | .linkFlitDelivery => none
  | .linkDown => none
  | .linkTraining => none
  | .fabricFlitDepart => none
  | .fabricFlitArrive => none
  | .creditReturn => none
  | .remoteMemoryHop => none
  | .channelMessageReceive => none
  | .channelRetransmit => none
  | .collRequestAtPrimary => none
  | .grantReceived => none
  | .collectiveStart => none
  | .collectiveComplete => none
  | .cancelAtPrimary => none
  | .voidCollectiveComplete => none
  | .heartbeat => none
  | .failover => none
  | .collectRequest => none
  | .numberingResume => none

/-- Whether a register source field of the instruction holds code 62 (R84). -/
def readsLiteral : Instr → Bool
  | .nop => false
  | .iadd f => isLit f.a || (isLit f.b && !f.x)
  | .isub f => isLit f.a || (isLit f.b && !f.x)
  | .imul f => isLit f.a || (isLit f.b && !f.x)
  | .imulh f => isLit f.a || (isLit f.b && !f.x)
  | .imulhu f => isLit f.a || (isLit f.b && !f.x)
  | .and f => isLit f.a || (isLit f.b && !f.x)
  | .or f => isLit f.a || (isLit f.b && !f.x)
  | .xor f => isLit f.a || (isLit f.b && !f.x)
  | .andn f => isLit f.a || (isLit f.b && !f.x)
  | .shl f => isLit f.a || (isLit f.b && !f.x)
  | .shr f => isLit f.a || (isLit f.b && !f.x)
  | .sra f => isLit f.a || (isLit f.b && !f.x)
  | .rotl f => isLit f.a || (isLit f.b && !f.x)
  | .min f => isLit f.a || (isLit f.b && !f.x)
  | .max f => isLit f.a || (isLit f.b && !f.x)
  | .minu f => isLit f.a || (isLit f.b && !f.x)
  | .maxu f => isLit f.a || (isLit f.b && !f.x)
  | .shadd1 f => isLit f.a || (isLit f.b && !f.x)
  | .shadd2 f => isLit f.a || (isLit f.b && !f.x)
  | .shadd3 f => isLit f.a || (isLit f.b && !f.x)
  | .clz f => isLit f.a
  | .popc f => isLit f.a
  | .mov f => isLit f.a
  | .sel f => isLit f.a || (isLit f.b && !f.x)
  | .iadds f => isLit f.a || (isLit f.b && !f.x)
  | .isubs f => isLit f.a || (isLit f.b && !f.x)
  | .cmpeq f => isLit f.a || isLit f.b
  | .cmpne f => isLit f.a || isLit f.b
  | .cmplt f => isLit f.a || isLit f.b
  | .cmple f => isLit f.a || isLit f.b
  | .cmpltu f => isLit f.a || isLit f.b
  | .cmpleu f => isLit f.a || isLit f.b
  | .cmpbit f => isLit f.a || isLit f.b
  | .mfc _ => false
  | .mtc f => isLit f.a
  | .mfp _ => false
  | .mtp f => isLit f.a || (isLit f.b && !f.x)
  | .mfb _ => false
  | .mtb f => isLit f.a
  | .mfq _ => false
  | .mtq f => isLit f.a
  | .mftask _ => false
  | .mttask f => isLit f.a
  | .trapi _ => false
  | .rft => false
  | .br _ => false
  | .call _ => false
  | .bri f => isLit f.a
  | .calli f => isLit f.a
  | .ret _ => false
  | .loop f => isLit f.a
  | .linc _ => false
  | .lexit _ => false
  | .rot _ => false
  | .barr _ => false
  | .bwait _ => false
  | .bsync _ => false
  | .phase _ => false
  | .phaseRg f => isLit f.a
  | .halt _ => false
  | .vaddF32 f => isLit f.a || isLit f.b
  | .vaddF16 f => isLit f.a || isLit f.b
  | .vaddBf16 f => isLit f.a || isLit f.b
  | .vsubF32 f => isLit f.a || isLit f.b
  | .vsubF16 f => isLit f.a || isLit f.b
  | .vsubBf16 f => isLit f.a || isLit f.b
  | .vmulF32 f => isLit f.a || isLit f.b
  | .vmulF16 f => isLit f.a || isLit f.b
  | .vmulBf16 f => isLit f.a || isLit f.b
  | .vfmaF32 f => isLit f.a || isLit f.b || isLit f.d
  | .vfmaF16 f => isLit f.a || isLit f.b || isLit f.d
  | .vfmaBf16 f => isLit f.a || isLit f.b || isLit f.d
  | .vminF32 f => isLit f.a || isLit f.b
  | .vminF16 f => isLit f.a || isLit f.b
  | .vminBf16 f => isLit f.a || isLit f.b
  | .vmaxF32 f => isLit f.a || isLit f.b
  | .vmaxF16 f => isLit f.a || isLit f.b
  | .vmaxBf16 f => isLit f.a || isLit f.b
  | .viaddI32 f => isLit f.a || isLit f.b
  | .viaddI16 f => isLit f.a || isLit f.b
  | .viaddI8 f => isLit f.a || isLit f.b
  | .visubI32 f => isLit f.a || isLit f.b
  | .visubI16 f => isLit f.a || isLit f.b
  | .visubI8 f => isLit f.a || isLit f.b
  | .vimulI32 f => isLit f.a || isLit f.b
  | .vimulI16 f => isLit f.a || isLit f.b
  | .vimulI8 f => isLit f.a || isLit f.b
  | .viminI32 f => isLit f.a || isLit f.b
  | .viminI16 f => isLit f.a || isLit f.b
  | .viminI8 f => isLit f.a || isLit f.b
  | .vimaxI32 f => isLit f.a || isLit f.b
  | .vimaxI16 f => isLit f.a || isLit f.b
  | .vimaxI8 f => isLit f.a || isLit f.b
  | .vand f => isLit f.a || isLit f.b
  | .vor f => isLit f.a || isLit f.b
  | .vxor f => isLit f.a || isLit f.b
  | .vandn f => isLit f.a || isLit f.b
  | .vshl f => isLit f.a || isLit f.b
  | .vshr f => isLit f.a || isLit f.b
  | .vsra f => isLit f.a || isLit f.b
  | .vsel f => isLit f.a || isLit f.d
  | .vperm f => isLit f.a || isLit f.b
  | .vbcst f => isLit f.a || isLit f.b
  | .vredAddF32 f => isLit f.a
  | .vredMaxF32 f => isLit f.a
  | .vredMinF32 f => isLit f.a
  | .vredAddI32 f => isLit f.a
  | .vredMaxI32 f => isLit f.a
  | .vredMinI32 f => isLit f.a
  | .vexp2 f => isLit f.a
  | .vlog2 f => isLit f.a
  | .vrcp f => isLit f.a
  | .vrsq f => isLit f.a
  | .vflg _ => false
  | .vmov f => isLit f.a
  | .vcvt f => isLit f.a
  | .vcvts f => isLit f.a
  | .vbmax f => isLit f.a
  | .vbcvt f => isLit f.a || isLit f.b
  | .vqdual f => isLit f.a
  | .vdq f => isLit f.a || isLit f.b
  | .vstr _ => false
  | .vstw f => isLit f.v
  | .vfcmpeq f => isLit f.a || isLit f.b
  | .vfcmpne f => isLit f.a || isLit f.b
  | .vfcmplt f => isLit f.a || isLit f.b
  | .vfcmple f => isLit f.a || isLit f.b
  | .vfcmpun f => isLit f.a || isLit f.b
  | .vicmpeq f => isLit f.a || isLit f.b
  | .vicmpne f => isLit f.a || isLit f.b
  | .vicmplt f => isLit f.a || isLit f.b
  | .vicmple f => isLit f.a || isLit f.b
  | .vicmpltu f => isLit f.a || isLit f.b
  | .vicmpleu f => isLit f.a || isLit f.b
  | .mldw _ => false
  | .mldwb _ => false
  | .mswap _ => false
  | .mstream _ => false
  | .mstreamb _ => false
  | .mclr _ => false
  | .msetp _ => false
  | .mdrain _ => false
  | .mflg _ => false
  | .mclrf _ => false
  | .ldw _ => false
  | .ldwReg f => isLit f.a
  | .ldh _ => false
  | .ldhReg f => isLit f.a
  | .ldhu _ => false
  | .ldhuReg f => isLit f.a
  | .ldb _ => false
  | .ldbReg f => isLit f.a
  | .ldbu _ => false
  | .ldbuReg f => isLit f.a
  | .stw f => isLit f.d
  | .stwReg f => isLit f.a || isLit f.d
  | .sth f => isLit f.d
  | .sthReg f => isLit f.a || isLit f.d
  | .stb f => isLit f.d
  | .stbReg f => isLit f.a || isLit f.d
  | .vldV0 _ => false
  | .vldV0Reg f => isLit f.a
  | .vldV1 _ => false
  | .vldV1Reg f => isLit f.a
  | .vstV0 _ => false
  | .vstV0Reg f => isLit f.a
  | .vstV1 _ => false
  | .vstV1Reg f => isLit f.a
  | .vgthV0 _ => false
  | .vgthV1 _ => false
  | .vsctV0 _ => false
  | .vsctV1 _ => false
  | .qpushV0 _ => false
  | .qpushV1 _ => false
  | .qpopV0 _ => false
  | .qpopV1 _ => false
  | .spadd _ => false
  | .spaddReg f => isLit f.a
  | .spmax _ => false
  | .spmaxReg f => isLit f.a
  | .spswp _ => false
  | .spswpReg f => isLit f.a
  | .cpyld f => isLit f.a
  | .cpygo _ => false
  | .cpystat _ => false
  | .vbcpySs f => isLit f.a || isLit f.b
  | .vbcpyBs f => isLit f.a || isLit f.b
  | .vbcpySb f => isLit f.a || isLit f.b
  | .wbzero f => isLit f.a
  | .wbcopy f => isLit f.a || isLit f.b
  | .wbcmp f => isLit f.a || isLit f.b
  | .wbfence _ => false
  | .lupd f => isLit f.a
  | .wbtag f => isLit f.a
  | .tload f => isLit f.a
  | .tstore f => isLit f.a
  | .tloadz f => isLit f.a
  | .gacq f => isLit f.a
  | .gacqX f => isLit f.a
  | .gacqS f => isLit f.a
  | .grel f => isLit f.a || isLit f.b
  | .grelX f => isLit f.a || isLit f.b
  | .grelS f => isLit f.a || isLit f.b
  | .fadd f => isLit f.a
  | .fcas f => isLit f.a
  | .fswap f => isLit f.a
  | .nmsadd f => isLit f.a
  | .nmsgd f => isLit f.a
  | .nmzero f => isLit f.a
  | .nmcopy f => isLit f.a
  | .nmcmp f => isLit f.a
  | .nmfence f => isLit f.a
  | .bkalloc f => isLit f.a
  | .bkxlat f => isLit f.a
  | .bkshare f => isLit f.a
  | .bkfree f => isLit f.a
  | .bkload f => isLit f.a
  | .bkstore f => isLit f.a
  | .fstat _ => false
  | .collAr f => isLit f.a
  | .collRs f => isLit f.a
  | .collAg f => isLit f.a
  | .collBc f => isLit f.a
  | .ccancel f => isLit f.a
  | .cstat _ => false
  | .cpld f => isLit f.a || isLit f.b
  | .xsend f => isLit f.v
  | .xrecv _ => false
  | .xfwd _ => false
  | .fsend f => isLit f.v
  | .frecv _ => false
  | .resultVisible => false
  | .c0WriteApplied => false
  | .vbcvtLateRead => false
  | .rollback => false
  | .serviceHandlerEntry => false
  | .bank0Resume => false
  | .checkpointCommit => false
  | .dataError => false
  | .rerunCompare => false
  | .loopBack => false
  | .arrivalPropagate => false
  | .barrierComplete => false
  | .streamVectorBegin => false
  | .lineSumAdd => false
  | .streamRetire => false
  | .planeRowWrite => false
  | .planeLoadComplete => false
  | .tileOpComplete => false
  | .drainRowWrite => false
  | .drainComplete => false
  | .busBeat => false
  | .busCopyRequest => false
  | .copyStart => false
  | .copyBeat => false
  | .copyComplete => false
  | .copyRestart => false
  | .multicastLand => false
  | .vbSlotsTakeEffect => false
  | .cpldComplete => false
  | .tvmapUpdate => false
  | .bankOpStart => false
  | .lupdGradientBeat => false
  | .lupdRowUpdate => false
  | .bankOpEnd => false
  | .wbfenceRelease => false
  | .busWireFailure => false
  | .busWireRepairStart => false
  | .busWireRepairEnd => false
  | .phaseArrival => false
  | .boundaryComplete => false
  | .phaseCounterAdvance => false
  | .superstepStart => false
  | .emptyBoundary => false
  | .stragglerDeadline => false
  | .stragglerStopComplete => false
  | .meshFlitDepart => false
  | .meshFlitArrive => false
  | .farRequestSend => false
  | .tileTransferComplete => false
  | .taggedStoreAtGuard => false
  | .gacqAtGuard => false
  | .grelAtGuard => false
  | .atomicAtMemory => false
  | .dupCopyAck => false
  | .nmCommandAtNmu => false
  | .nmLineStep => false
  | .nmCommandComplete => false
  | .nmfenceComplete => false
  | .brambleDirectoryOp => false
  | .brambleComplete => false
  | .blockReturnToPool => false
  | .tloadzComplete => false
  | .segmentMoveComplete => false
  | .deviceCheckpointStart => false
  | .deviceCheckpointCommit => false
  | .registerWrite => false
  | .ownClaim => false
  | .ownBeat => false
  | .denyClear => false
  | .ownerLeaseExpiry => false
  | .handoverWindowExpiry => false
  | .submit => false
  | .preempt => false
  | .resume => false
  | .discard => false
  | .hgacq => false
  | .hgrel => false
  | .gfree => false
  | .logread => false
  | .ckpt => false
  | .restore => false
  | .bkpool => false
  | .handover => false
  | .attest => false
  | .unknownCommand => false
  | .powerOnReset => false
  | .packageReset => false
  | .bootComplete => false
  | .firmwareWrite => false
  | .thermalThrottle => false
  | .thermalTrip => false
  | .podBoot => false
  | .linkFlitDelivery => false
  | .linkDown => false
  | .linkTraining => false
  | .fabricFlitDepart => false
  | .fabricFlitArrive => false
  | .creditReturn => false
  | .remoteMemoryHop => false
  | .channelMessageReceive => false
  | .channelRetransmit => false
  | .collRequestAtPrimary => false
  | .grantReceived => false
  | .collectiveStart => false
  | .collectiveComplete => false
  | .cancelAtPrimary => false
  | .voidCollectiveComplete => false
  | .heartbeat => false
  | .failover => false
  | .collectRequest => false
  | .numberingResume => false

/-- The opcode map of a slot (R98). -/
def Slot.map : Slot → OpMap
  | .s => .s | .v0 => .v | .v1 => .v | .m => .m | .c0 => .c0 | .c1 => .c1 | .x => .x | .b => .b

/-- The number of a slot (R82). -/
def Slot.num : Slot → Nat
  | .s => 0 | .v0 => 1 | .v1 => 2 | .m => 3 | .c0 => 4 | .c1 => 5 | .x => 6 | .b => 7

/-- The slots in ascending order (R83). -/
def Slot.all : List Slot := [.s, .v0, .v1, .m, .c0, .c1, .x, .b]

/-- The header of a bundle (R82), its reserved bits aside. -/
structure Header where
  pres : BitVec 8
  lit : Bool
  ckp : Bool
  dwell : BitVec 4
  lcap : Bool
deriving DecidableEq, Repr

/-- The header word (R82). -/
def Header.toWord (h : Header) : W :=
  BitVec.ofNat 32 (packFields [(8, h.pres.toNat), (1, h.lit.toNat), (1, h.ckp.toNat), (4, h.dwell.toNat), (1, h.lcap.toNat), (17, 0)])

/-- The fields of a header word; its reserved bits are checked by `decodeBundle`. -/
def Header.ofWord (w : W) : Header :=
  { pres := w.extractLsb' 24 8, lit := w.getLsbD 23, ckp := w.getLsbD 22, dwell := w.extractLsb' 18 4,
    lcap := w.getLsbD 17 }

/-- The slots a header marks present, in ascending order (R83). -/
def Header.slots (h : Header) : List Slot := Slot.all.filter fun k => h.pres.getLsbD k.num

/-- The words of a bundle, its header included (R82). -/
def Header.words (h : Header) : Nat := 1 + h.slots.length + (if h.lit then 1 else 0)

/-- The bytes of a bundle (R82): 4 to 40. -/
def Header.size (h : Header) : Nat := 4 * h.words

/-- A decoded bundle. -/
structure Bundle where
  header : Header
  slots : List (Slot × Instr)
  literal : Option W
deriving DecidableEq, Repr

/-- The word of four bytes at the head of a list, little-endian (R5). -/
def takeWord : List Byte → Option (W × List Byte)
  | b0 :: b1 :: b2 :: b3 :: rest => some (BitVec.ofNat 32 (packFields [(8, b3.toNat), (8, b2.toNat), (8, b1.toNat), (8, b0.toNat)]), rest)
  | _ => none

/-- The first n words of a byte list. -/
def takeWords : Nat → List Byte → Option (List W × List Byte)
  | 0, bs => some ([], bs)
  | n + 1, bs =>
    match takeWord bs with
    | none => none
    | some (w, rest) => (takeWords n rest).map fun r => (w :: r.1, r.2)

/-- The bytes of a word, little-endian (R5). -/
def wordBytes (w : W) : List Byte :=
  [w.extractLsb' 0 8, w.extractLsb' 8 8, w.extractLsb' 16 8, w.extractLsb' 24 8]

/-- Where the fields that name a source register under R61 stand in a word of an assigned opcode, whatever its other fields
hold (R84, R87 to R98): the lowest bits of six-bit fields. -/
def srcFields (om : OpMap) (w : W) : List Nat :=
  let op := (w.extractLsb' 26 6).toNat
  let between (a b : Nat) : Bool := decide (a ≤ op) && decide (op ≤ b)
  let ab : List Nat := if w.getLsbD 0 then [9] else [9, 3]
  let ea : List Nat := if w.getLsbD 11 then [0] else []
  match om with
  | .s =>
    if between 0x01 0x14 || between 0x18 0x1A || op == 0x2B then ab
    else if between 0x15 0x17 || [0x29, 0x2D, 0x2F, 0x31].contains op then [9]
    else if between 0x20 0x26 then [6, 0]
    else []
  | .v =>
    if between 0x01 0x06 || between 0x09 0x22 || op == 0x24 || op == 0x25 then [9, 3]
    else if op == 0x07 || op == 0x08 then [9, 3, 15]
    else if op == 0x23 then [9, 15]
    else if op == 0x26 || op == 0x27 || op == 0x29 then [9]
    else if op == 0x2A || op == 0x2B then [1]
    else if op == 0x2C || op == 0x2E then [8]
    else if op == 0x2D || op == 0x2F then [8, 2]
    else if op == 0x31 then [6]
    else if between 0x32 0x3C then [6, 0]
    else []
  | .m => []
  | .c0 =>
    if between 0x01 0x05 || op == 0x09 || op == 0x0A then ea
    else if between 0x06 0x08 || op == 0x0B || op == 0x0C || between 0x15 0x17 then 15 :: ea
    else if op == 0x0D || op == 0x0E then [0]
    else if op == 0x0F || op == 0x10 then [15, 0]
    else if op == 0x11 || op == 0x12 then [15]
    else []
  | .c1 =>
    if [0x01, 0x09, 0x0D, 0x0E, 0x20, 0x21].contains op || between 0x10 0x13 || between 0x15 0x1A then [9]
    else if [0x08, 0x0A, 0x0B, 0x14, 0x30].contains op then [9, 3]
    else []
  | .x => if op == 1 || op == 4 then [15] else []
  | .b => if op == 3 || op == 4 || op == 6 then [15] else if op == 0x0D && w.getLsbD 20 then [14] else []

/-- A word of an assigned opcode names the literal as a source (R84). -/
def namesLiteral (om : OpMap) (w : W) : Bool := (srcFields om w).any fun i => isLit (w.extractLsb' i 6)

/-- The first slot, from the lowest, whose word names a literal that the bundle does not hold: MALFORMED comes before
ILLEGAL_SLOT, so what the word's other fields hold does not matter (R84, R107; log 10). -/
def literalMissing : List (Slot × W) → Option Slot
  | [] => none
  | (k, w) :: rest =>
    if namesLiteral k.map w then some k else literalMissing rest

/-- The instructions of the present slots, or the lowest slot that holds none (R106, R107). -/
def decodeSlots : List (Slot × W) → Except Slot (List (Slot × Instr))
  | [] => .ok []
  | (k, w) :: rest =>
    match decodeSlot k.map w with
    | .error _ => .error k
    | .ok i =>
      match decodeSlots rest with
      | .error e => .error e
      | .ok is => .ok ((k, i) :: is)

/-- A bundle from its header word and the words after it; a rejection names its trap and its slot, in the
order of R107. -/
def decodeBundleWords (hw : W) (ws : List W) : Except (DecodeReject × Slot) Bundle :=
  let h := Header.ofWord hw
  let sw := h.slots.zip ws
  if hw.extractLsb' 0 17 ≠ 0#17 then .error (.malformed, .s)
  else
    match (if h.lit then none else literalMissing sw) with
    | some k => .error (.malformed, k)
    | none =>
      match decodeSlots sw with
      | .error k => .error (.illegalSlot, k)
      | .ok is => .ok { header := h, slots := is, literal := if h.lit then ws[h.slots.length]? else none }

/-- A bundle from bytes, with the bytes that follow it. -/
def decodeBundle (bs : List Byte) : Except (DecodeReject × Slot) (Bundle × List Byte) :=
  match takeWord bs with
  | none => .error (.truncated, .s)
  | some (hw, rest) =>
    match takeWords ((Header.ofWord hw).words - 1) rest with
    | none => .error (.truncated, .s)
    | some (ws, rest') => (decodeBundleWords hw ws).map fun b => (b, rest')

/-- The bytes of the bundle that holds one instruction in one slot, and a literal of zero where it reads one. -/
def oneSlotBundle (k : Slot) (w : W) (lit : Bool) : List Byte :=
  let h : Header := { pres := 1#8 <<< k.num, lit := lit, ckp := false, dwell := 0#4, lcap := false }
  wordBytes h.toWord ++ wordBytes w ++ (if lit then wordBytes 0#32 else [])

/-- The slots a bare table word is tried in, first the formats with the most fixed bits: the opcode table numbers
one slot word and names no slot (log 5). -/
def tableSlots : List Slot := [.m, .c1, .x, .c0, .b, .v0, .s]

/-- The first slot of a list under whose map the word is an instruction. -/
def firstSlot (w : W) : List Slot → Option (Slot × Instr)
  | [] => none
  | k :: rest =>
    match decodeSlot k.map w with
    | .ok i => some (k, i)
    | .error _ => firstSlot w rest

/-- The instruction the decoder reads from a table word of `nbits` bits. -/
def decodeTableWord (nbits w : Nat) : Option Instr :=
  (firstSlot (BitVec.ofNat 32 (w % 2 ^ nbits)) tableSlots).map (·.2)

end Sys2Proof
end

