-- ==== Sys2Proof/Machine/Sparse.lean ====
section
/-! DEFINITION. The one store of the model: a sparse map in canonical form, its keys rising strictly and no
value listed that an unlisted key reads as.  Register files, memories, tiles, cores and packages are all held
in it, so that equal contents are equal data. -/

namespace Sys2Proof.Machine

/-- The value at key `k`; an unlisted key reads as `d`. -/
def sget {α : Type} (d : α) : SMap α → Nat → α
  | [], _ => d
  | (k', v) :: r, k => if k' = k then v else if k < k' then d else sget d r k

/-- The map with `v` at key `k`; writing `d` removes the entry (with whatever a list out of order holds behind it at or
below `k`, which no key reads). -/
def sset {α : Type} [DecidableEq α] (d : α) : SMap α → Nat → α → SMap α
  | [], k, v => if v = d then [] else [(k, v)]
  | (k', v') :: r, k, v =>
    if k' < k then (k', v') :: sset d r k v
    else if k' = k then (if v = d then r.dropWhile (fun x => decide (x.1 ≤ k)) else (k, v) :: r)
    else if v = d then (k', v') :: r else (k, v) :: (k', v') :: r

/-- The value at `k` changed by `f`. -/
def smod {α : Type} [DecidableEq α] (d : α) (m : SMap α) (k : Nat) (f : α → α) : SMap α :=
  sset d m k (f (sget d m k))

/-- Several writes, the later ones winning. -/
def ssetAll {α : Type} [DecidableEq α] (d : α) (m : SMap α) (l : List (Nat × α)) : SMap α :=
  l.foldl (fun m kv => sset d m kv.1 kv.2) m

/-- The keys listed. -/
def skeys {α : Type} (m : SMap α) : List Nat := m.map (·.1)

/-- The canonical form. -/
def swf {α : Type} [DecidableEq α] (d : α) : SMap α → Bool
  | [] => true
  | [(_, v)] => decide (v ≠ d)
  | (k, v) :: (k', v') :: r => decide (v ≠ d) && decide (k < k') && swf d ((k', v') :: r)

/-- The entries with a key in [lo, hi). -/
def srange {α : Type} (m : SMap α) (lo hi : Nat) : SMap α :=
  m.filter fun kv => decide (lo ≤ kv.1) && decide (kv.1 < hi)

/-- The map without the keys in [lo, hi). -/
def sclear {α : Type} (m : SMap α) (lo hi : Nat) : SMap α :=
  m.filter fun kv => !(decide (lo ≤ kv.1) && decide (kv.1 < hi))

/-! ### Byte memories: an unlisted byte reads 0 -/

/-- A byte memory. -/
abbrev Memory := SMap Byte

def Memory.byte (m : Memory) (a : Nat) : Byte := sget 0#8 m a

def Memory.setByte (m : Memory) (a : Nat) (b : Byte) : Memory := sset 0#8 m a b

/-- The n bytes from address a. -/
def Memory.bytes (m : Memory) (a n : Nat) : List Byte := (List.range n).map fun i => m.byte (a + i)

/-- Writes a list of bytes from address a. -/
def Memory.setBytes (m : Memory) (a : Nat) (bs : List Byte) : Memory :=
  (bs.foldl (fun (am : Nat × Memory) b => (am.1 + 1, am.2.setByte am.1 b)) (a, m)).2

/-- The number that bytes make, little-endian (R5). -/
def natOfBytes : List Byte → Nat
  | [] => 0
  | b :: r => b.toNat + 256 * natOfBytes r

/-- The n bytes of a number, little-endian (R5). -/
def bytesOfNat : Nat → Nat → List Byte
  | 0, _ => []
  | n + 1, v => BitVec.ofNat 8 v :: bytesOfNat n (v / 256)

/-- The number held in the n bytes at address a. -/
def Memory.nat (m : Memory) (a n : Nat) : Nat := natOfBytes (m.bytes a n)

/-- Writes a number into the n bytes at address a. -/
def Memory.setNat (m : Memory) (a n v : Nat) : Memory := m.setBytes a (bytesOfNat n v)

/-- The canonical form of a byte memory. -/
def Memory.wf (m : Memory) : Bool := swf 0#8 m

/-! ### Small arithmetic -/

/-- The signed value of a bit field. -/
def sextNat (n v : Nat) : Int :=
  let v := v % 2 ^ n
  if v < 2 ^ (n - 1) then (v : Int) else (v : Int) - (2 ^ n : Nat)

/-- `sat` of R10. -/
def satInt (x lo hi : Int) : Int := if x < lo then lo else if hi < x then hi else x

/-- The bits [lo+w-1:lo] of a number. -/
def bitsOf (v lo w : Nat) : Nat := v / 2 ^ lo % 2 ^ w

/-- Ceiling division. -/
def ceilDiv (a b : Nat) : Nat := (a + b - 1) / b

end Sys2Proof.Machine
end

