-- ==== Sys2Proof/Machine/Num.lean ====
section
/-! DEFINITION. Exact values and the one rounding of every conversion and lane operation: decoding and
encoding of the linear and log formats (01_element_formats.md R13 to R33). -/

namespace Sys2Proof.Machine

/-- The exact value of an element.  `fin neg m e st` is ±m·2^e with m > 0; with `st` the magnitude lies
strictly between m·2^e and (m+1)·2^e, and m holds every bit that a rounding looks at. NAL and the elements
of a NaN block are `nan` (R33). -/
inductive XVal where
  | nan
  | inf (neg : Bool)
  | zero (neg : Bool)
  | fin (neg : Bool) (m : Nat) (e : Int) (st : Bool)
deriving DecidableEq, Repr

/-- The sticky flags of a lane (R33, R76). -/
structure Flags where
  nan : Bool
  ovf : Bool
  unf : Bool
  inx : Bool
  nfin : Bool
deriving DecidableEq, Repr

def Flags.none : Flags := ⟨false, false, false, false, false⟩

def Flags.or (a b : Flags) : Flags :=
  ⟨a.nan || b.nan, a.ovf || b.ovf, a.unf || b.unf, a.inx || b.inx, a.nfin || b.nfin⟩

/-- NFIN, INX, UNF, OVF, NAN from bit 4 down (R76). -/
def Flags.bits (f : Flags) : Nat :=
  16 * f.nfin.toNat + 8 * f.inx.toNat + 4 * f.unf.toNat + 2 * f.ovf.toNat + f.nan.toNat

/-- The flags without those a mask of `Flags.bits` names. -/
def Flags.clear (f : Flags) (mask : Nat) : Flags :=
  ⟨f.nan && !mask.testBit 0, f.ovf && !mask.testBit 1, f.unf && !mask.testBit 2, f.inx && !mask.testBit 3,
    f.nfin && !mask.testBit 4⟩

def Flags.ofBits (n : Nat) : Flags :=
  ⟨n.testBit 0, n.testBit 1, n.testBit 2, n.testBit 3, n.testBit 4⟩

def Flags.nanNfin : Flags := ⟨true, false, false, false, true⟩
def Flags.inxOnly : Flags := ⟨false, false, false, true, false⟩
def Flags.ovfInx : Flags := ⟨false, true, false, true, false⟩
def Flags.ovfOnly : Flags := ⟨false, true, false, false, false⟩
def Flags.unfInx : Flags := ⟨false, false, true, true, false⟩

/-- The five rounding modes (R25). -/
inductive RMode where
  | rne | rtz | rdn | rup | rsx
deriving DecidableEq, Repr

/-- The mode of a field whose code 7 reads ROUND (R25, R141). -/
def RMode.ofCode (field round : BitVec 3) : RMode :=
  let c := if field = 7#3 then round.toNat else field.toNat
  if c = 1 then .rtz else if c = 2 then .rdn else if c = 3 then .rup else if c = 4 then .rsx else .rne

/-- Whether the magnitude rounds up (R25, R27): `half` compares the discarded part with half a unit, `d16` is
its first 16 bits, `u` the stochastic draw. -/
def roundsUp (mode : RMode) (neg odd inexact : Bool) (half : Ordering) (d16 u : Nat) : Bool :=
  match mode with
  | .rne => match half with
    | .gt => true
    | .eq => odd
    | .lt => false
  | .rtz => false
  | .rdn => neg && inexact
  | .rup => !neg && inexact
  | .rsx => decide (u < d16)

/-- The bits of a magnitude. -/
def bitLen (m : Nat) : Nat := if m = 0 then 0 else m.log2 + 1

/-- A magnitude m·2^e cut at the unit 2^q: the integer part, whether something was discarded, its comparison
with half a unit, and its first 16 bits. -/
def cutAt (m : Nat) (e : Int) (st : Bool) (q : Int) : Nat × Bool × Ordering × Nat :=
  if q ≤ e then (m * 2 ^ (e - q).toNat, st, .lt, 0)
  else
    let sh := Nat.min (q - e).toNat (bitLen m + 40)
    let n := m / 2 ^ sh
    let r := m % 2 ^ sh
    let half := if 2 * r < 2 ^ sh then Ordering.lt else if 2 * r = 2 ^ sh then (if st then .gt else .eq) else .gt
    (n, r != 0 || st, half, r * 2 ^ 16 / 2 ^ sh)

/-- A magnitude rounded at the unit 2^q. -/
def roundAt (mode : RMode) (u : Nat) (neg : Bool) (m : Nat) (e : Int) (st : Bool) (q : Int) : Nat × Bool :=
  let (n, inexact, half, d16) := cutAt m e st q
  (if roundsUp mode neg (n % 2 == 1) inexact half d16 u then n + 1 else n, inexact)

/-! ### Linear floating-point formats (R23, R31) -/

/-- A linear floating-point format: significant bits, exponent of the smallest normal, bits of the largest
finite value, the infinity if there is one, the canonical NaN, and the width. -/
structure FloatFmt where
  p : Nat
  emin : Int
  maxBits : Nat
  inf : Option Nat
  nan : Nat
  width : Nat
deriving DecidableEq, Repr

def fp32 : FloatFmt := ⟨24, -126, 0x7F7FFFFF, some 0x7F800000, 0x7FC00000, 32⟩
def fp16 : FloatFmt := ⟨11, -14, 0x7BFF, some 0x7C00, 0x7E00, 16⟩
def bf16 : FloatFmt := ⟨8, -126, 0x7F7F, some 0x7F80, 0x7FC0, 16⟩
def e4m3 : FloatFmt := ⟨4, -6, 0x7E, none, 0x7F, 8⟩
def e5m2 : FloatFmt := ⟨3, -14, 0x7B, some 0x7C, 0x7E, 8⟩

/-- The value of the bits of a linear format (R23). -/
def FloatFmt.decode (f : FloatFmt) (bits : Nat) : XVal :=
  let bits := bits % 2 ^ f.width
  let neg := decide (2 ^ (f.width - 1) ≤ bits)
  let mag := bits % 2 ^ (f.width - 1)
  if mag = 0 then .zero neg
  else if f.maxBits < mag then (if f.inf = some mag then .inf neg else .nan)
  else
    let h := 2 ^ (f.p - 1)
    let ex := mag / h
    if ex = 0 then .fin neg mag (f.emin - (f.p - 1 : Nat)) false
    else .fin neg (mag % h + h) (f.emin - (f.p - 1 : Nat) + (ex - 1 : Nat)) false

/-- Encoding into a linear format with one rounding (R31, R33); `sat` is the saturating option and `u` the draw
of R27. -/
def FloatFmt.encode (f : FloatFmt) (mode : RMode) (sat : Bool) (u : Nat) (v : XVal) : Nat × Flags :=
  let sgn (neg : Bool) := if neg then 2 ^ (f.width - 1) else 0
  match v with
  | .nan => (f.nan, .nanNfin)
  | .zero neg => (sgn neg, .none)
  | .inf neg =>
    match f.inf, sat with
    | some i, false => (sgn neg + i, ⟨false, false, false, false, true⟩)
    | _, _ => (sgn neg + f.maxBits, .ovfInx)
  | .fin neg m e st =>
    let ex : Int := e + (bitLen m : Nat) - 1
    let qmin : Int := f.emin - (f.p - 1 : Nat)
    let q : Int := if f.emin ≤ ex then ex - (f.p - 1 : Nat) else qmin
    let (n, inexact) := roundAt mode u neg m e st q
    let bits : Nat := (q - qmin).toNat * 2 ^ (f.p - 1) + n
    if f.maxBits < bits then
      let up := match mode with
        | .rne => true
        | .rtz => false
        | .rdn => neg
        | .rup => !neg
        | .rsx => decide ((cutAt m e st q).1 < n)
      match f.inf, sat, up with
      | some i, false, true => (sgn neg + i, ⟨false, true, false, true, true⟩)
      | _, _, _ => (sgn neg + f.maxBits, .ovfInx)
    else (sgn neg + bits, if inexact then (if ex < f.emin then .unfInx else .inxOnly) else .none)

/-! ### Integers (R32) -/

/-- The value of an n-bit two's-complement integer. -/
def XVal.ofInt (x : Int) : XVal :=
  if x = 0 then .zero false else .fin (decide (x < 0)) x.natAbs 0 false

/-- Encoding into an n-bit integer (R32). -/
def encodeInt (n : Nat) (mode : RMode) (u : Nat) (v : XVal) : Int × Flags :=
  let hi : Int := 2 ^ (n - 1) - 1
  let lo : Int := -(2 ^ (n - 1))
  match v with
  | .nan => (0, ⟨true, false, false, false, false⟩)
  | .inf neg => (if neg then lo else hi, .ovfOnly)
  | .zero _ => (0, .none)
  | .fin neg m e st =>
    if (64 : Int) < e + (bitLen m : Nat) then (if neg then lo else hi, .ovfInx)
    else
      let (k, inexact) := roundAt mode u neg m e st 0
      let x : Int := if neg then -(k : Int) else k
      let y := satInt x lo hi
      (y, if y ≠ x then .ovfInx else if inexact then .inxOnly else .none)

/-! ### Log formats (R13 to R15, R28, R29) -/

/-- The fractional-power table F (R37). -/
def powTab (k : Nat) : Nat :=
  match k with
  | 0 => 0x8000
  | 1 => 0x8B96
  | 2 => 0x9838
  | 3 => 0xA5FF
  | 4 => 0xB505
  | 5 => 0xC567
  | 6 => 0xD745
  | _ => 0xEAC1

/-- A log format: width, fractional bits of M, bias (R13). -/
structure LogFmt where
  w : Nat
  f : Nat
  bias : Int
deriving DecidableEq, Repr

def log8 : LogFmt := ⟨8, 3, 64⟩
def log6 : LogFmt := ⟨6, 2, 16⟩
def log4 : LogFmt := ⟨4, 1, 4⟩

/-- Λ of a log code (R15). -/
def LogFmt.lam (f : LogFmt) (m : Nat) (te : Int) : Int := ((m : Int) - f.bias) * ((8 >>> f.f : Nat) : Int) + 8 * te

/-- The value of Λ eighths (R15, R37). -/
def valueOfLam (neg : Bool) (lam : Int) : XVal := .fin neg (powTab (lam % 8).toNat) (lam / 8 - 15) false

/-- decode_log (R15). -/
def LogFmt.decode (f : LogFmt) (code : Nat) (te : Int) : XVal :=
  let code := code % 2 ^ f.w
  let neg := decide (2 ^ (f.w - 1) ≤ code)
  let m := code % 2 ^ (f.w - 1)
  if m = 0 then (if neg then .nan else .zero false) else valueOfLam neg (f.lam m te)

/-- The grid points below 0x1_0000 of a log format (R28). -/
def LogFmt.grid (f : LogFmt) : List Nat :=
  match f.f with
  | 3 => [0x8000, 0x8B96, 0x9838, 0xA5FF, 0xB505, 0xC567, 0xD745, 0xEAC1]
  | 2 => [0x8000, 0x9838, 0xB505, 0xD745]
  | _ => [0x8000, 0xB505]

/-- The nearest thresholds of a log format (R28). -/
def LogFmt.thresholds (f : LogFmt) : List Nat :=
  match f.f with
  | 3 => [0x85AB, 0x91C4, 0x9EF5, 0xAD58, 0xBD09, 0xCE25, 0xE0CD, 0xF525]
  | 2 => [0x8B96, 0xA5FF, 0xC567, 0xEAC1]
  | _ => [0x9838, 0xD745]

/-- encode_log (R29). -/
def LogFmt.encode (f : LogFmt) (te : Int) (mode : RMode) (u : Nat) (v : XVal) : Nat × Flags :=
  let sgn (neg : Bool) := if neg then 2 ^ (f.w - 1) else 0
  let mmax : Nat := 2 ^ (f.w - 1) - 1
  match v with
  | .nan => (2 ^ (f.w - 1), .nanNfin)
  | .zero _ => (0, .none)
  | .inf neg => (sgn neg + mmax, .ovfInx)
  | .fin neg m0 e0 st0 =>
    let ex : Int := e0 + (bitLen m0 : Nat) - 1
    let (m16, st, _, _) := cutAt m0 e0 st0 (ex - 15)
    let g := f.grid
    let ng : Int := (g.length : Nat)
    let lo := ((g.drop 1).filter fun x => decide (x ≤ m16)).length
    let glo := g.getD lo 0x8000
    let ghi := g.getD (lo + 1) 0x10000
    let exact := m16 == glo && !st
    let n : Int :=
      match mode with
      | .rne =>
        let c := (f.thresholds.filter fun t => decide (t < m16) || (m16 == t && st)).length
        let tie := f.thresholds.contains m16 && !st
        let n : Int := ng * (ex - te) + c
        if tie && (n + f.bias) % 2 == 1 then n + 1 else n
      | _ =>
        let d := (m16 - glo) * 2 ^ 16 / (ghi - glo)
        let up := !exact && (match mode with
          | .rup => !neg
          | .rdn => neg
          | .rsx => decide (u < d)
          | _ => false)
        ng * (ex - te) + lo + (if up then 1 else 0)
    let mm : Int := n + f.bias
    if (mmax : Int) < mm then (sgn neg + mmax, .ovfInx)
    else if mm < 1 then
      if (decide (mode = .rup) && !neg) || (decide (mode = .rdn) && neg) then (sgn neg + 1, .unfInx) else (0, .unfInx)
    else (sgn neg + mm.toNat, if exact then .none else .inxOnly)

/-! ### Exact arithmetic on values -/

/-- The signed significand of a finite value, zero included, with its exponent. -/
def XVal.sig : XVal → Int × Int
  | .fin neg m e _ => (if neg then -(m : Int) else m, e)
  | _ => (0, 0)

/-- The finite value m·2^e; an exact zero takes the sign given. -/
def XVal.ofSig (m e : Int) (zneg : Bool) : XVal :=
  if m = 0 then .zero zneg else .fin (decide (m < 0)) m.natAbs e false

def XVal.isNan : XVal → Bool
  | .nan => true
  | _ => false

def XVal.isInf : XVal → Bool
  | .inf _ => true
  | _ => false

def XVal.isZero : XVal → Bool
  | .zero _ => true
  | _ => false

def XVal.neg? : XVal → Bool
  | .inf n => n
  | .zero n => n
  | .fin n _ _ _ => n
  | .nan => false

def XVal.negate : XVal → XVal
  | .inf n => .inf (!n)
  | .zero n => .zero (!n)
  | .fin n m e s => .fin (!n) m e s
  | .nan => .nan

/-- Comparison of two finite or infinite values by value (−0 equals +0). -/
def XVal.cmp (a b : XVal) : Ordering :=
  match a, b with
  | .inf na, .inf nb => if na = nb then .eq else if na then .lt else .gt
  | .inf na, _ => if na then .lt else .gt
  | _, .inf nb => if nb then .gt else .lt
  | _, _ =>
    let (ma, ea) := a.sig
    let (mb, eb) := b.sig
    let e := if ea < eb then ea else eb
    compare (ma * 2 ^ (ea - e).toNat) (mb * 2 ^ (eb - e).toNat)

/-- The exact sum of finite values (R55): an exact zero of opposite signs is −0 under RDN, +0 otherwise; a sum
of zeros of one sign keeps it. -/
def XVal.addFin (rdn : Bool) (a b : XVal) : XVal :=
  match a, b with
  | .zero na, .zero nb => .zero (if na = nb then na else rdn)
  | .zero _, x => x
  | x, .zero _ => x
  | a, b =>
    let (ma, ea) := a.sig
    let (mb, eb) := b.sig
    let e := if ea < eb then ea else eb
    XVal.ofSig (ma * 2 ^ (ea - e).toNat + mb * 2 ^ (eb - e).toNat) e rdn

/-- a + b with its special cases (R143). -/
def XVal.add (rdn : Bool) (a b : XVal) : XVal :=
  match a, b with
  | .nan, _ => .nan
  | _, .nan => .nan
  | .inf na, .inf nb => if na = nb then .inf na else .nan
  | .inf na, _ => .inf na
  | _, .inf nb => .inf nb
  | a, b => XVal.addFin rdn a b

/-- a × b with its special cases (R143). -/
def XVal.mul (a b : XVal) : XVal :=
  let s := xor a.neg? b.neg?
  match a, b with
  | .nan, _ => .nan
  | _, .nan => .nan
  | .inf _, .zero _ => .nan
  | .zero _, .inf _ => .nan
  | .inf _, _ => .inf s
  | _, .inf _ => .inf s
  | .zero _, _ => .zero s
  | _, .zero _ => .zero s
  | .fin _ ma ea _, .fin _ mb eb _ => .fin s (ma * mb) (ea + eb) false

/-- The lesser of two values that are no NaN, with −0 < +0. -/
def XVal.least (a b : XVal) : XVal :=
  match XVal.cmp a b with
  | .lt => a
  | .gt => b
  | .eq => if a.neg? then a else b

def XVal.greatest (a b : XVal) : XVal :=
  match XVal.cmp a b with
  | .lt => b
  | .gt => a
  | .eq => if a.neg? then b else a

/-- Scaled by a power of two. -/
def XVal.scale (v : XVal) (k : Int) : XVal :=
  match v with
  | .fin n m e s => .fin n m (e + k) s
  | v => v

/-! ### Element formats by code (R69) -/

/-- The value of an element of a format of format VC, its bits right-aligned (R150, R151). -/
def decodeElem (fmt : Nat) (te : Int) (bits : Nat) : XVal :=
  match fmt with
  | 0 => log8.decode bits te
  | 1 => log6.decode bits te
  | 2 => log4.decode bits te
  | 10 => fp32.decode bits
  | 11 => fp16.decode bits
  | 12 => bf16.decode bits
  | 13 => e4m3.decode bits
  | 14 => e5m2.decode bits
  | 15 => XVal.ofInt (sextNat 8 bits)
  | 16 => XVal.ofInt (sextNat 16 bits)
  | _ => XVal.ofInt (sextNat 32 bits)

/-- Encoding into a format of format VC (R30). -/
def encodeElem (fmt : Nat) (te : Int) (mode : RMode) (sat : Bool) (u : Nat) (v : XVal) : Nat × Flags :=
  let int (n : Nat) := let (x, fl) := encodeInt n mode u v; ((x % (2 ^ n : Nat)).toNat, fl)
  match fmt with
  | 0 => log8.encode te mode u v
  | 1 => log6.encode te mode u v
  | 2 => log4.encode te mode u v
  | 10 => fp32.encode mode sat u v
  | 11 => fp16.encode mode sat u v
  | 12 => bf16.encode mode sat u v
  | 13 => e4m3.encode mode sat u v
  | 14 => e5m2.encode mode sat u v
  | 15 => int 8
  | 16 => int 16
  | _ => int 32

/-- Whether a format code is a log format (R69). -/
def isLogFmt (fmt : Nat) : Bool := decide (fmt ≤ 2)

/-- The bits an element takes in a register (R150, R151). -/
def elemWidth (fmt : Nat) : Nat :=
  match fmt with
  | 10 => 32
  | 17 => 32
  | 11 => 16
  | 12 => 16
  | 16 => 16
  | _ => 8

/-! ### The stochastic generator (R26, R27) -/

/-- next (R27): the new state; the draw is its bits [31:16]. -/
def genNext (x : W) : W :=
  let x := x ^^^ (x <<< 13)
  let x := x ^^^ (x >>> 17)
  x ^^^ (x <<< 5)

def genDraw (x : W) : Nat := x.toNat / 2 ^ 16

/-- seed_lane (R26). -/
def seedLane (seed : W) (l : Nat) : W :=
  let g := seed ^^^ BitVec.ofNat 32 ((l + 1) * 0x9E3779B9)
  if g = 0#32 then 0x6A09E667#32 else g

end Sys2Proof.Machine
end

