-- ==== Sys2Proof/Machine/Block.lean ====
section
/-! DEFINITION. Block formats: block words, decoding, scale selection and block encoding
(01_element_formats.md R18 to R22, R35, R36). -/

namespace Sys2Proof.Machine

/-- A block family and element type (R18, R35). -/
inductive BlkTy where
  | b4i | b4f | b4p | b4h | b8int | b8log | b8e4m3
deriving DecidableEq, Repr

/-- The type of the BT field of format VQ (R91, R153). -/
def BlkTy.ofBt (bt : Nat) : BlkTy :=
  match bt with
  | 0 => .b4i
  | 1 => .b4f
  | 2 => .b4p
  | 3 => .b4h
  | 4 => .b8int
  | 5 => .b8log
  | _ => .b8e4m3

/-- The type of a block format code of R69. -/
def BlkTy.ofFmt (fmt : Nat) : BlkTy :=
  match fmt with
  | 3 => .b8int
  | 4 => .b8log
  | 5 => .b8e4m3
  | 6 => .b4i
  | 7 => .b4f
  | 8 => .b4p
  | _ => .b4h

def BlkTy.isB4 : BlkTy → Bool
  | .b4i => true | .b4f => true | .b4p => true | .b4h => true
  | .b8int => false | .b8log => false | .b8e4m3 => false

/-- The T field that select_block writes (R18). -/
def BlkTy.tcode : BlkTy → Nat
  | .b4i => 0 | .b4f => 1 | .b4p => 2 | .b4h => 3
  | .b8int => 0 | .b8log => 1 | .b8e4m3 => 2

/-- emax (R35). -/
def BlkTy.emax : BlkTy → Int
  | .b4i => 2 | .b4f => 2 | .b4p => 3 | .b4h => 3
  | .b8int => 6 | .b8log => 7 | .b8e4m3 => 8

/-- The elements of a block: 16 for B4, 32 for B8 (R20). -/
def BlkTy.size (t : BlkTy) : Nat := if t.isB4 then 16 else 32

/-- The value lists of B4F, B4P and B4H in eighths (R21). -/
def BlkTy.list : BlkTy → List Nat
  | .b4f => [0, 4, 8, 12, 16, 24, 32, 48]
  | .b4p => [0, 1, 2, 4, 8, 16, 32, 64]
  | .b4h => [0, 8, 16, 24, 32, 48, 64, 96]
  | _ => []

/-- The fields of a block word (R18): T, E, MU. -/
def blkT (w : Nat) : Nat := bitsOf w 14 2
def blkE (w : Nat) : Nat := bitsOf w 8 6
def blkMu (w : Nat) : Nat := bitsOf w 0 8

/-- Whether a block word makes a NaN block (R19). -/
def blkNan (t : BlkTy) (w : Nat) : Bool :=
  blkE w == 63 || (!t.isB4 && (blkMu w != 0 || blkT w == 3))

/-- The scale exponent of element i: E − 31 − μ (R19). -/
def blkScale (t : BlkTy) (w i : Nat) : Int :=
  (blkE w : Int) - 31 - (if t.isB4 && (blkMu w).testBit (i / 2) then 1 else 0)

/-- code_value (R21, R22). -/
def BlkTy.codeValue (t : BlkTy) (code : Nat) : XVal :=
  match t with
  | .b4i => XVal.ofInt (sextNat 4 code)
  | .b8int => XVal.ofInt (sextNat 8 code)
  | .b8log => log8.decode code 0
  | .b8e4m3 => e4m3.decode code
  | t =>
    let v := t.list.getD (code % 8) 0
    if v = 0 then .zero false else .fin (decide (8 ≤ code % 16)) v (-3) false

/-- The value of element i of a block (R19). -/
def blkDecode (t : BlkTy) (w i code : Nat) (te : Int) : XVal :=
  if blkNan t w then .nan else (t.codeValue code).scale (blkScale t w i + te)

/-- floor(log2) of a finite magnitude. -/
def XVal.expo : XVal → Int
  | .fin _ m e _ => e + (bitLen m : Nat) - 1
  | _ => 0

/-- The magnitude of a value. -/
def XVal.mag : XVal → XVal
  | .fin _ m e s => .fin false m e s
  | .inf _ => .inf false
  | .zero _ => .zero false
  | .nan => .nan

/-- The greatest magnitude of a list of finite values. -/
def maxMag (xs : List XVal) : XVal := xs.foldl (fun a x => XVal.greatest a x.mag) (.zero false)

/-- The micro bits μ0, μ1, … of the pairs of a block (R35). -/
def microBits (ea te : Int) : List XVal → Nat
  | a :: b :: r =>
    let mx := maxMag [a, b]
    let small := match mx with
      | .fin _ _ _ _ => decide (mx.expo - te < ea)
      | _ => true
    small.toNat + 2 * microBits ea te r
  | _ => 0

/-- select_block (R35): the block word and the flags it sets. -/
def selectBlock (t : BlkTy) (te : Int) (xs : List XVal) : Nat × Flags :=
  let word (e mu : Nat) : Nat := t.tcode * 2 ^ 14 + e * 2 ^ 8 + mu
  if xs.any fun x => x.isNan || x.isInf then (word 63 0, .nanNfin)
  else
    match maxMag xs with
    | .fin _ m e s =>
      let ea := (XVal.fin false m e s).expo - te
      let en : Int := ea - t.emax + 31
      let e' : Nat := if 62 < en then 62 else en.toNat
      (word e' (if t.isB4 then microBits ea te xs else 0), if 62 < en then .ovfOnly else .none)
    | _ => (word 0 (if t.isB4 then 0xFF else 0), .none)

/-- The nearest entry of a value list in eighths to q·2^e eighths (R36): index, inexact, clipped. -/
def listRound (l : List Nat) (mode : RMode) (u : Nat) (neg : Bool) (m : Nat) (e : Int) : Nat × Bool × Bool :=
  -- the magnitude in eighths is m·2^(e+3); compare everything at the unit 2^(min e' 0)
  let e := e + 3
  let num : Nat := if 0 ≤ e then m * 2 ^ e.toNat else m
  let den : Nat := if 0 ≤ e then 1 else 2 ^ (-e).toNat
  let lo := ((l.drop 1).filter fun x => decide (x * den ≤ num)).length
  let elo := l.getD lo 0 * den
  if num = elo then (lo, false, false)
  else if lo = 7 then (7, true, true)
  else
    let ehi := l.getD (lo + 1) 0 * den
    let half := compare (2 * num) (elo + ehi)
    let d := (num - elo) * 2 ^ 16 / (ehi - elo)
    (if roundsUp mode neg (lo % 2 == 1) true half d u then lo + 1 else lo, true, false)

/-- One element of a block that is not a NaN block, divided by its scale and encoded (R36). -/
def blkEncodeElem (t : BlkTy) (scale : Int) (mode : RMode) (u : Nat) (x : XVal) : Nat × Flags :=
  match x with
  | .zero _ => (0, .none)
  | .nan =>
    match t with
    | .b8log => (0x80, .nanNfin)
    | .b8e4m3 => (0x7F, .nanNfin)
    | _ => (0, ⟨true, false, false, false, false⟩)
  | .inf neg =>
    (match t with
     | .b8log => if neg then 0xFF else 0x7F
     | .b8e4m3 => if neg then 0xFE else 0x7E
     | .b8int => if neg then 0x80 else 0x7F
     | .b4i => if neg then 0x8 else 0x7
     | _ => if neg then 0xF else 0x7, .ovfInx)
  | .fin neg m e s =>
    let q := XVal.fin neg m (e - scale) s
    let fix (r : Nat × Flags) (zero : Bool) : Nat × Flags :=
      if zero then (r.1, .unfInx)
      else (r.1, if r.2.ovf then ⟨r.2.nan, false, r.2.unf, true, r.2.nfin⟩ else r.2)
    match t with
    | .b4i => let (x, fl) := encodeInt 4 mode u q; fix ((x % 16).toNat, fl) (x == 0)
    | .b8int => let (x, fl) := encodeInt 8 mode u q; fix ((x % 256).toNat, fl) (x == 0)
    | .b8log => let r := log8.encode 0 mode u q; fix r (r.1 == 0)
    | .b8e4m3 => let r := e4m3.encode mode true u q; fix r (r.1 % 128 == 0)
    | t =>
      -- a quotient below a hundredth of the smallest entry or above a thousand of the largest is cut short:
      -- it lies between the same two entries, and no rounding rule looks further
      let ex := e - scale + (bitLen m : Nat)
      let (m', e') := if 64 < ex then (1, (64 : Int)) else if ex < -64 then (1, (-64 : Int)) else (m, e - scale)
      let (i, inexact, _) := listRound t.list mode u neg m' e'
      if i = 0 then (0, .unfInx)
      else (i + (if neg then 8 else 0), if inexact then .inxOnly else .none)

end Sys2Proof.Machine
end

