-- ==== Sys2Proof/Machine/Handler.lean ====
section
/-! DEFINITION. The resident service handler, as the listing of 10_program_filter.md R221 gives it and 04_core_encoding.md
encodes it, in frames 60 to 63 of every instruction memory (03_core_state.md R79). -/

namespace Sys2Proof.Machine

/-- The bundles of R221 in order: a header, its slot words, its literal. -/
def handlerWords : List W :=
  -- MFC s1, CAUSE; MFC s2, TRAP_PC; CMPNE p1, p0, s1, #5; (p1) HALT
  [0x01000000, 0xA000B000, 0x01000000, 0xA0013200, 0x01800000, 0x8408007E, 5, 0x80000000, 0x38200000] ++
  -- SHR s3, s2, #12; IADD s4, s2, #36; SHR s4, s4, #12
  [0x01000000, 0x2C018461, 0x01800000, 0x040205F0, 36, 0x01000000, 0x2C020861] ++
  -- MOV s5, s3 with CALL chk; MOV s5, s4 with CALL chk; RFT
  [0x81000000, 0x5C028600, 0x08000008, 0x81000000, 0x5C028800, 0x08000005, 0x01000000, 0xCC000000] ++
  -- chk: MTC CPSEL, s5; MFC s6, CPENT; CMPBIT p2, p3, s6, #31; (p2) RET
  [0x01000000, 0xA40E8A00, 0x01000000, 0xA0033C00, 0x01800000, 0x981181BE, 31, 0x80000000, 0x14400000] ++
  -- CPLD s7, s5, s5; CMPNE p4, p0, s7, #0; (p4) HALT
  [0x20000000, 0xC0038A28, 0x01800000, 0x842001FE, 0, 0x80000000, 0x38800000] ++
  -- wait: MFC s6, CPENT; CMPBIT p2, p3, s6, #31; (p3) BR wait; RET
  [0x01000000, 0xA0033C00, 0x01800000, 0x981181BE, 31, 0x80000000, 0x047FFFFB, 0x80000000, 0x14000000]

/-- The bytes of the handler that are not zero, at their addresses in the instruction memory. -/
def handlerImage : Memory :=
  let bs := (handlerWords.map fun w => bytesOfNat 4 w.toNat).flatten
  (((List.range bs.length).zip bs).filter fun x => x.2 != 0).map fun x => (60 * 4096 + x.1, x.2)

end Sys2Proof.Machine
end

