-- ==== Sys2Proof/Machine/State.lean ====
section
/-! DEFINITION. The state of the machine as plain data: the cores, the columns, the dies, the packages and the
pod, the model's own bookkeeping of what is due, and the state right after reset (03_core_state.md R59 and the
state of files 05 to 19). -/

namespace Sys2Proof.Machine

/-! ### The core: banked state -/

/-- The loop-engine registers (R124); `cnt` is the number of the body bundle that issues next (R127), `arm` the
offset of the LOOP bundle that armed the loop, `after` the fall-through that its LOOP found (R126; none where it was armed
another way), and `drnNew` tells that DRN was set in the present superstep (R132). -/
structure LoopRegs where
  trip : W
  pass : W
  idx : W
  pass32 : Bool
  act : Bool
  div : Bool
  drn : Bool
  nst : BitVec 3
  len : BitVec 8
  body : PC
  lpc : PC
  res : W
  rem : W
  linc : SMap W
  cnt : Nat
  arm : PC
  after : Option PC
  drnNew : Bool
deriving DecidableEq, Repr

def LoopRegs.reset : LoopRegs :=
  { trip := 0, pass := 0, idx := 0, pass32 := false, act := false, div := false, drn := false, nst := 0, len := 0,
    body := 0, lpc := 0, res := 0, rem := 0, linc := [], cnt := 0, arm := 0, after := none, drnNew := false }

/-- One context bank (R59): the register files by number, an unlisted register reading 0. -/
structure Bank where
  s : SMap W
  sk : SMap W
  sn : SMap W
  v0 : SMap VReg
  v1 : SMap VReg
  vk : SMap VReg
  vn : SMap VReg
  p : BitVec 16
  vp0 : SMap (BitVec 64)
  vp1 : SMap (BitVec 64)
  b : SMap (BitVec 23)
  q : SMap (BitVec 128)
  flags : SMap (BitVec 5)
  gen : SMap W
  relS : BitVec 48
  relV0 : BitVec 48
  relV1 : BitVec 48
  round : BitVec 3
  srSeed : W
  brb : BitVec 3
  prb : BitVec 3
  loop : LoopRegs
deriving DecidableEq, Repr

def Bank.reset : Bank :=
  { s := [], sk := [], sn := [], v0 := [], v1 := [], vk := [], vn := [], p := 0, vp0 := [], vp1 := [], b := [],
    q := [], flags := [], gen := [], relS := 0, relV0 := 0, relV1 := 0, round := 0, srSeed := 0, brb := 0, prb := 0,
    loop := .reset }

/-! ### The core: results on their way -/

/-- The float arithmetic forms (R142). -/
inductive FOp where
  | add | sub | mul | min | max
deriving DecidableEq, Repr

/-- The element type of a float form (R142). -/
inductive FTy where
  | f32 | f16 | bf16
deriving DecidableEq, Repr

/-- The integer arithmetic forms (R144). -/
inductive IOp where
  | add | sub | mul | min | max
deriving DecidableEq, Repr

/-- The reductions (R147). -/
inductive RedOp where
  | addF | maxF | minF | addI | maxI | minI
deriving DecidableEq, Repr

/-- The function-unit forms (R148). -/
inductive FnOp where
  | exp2 | log2 | rcp | rsq
deriving DecidableEq, Repr

/-- What forms a V result when it becomes visible (R206): the operation; its sources stand beside it. -/
inductive VForm where
  /-- The value is source a itself: moves, selects, permutes, logic, samples, buffer reads. -/
  | value
  | fbin (op : FOp) (t : FTy)
  | fma (t : FTy)
  | iarith (op : IOp) (n : Nat) (sat : Bool)
  | red (op : RedOp)
  | fn (op : FnOp)
  /-- Conversion: destination and source format, tensor exponents of source and destination, saturating option. -/
  | cvt (df sf : Nat) (teS teD : Int) (sat : Bool)
  | bmax (bt : Nat)
  | bcvt (bt : Nat)
  /-- VQDUAL: the four source registers in order, and which of the two destinations. -/
  | qdual (bt : Nat)
  | dq (bt : Nat)
deriving DecidableEq, Repr

/-- A V result: the unit (true for V1), the destination code, the active lanes, the operation, its sources, the
mode it rounds under, and whether it enters vn0. -/
structure VRes where
  unit : Bool
  d : BitVec 6
  mask : BitVec 64
  form : VForm
  a : VReg
  b : VReg
  c : VReg
  e : VReg
  mode : RMode
  push : Bool
deriving DecidableEq, Repr

/-- What a pending entry does when its time comes. -/
inductive PendKind where
  /-- An S-slot result: the register and sn0 (R63). -/
  | sres (d : BitVec 6) (v : W)
  /-- A result of another slot into an s register: no push. -/
  | reg (d : BitVec 6) (v : W)
  /-- Physical predicates and their values. -/
  | preds (w : List (Nat × Bool))
  | vres (r : VRes)
  /-- A loaded or received vector register: unit, code, lanes written, value. -/
  | vload (unit : Bool) (d : BitVec 6) (mask : BitVec 64) (v : VReg)
  /-- Vector predicates: unit, and for each the number, the lanes written and the values. -/
  | vpreds (unit : Bool) (w : List (Nat × BitVec 64 × BitVec 64))
  /-- A VBCVT before its late read of register b (R156); `stale` when b was released before it issued. -/
  | lateB (r : VRes) (b : BitVec 6) (lit : W) (stale : Bool)
  /-- A physical base register. -/
  | base (n : Nat) (v : BitVec 23)
  | qword (n w : Nat) (v : W)
  | qhead (n : Nat) (v : BitVec 8) (wrap : Bool)
  | qtail (n : Nat) (v : BitVec 8) (wrap : Bool)
  /-- A control register (MTC). -/
  | ctl (sel : BitVec 6) (v : W)
  | rot (brb prb : BitVec 3)
  /-- The loop-back's write of PASS, PASS32 and IDX (R127). -/
  | loopPass (pass : W) (pass32 : Bool) (idx : W)
  /-- The copy staging register (R191). -/
  | stage (d : BitVec 512)
  /-- A C0 write of bytes (R181). -/
  | spw (w : List (Nat × Byte))
  /-- A status word of a far request on its way to PENDING (R271): applied as a C0 write is, and counted nowhere. -/
  | status (req : Nat) (w : List (Nat × Byte))
  /-- A scratchpad atomic before its indivisible step (R186): 0 add, 1 max, 2 swap. -/
  | atom (op : Nat) (ea : Nat) (d : BitVec 6) (v : W)
  /-- A multicast store (R187): the layers and the bytes. -/
  | mcast (layers : BitVec 4) (w : List (Nat × Byte))
  /-- Statistics-buffer words (R159). -/
  | statw (w : List (Nat × W))
  /-- The release of a main-file register at the end of its bundle's reads (R64): file 0 s, 1 v of V0, 2 v of V1. -/
  | release (file : Nat) (r : BitVec 6)
deriving DecidableEq, Repr

/-- A pending entry: the issue cycles still to run (a release has none), the bank that issued it, the bank it
writes. -/
structure Pend where
  left : Nat
  owner : Bool
  bank : Bool
  kind : PendKind
deriving DecidableEq, Repr

/-! ### The core: matrix work in flight -/

/-- A ring slot (R59, R163): the bank of its ring register, ring number and slot number. -/
structure RingSlot where
  bank : Bool
  q : Nat
  n : Nat
deriving DecidableEq, Repr

/-- One vector of a stream read from its slot: its codes and the block words of its elements. -/
structure VecData where
  v : Nat
  codes : List Nat
  words : List Nat
deriving DecidableEq, Repr

/-- A stream (R168, R169). -/
structure Stream where
  id : Nat
  issued : Nat
  tile : Nat
  plane : Nat
  wfmt : Nat
  mode : Nat
  back : Bool
  n : Nat
  slot : RingSlot
  base : Nat
  bw : Nat
  fmt : Nat
  te : Int
  point : Int
  begun : Nat
  added : Nat
  retired : Bool
  data : List VecData
deriving DecidableEq, Repr

/-- A weight load (R164, R165): from a ring slot, or from a bank tile over the bus. -/
structure Load where
  id : Nat
  issued : Nat
  wp : Bool
  phys : Nat
  wfmt : Nat
  slot : Option RingSlot
  base : Nat
  bw : Nat
  fmt : Nat
  te : Int
  /-- For MLDWB: the bank row address, in bytes from the start of the tile version. -/
  bank : Option Nat
  /-- Rows written, or for MLDWB rows read. -/
  rows : Nat
  /-- MLDWB: the rows that beats brought, waiting to be written. -/
  beats : List (List Byte)
deriving DecidableEq, Repr

/-- An MCLR, or an MSETP with rescale from one binary point to another (R170, R171). -/
structure TileOp where
  id : Nat
  tile : Nat
  rescale : Option (Int × Int)
deriving DecidableEq, Repr

/-- A drain (R173 to R175). -/
structure Drain where
  id : Nat
  issued : Nat
  tile : Nat
  slot : RingSlot
  base : Nat
  bw : Nat
  fmt : Nat
  te : Int
  mode : RMode
  gens : SMap W
  point : Int
  row0 : Nat
  rows : Nat
  clr : Bool
  ovf : Bool
  inx : Bool
deriving DecidableEq, Repr

/-- The timing of the array (R48, R169): the completion cycle of the last vector begun, its mode, and in the serial
modes the finishing cycle of each row. -/
structure ArrayTime where
  fv : Nat
  mode : Nat
  f : List Nat
deriving DecidableEq, Repr

/-- The control word of a tile, BUSY aside, which the work in flight gives (R71). -/
structure TileCtl where
  nan : Bool
  inx : Bool
  ovf : Bool
  p : BitVec 8
deriving DecidableEq, Repr

def TileCtl.reset : TileCtl := ⟨false, false, false, 0⟩

/-- A named barrier (R73). -/
structure Bar where
  gen : Bool
  arr : BitVec 4
  part : BitVec 4
deriving DecidableEq, Repr

def Bar.reset : Bar := ⟨false, 0, 0⟩

/-- An entry of the matrix drain record (R203). -/
structure DrainRec where
  tile : Nat
  ring : Nat
  mode : Nat
  fed : Nat
deriving DecidableEq, Repr

/-! ### The core: the copy sequencer -/

/-- Where a copy moves bytes (R189, R228): within the scratchpad; to the scratchpad of a layer; from a physical bank
tile; to a physical bank tile. -/
inductive CopyKind where
  | local_
  | ss (layer : Nat)
  | bs (tile : Nat)
  | sb (tile : Nat)
deriving DecidableEq, Repr

/-- A queued or active copy (R192, R194): its ticket, descriptor, destination base, ring slot, the clock cycle of its
CPYGO, the cycle it started in, the runs complete, and where its next beat stands. -/
structure Copy where
  kind : CopyKind
  ticket : Nat
  desc : BitVec 512
  db : Nat
  slot : Option RingSlot
  go : Nat
  started : Option Nat
  /-- A bus copy: the clock cycle of its request (R225). -/
  req : Option Nat
  runsDone : Nat
  run : Nat
  beat : Nat
  reading : Bool
  /-- Beats read and not yet written: write cycle, address, bytes, and whether the beat ends its run. -/
  flight : List (Nat × Nat × List Byte × Bool)
deriving DecidableEq, Repr

structure CopySeq where
  staging : BitVec 512
  loaded : Bool
  ticket : Nat
  lastDone : Nat
  queue : List Copy
deriving DecidableEq, Repr

def CopySeq.reset : CopySeq := ⟨0, false, 0, 0, []⟩

/-! ### The core: trap, checkpoint, logs -/

/-- A cause with the slot that raised it and the offset reported (R77, R205). -/
structure TrapInfo where
  slot : Nat
  code : Nat
  pc : PC
deriving DecidableEq, Repr

/-- Why a core drains (R201, R213). -/
inductive DrainWhy where
  | trap (t : TrapInfo)
  /-- A data error: run A of the interval follows. -/
  | dataError
  /-- The end of run A: run B follows. -/
  | rerunB
deriving DecidableEq, Repr

/-- What a core does with its clock cycles. -/
inductive Run where
  /-- It holds no task. -/
  | idle
  /-- It issues bundles, each followed by its dwell. -/
  | issue
  /-- Barrier wait cycles (R135). -/
  | barWait (bar : Nat)
  /-- Draining since a clock cycle (R202). -/
  | drain (since : Nat) (why : DrainWhy)
  /-- Rolling back until a clock cycle (R204). -/
  | rollback (until_ : Nat) (why : DrainWhy)
  /-- After RFT, until bank 1's results are visible; then bank 0 resumes at the offset (R122). -/
  | rftRun (pc : PC)
  /-- After a PHASE: its dwell, then arrived at the boundary (R246). -/
  | phase (budget : Nat) (arrived : Bool)
  /-- After a HALT: waiting for its outstanding work (R137), then halted. -/
  | halt (done : Bool)
  /-- Stopped by the die controller or by a handler fault (R205, R249). -/
  | stopped
  /-- Launched, before its first superstep starts (R248). -/
  | launched
deriving DecidableEq, Repr

/-- An entry of the outbound log (R211): the opcode, the words that say where it goes as one number, the length and the
digest of its data, and the status or result it returned. -/
structure OutEntry where
  op : Nat
  dst : Nat
  len : Nat
  digest : BitVec 64
  result : W
  /-- A far form: its request, and once complete its status word and, for an atomic, OLD (R284). -/
  far : Option Nat
  done : Option (W × DW)
  /-- A VBCPY into a bank: the physical tile that it resolved when it was sent (R239). -/
  tile : Option Nat
deriving DecidableEq, Repr

/-- A flit taken from an inbound FIFO in the interval (R256): the port, fabric or mesh, and its data. -/
structure Flit where
  data : BitVec 256
  bad : Bool
  /-- The clock cycle from which it can be taken, or for a fabric port the fabric cycle. -/
  from_ : Nat
  /-- The sender that is owed the credit of a fabric flit (R344). -/
  credit : Option Nat
deriving DecidableEq, Repr

/-- A committed checkpoint (R206). -/
structure Ckpt where
  bank : Bank
  tctl : SMap TileCtl
  pfmt0 : BitVec 4
  pfmt1 : BitVec 4
  act : Bool
  wp0 : Nat
  wp1 : Nat
  icycle : W
  pend : List Pend
  dwell : Nat
  pc : PC
  seq : CopySeq
  /-- What the core does after the checkpoint bundle. -/
  after : Run
  /-- The destination of a WBFENCE of the checkpoint bundle that waits (R238). -/
  fence : Option (BitVec 6)
  fenceOps : Nat
deriving DecidableEq, Repr

/-- How a rerun ended (R213). -/
inductive RunEnd where
  | commit
  | trap (t : TrapInfo)
deriving DecidableEq, Repr

/-- The double rerun of a data error (R213, R214): which run, its cycle count and signature, and run A's results. -/
structure Rerun where
  cycles : Nat
  sig : BitVec 64
  disagree : Bool
  /-- How run A ended, then run B: its end, cycles and signature. -/
  ends : List (RunEnd × Nat × BitVec 64)
deriving DecidableEq, Repr

/-! ### The core: far requests (13, 16, 19) -/

/-- The form of a far request. -/
inductive FarKind where
  | tload | tstore | tloadz
  | gacq | grel
  | fadd | fcas | fswap
  | nmsadd | nmsgd | nmzero | nmcopy | nmcmp | nmfence
  | bkalloc | bkxlat | bkshare | bkfree | bkload | bkstore
  | coll | ccancel
deriving DecidableEq, Repr

/-- Where a far request stands. -/
inductive FarStage where
  /-- Accepted and held behind an acquire, a release's stores or a fence (R280, R306). -/
  | held
  /-- Sent, on its way to its memory. -/
  | sent
  /-- At an NMU's queue or performing there (R305). -/
  | queued
  /-- Performed, its completion on its way. -/
  | performed
deriving DecidableEq, Repr

/-- The part of a far transfer in one 64-byte line (R274, R275): the line's address or offset, the bytes of the line
it moves as offset in the line, scratchpad offset and tile byte index, the first such index, the bytes it carries, whether the line failed,
and how far it has come: 0 waits, 1 has been read, 2 has been written. -/
structure Piece where
  line : Nat
  at_ : List (Nat × Nat × Nat)
  idx : Nat
  data : List Byte
  bad : Bool
  stage : Nat
deriving DecidableEq, Repr

/-- A held far-request entry (R270): its descriptor as read at issue, the task it belongs to, the operand b of GREL, the
translations made at issue, where it stands, and what its completion will write. -/
structure FarReq where
  id : Nat
  kind : FarKind
  tag : W
  issued : Nat
  desc : Nat
  words : List W
  opnd : W
  slot : Option RingSlot
  /-- The scratchpad offset of the data, and of block words. -/
  loc : Nat
  bw : Nat
  /-- The entries of the destination or only range, of the source, and of the guard (R267). -/
  ent : DW
  sent : DW
  gent : DW
  stage : FarStage
  /-- Its task has left the core: it writes nothing there (R249, R259). -/
  orphan : Bool
  pieces : List Piece
  code : Nat
  mis : Bool
  count : Nat
  deliv : Nat
  first : Option Nat
  old : DW
  /-- A guard's first poisoned line, as reported to GACQ. -/
  firstp : Nat
  nfin : Nat
  firstD : Option Nat
  /-- The next line of a near-memory command (R303). -/
  line : Nat
  /-- NMFENCE: the commands it waits for, how many they were at issue, and whether one ended poisoned (R306). -/
  waits : List Nat
  ncmd : Nat
  /-- Bramble: outcome, references, block of the key. -/
  outcome : Nat
  refs : Nat
  blk : Option Nat
  /-- TLOADZ: the reason and row of a malformed tile (R314). -/
  reason : Nat
  row : Option Nat
  /-- Bytes to be written at completion: fill, decoded codes, zeros. -/
  out : List (Nat × Byte)
  /-- TSTORE: the 64-byte lines of its source still to be read, and the bytes read (R275). -/
  srcLeft : List Nat
  src : Memory
deriving DecidableEq, Repr

/-- A flit awaiting departure from a mesh or fabric port: its departure cycle and data. -/
structure OutFlit where
  due : Nat
  data : List (BitVec 256)
deriving DecidableEq, Repr

/-- The core (R59). -/
structure Core where
  bank0 : Bank
  bank1 : Bank
  /-- Bank 1 executes. -/
  cur : Bool
  pc : PC
  run : Run
  /-- Empty issue cycles still to elapse (R85). -/
  dwell : Nat
  /-- The tag and die entry of the task it holds. -/
  task : Option W
  tiles : SMap (BitVec 8192)
  tctl : SMap TileCtl
  /-- Rows of the three physical planes, keyed 128·plane + row; an unlisted row is of class NONE. -/
  planes : SMap (BitVec 4096)
  wp0 : Nat
  wp1 : Nat
  pfmt0 : BitVec 4
  pfmt1 : BitVec 4
  act : Bool
  bars : SMap Bar
  coord : W
  stage : BitVec 16
  icycle : W
  causeSlot : BitVec 3
  causeCode : BitVec 16
  trapPc : PC
  ckpPc : PC
  corr : W
  debugPend : Bool
  cpsel : BitVec 6
  codeMap : SMap W
  /-- Frames a CPLD is loading (R212). -/
  loading : List Nat
  imem : Memory
  sp : Memory
  stat : SMap W
  pend : List Pend
  ckpt : Option Ckpt
  undo : SMap (Option Byte)
  undoStat : SMap (Option W)
  preimg : SMap (Option (BitVec 8192))
  undoCount : Nat
  accTiles : List Nat
  planeLoads : Nat
  outLog : List OutEntry
  outPos : Nat
  barLog : List Nat
  barPos : Nat
  /-- Flits taken in the interval, oldest first: port (fabric ports from 8 on) and flit (R256). -/
  taken : List (Nat × Flit)
  drainRec : List DrainRec
  rerun : Option Rerun
  /-- The physical rows the row map disables (R40). -/
  rowOff : BitVec 132
  /-- The scratchpad ranges that its images hold: those of the image it was last launched from, or the whole scratchpad after
  a fresh launch (R217). -/
  ranges : List (Nat × Nat)
  retired : Bool
  streams : List Stream
  loads : List Load
  tileOps : List TileOp
  drains : List Drain
  arr : ArrayTime
  nextId : Nat
  seq : CopySeq
  /-- The copies the last rollback recorded wait for bank 0's next bundle (R196). -/
  seqHold : Bool
  /-- The bus port serves a transfer; otherwise it is free from the cycle that follows (R225). -/
  portBusy : Bool
  portFrom : Nat
  bankStatus : W
  /-- Bank operations queued or active of this core, those a fence waits for, and the destination of the WBFENCE whose
  fence wait cycles run (R234, R238). -/
  bankOps : Nat
  fenceOps : Nat
  fence : Option (BitVec 6)
  /-- A checkpoint bundle has issued M-slot work and waits for it before it commits (R58, R207). -/
  ckpWait : Bool
  /-- Inbound FIFOs and awaiting departures: mesh ports 0 to 3, fabric ports 8 to 13. -/
  fifo : SMap (List Flit)
  out : SMap (List OutFlit)
  /-- The cycle after the last departure of each port. -/
  outNext : SMap Nat
  /-- Flits of each mesh port's FIFO taken less than two cycles ago, by the cycle that frees the entry. -/
  freeing : SMap (List Nat)
  /-- Flits in flight towards each mesh FIFO. -/
  inflight : SMap Nat
  /-- Credits used of each fabric port (R344). -/
  creditsUsed : SMap Nat
  far : List FarReq
  /-- Accepted collectives not complete (R352). -/
  colls : Nat
deriving DecidableEq, Repr

/-! ### The column -/

/-- A bank-engine operation (R234 to R237). -/
inductive BankKind where
  | zero | copy | cmp | lupd
deriving DecidableEq, Repr

structure BankOp where
  kind : BankKind
  core : Nat
  /-- Bank 1 of the core issued it (R205, R241). -/
  owner : Bool
  layer : Nat
  enter : Nat
  /-- The physical tiles, 4t + v: source or only, and destination or second. -/
  a : Nat
  b : Nat
  gbase : Nat
  kappa : W
  dmax : Nat
  started : Option Nat
  row : Nat
  /-- LUPD: gradient beats that have travelled, and what they carried. -/
  beats : Nat
  /-- A failure or repair has delayed the gradient, and its data error has been raised (R241). -/
  late_ : Bool
  grad : Memory
  count : Nat
  first : Option Nat
  nanSeen : Bool
  /-- Rows read and not yet written, oldest first. -/
  held : List (List Byte)
deriving DecidableEq, Repr

structure Column where
  banks : Memory
  /-- Bank words marked uncorrectable, by bank byte address / 8 (R232). -/
  bankBad : SMap Bool
  tvmap : BitVec 8
  vbSlots : W
  vbBank : BitVec 16
  vbSlotsNext : Option W
  vbBankNext : Option (BitVec 16)
  mcmask : BitVec 4
  queue : List BankOp
  /-- The cycle after the end of the last operation. -/
  engineFree : Nat
  /-- The spare-wire map: the failed wire that each spare in use replaces, spare 0 first (R223, R242). -/
  spares : List Nat
  /-- A failure awaits its repair; the cycle the repair in progress ends in (R240). -/
  fault : Bool
  repair : Option Nat
  retired : Bool
deriving DecidableEq, Repr

/-! ### The die -/

/-- A segment entry of a descriptor (R331). -/
structure SegEntry where
  index : Nat
  size : Nat
  pr : Bool
  pw : Bool
  pa : Bool
  dupOk : Bool
  key : Nat
  tier : Bool
  input : Bool
  home : Nat
  pkg : Nat
deriving DecidableEq, Repr

/-- A task descriptor as read at submission (R331). -/
structure TaskDesc where
  tag : W
  ldie : Nat
  ndm1 : Nat
  imgInt : Nat
  ny : Nat
  nx : Nat
  bk : Bool
  img : Bool
  budget0 : Nat
  seed : W
  code : Nat
  codeSize : Nat
  imgBase : Nat
  imgStride : Nat
  stages : List Nat
  segs : List SegEntry
  preds : List W
  compl : Nat
  vbSlots : W
  vbBank : BitVec 16
  mcmask : BitVec 4
deriving DecidableEq, Repr

/-- The column state saved with a boundary image (R223). -/
structure ColImage where
  banks : Memory
  tvmap : BitVec 8
  vbSlots : W
  vbBank : BitVec 16
  mcmask : BitVec 4
  /-- The last bank status of the four cores. -/
  status : List W
deriving DecidableEq, Repr

/-- The state of a submitted task (R250, R258, R259). -/
inductive TaskPlace where
  | queued
  /-- Resident on columns of the die, 8·PX + PY, in ascending gang (y, x) (R262). -/
  | resident (sites : List Nat)
deriving DecidableEq, Repr

structure Task where
  desc : TaskDesc
  queue : Nat
  place : TaskPlace
  held : Bool
  /-- Placement order, for oldest and newest. -/
  placed : Nat
  /-- Kind of the next superstep: exchange. -/
  exchange : Bool
  rs : Int
  steps : Nat
  sinceImage : Nat
  preq : Bool
  start : Nat
  budget : Nat
  /-- Whether an image was written for it, with its columns' state in (y, x) order, and the budget recorded. -/
  imaged : Bool
  cols : List ColImage
  imgBudget : Nat
  imgExchange : Bool
  table : SMap DW
  /-- The exchange supersteps since each segment was last translated through (R318). -/
  idle : SMap Nat
  /-- Restored or launched and not yet started; stopped at a deadline; the clock cycle its stop completes. -/
  started : Bool
  stopped : Option Nat
  /-- The image is in place from this cycle. -/
  ready : Nat
deriving DecidableEq, Repr

/-- A record of the fault log (R265), as words. -/
abbrev LogRec := List W

structure Die where
  /-- Clock cycles since die reset (R224). -/
  clk : Nat
  /-- The core clock in MHz and the offset of R337. -/
  mhz : Nat
  phi : Nat
  /-- The fabric cycle in which the present clock rate took effect and the clock cycle then. -/
  baseFab : Nat
  baseClk : Nat
  /-- A step of the clock waits for the next boundary (R332). -/
  slow : Bool
  phase : BitVec 48
  phaseNext : Option (BitVec 48)
  /-- Mesh FIFOs that a task left with flits in them: core, port and tag (R248). -/
  residue : List (Nat × Nat × W)
  margin : BitVec 8
  qslice : SMap W
  xsite : BitVec 9
  log : List LogRec
  logLost : W
  /-- Queued tasks in queue order and resident tasks. -/
  tasks : List Task
  /-- The tasks that have left the die, whose tables still say where their segments lie (R267, R318, R321). -/
  gone : List Task
  /-- Entries that placement rewrites at the next boundary: the old and the new (R267, R318). -/
  rewrites : List (DW × DW)
  retiredTags : List W
  placeSeq : Nat
  /-- WIDTH as the last boundary found it (R260). -/
  fitWidth : Nat
  /-- The boundary last completed, in clock cycles. -/
  boundary : Option Nat
  /-- Checkpoint: run to the next boundary and hold; holding (R320). -/
  holdReq : Bool
  holding : Bool
deriving DecidableEq, Repr

/-! ### The fabric and the sequencer (19) -/

/-- A link flit of FSEND queued at a port (R343): the fabric cycle it was handed over in, the sending core, its
register flits. -/
structure LinkFlit where
  handed : Nat
  core : Nat
  tag : W
  coord : W
  flits : List (BitVec 256)
deriving DecidableEq, Repr

/-- A Zilvan port (R338 to R340, R347). -/
structure Port where
  up : Bool
  training : Nat
  /-- The link's key, the flit counter of the channels since training, and the fabric cycle after the slot of the last
  Medlar flit (R339, R347). -/
  key : BitVec 256
  chanCount : Nat
  chanNext : Nat
  /-- Consecutive uncorrectable flits, and whether this fabric cycle's delivery is uncorrectable or fails its
  authentication. -/
  bad : Nat
  spoil : Bool
  unauth : Bool
  queue : List LinkFlit
  /-- Vector flits on the link to the neighbour, oldest first, by their delivery cycle. -/
  wire : List LinkFlit
  /-- The fabric cycle after the slot of the last remote-memory flit (R339, R345). -/
  remoteNext : Nat
  dropped : Nat
deriving DecidableEq, Repr

/-- The kinds of collective (R352). -/
inductive CollKind where
  | ar | rs | ag | bc
deriving DecidableEq, Repr

/-- The OUTCOME of a collective (R351). -/
inductive CollOutcome where
  | done | cancelled | mismatch | late | linkdown | busy
deriving DecidableEq, Repr

/-- A grant (R348, R350); a void one carries its outcome. -/
structure Grant where
  term : Nat
  csn : W
  start : Nat
  void_ : Option CollOutcome
deriving DecidableEq, Repr

/-- A collective a package takes part in (R349). -/
structure PkgColl where
  id : Nat
  core : Nat
  far : Nat
  tag : W
  ctag : W
  kind : CollKind
  words : List W
  issued : Nat
  grant : Option Grant
  late_ : Bool
  running : Bool
  /-- The input bytes as START found them, each flit's worth as it was read once its cycle has come (R357). -/
  input : List Byte
  /-- Link flits lost: index in the stream, and the port they should have come over. -/
  lost : List (Nat × Nat)
deriving DecidableEq, Repr

/-- A request at the primary (R349). -/
structure PrimReq where
  pkg : Nat
  core : Nat
  far : Nat
  id : Nat
  kind : CollKind
  word1 : W
  fields : List W
deriving DecidableEq, Repr

/-- A collective at the primary: its identity, its requests, its number and start once assigned, its void outcome. -/
structure PrimColl where
  tag : W
  ctag : W
  box : W
  reqs : List PrimReq
  csn : Option W
  start : Nat
  void_ : Option CollOutcome
  /-- Created by a cancel before any request (R358). -/
  byCancel : Bool
  /-- Participants answered and participants that have completed. -/
  granted : List Nat
  ended : List Nat
deriving DecidableEq, Repr

/-- What a Medlar channel message says (R347, R349, R358, R361). -/
inductive MsgBody where
  | request (tag ctag : W) (r : PrimReq)
  | grant (core far coll : Nat) (g : Grant)
  | cancel (core far : Nat) (tag ctag box : W)
  | cancelled (core far : Nat) (result : Nat)
  | beat (term : Nat)
  | collect (term : Nat)
  | report (pkg term : Nat) (csn : Option W) (busy : Nat) (downs : List Nat) (reqs : List (W × W × PrimReq))
  | ended (tag ctag box : W) (pkg : Nat)
  | link (pkg port : Nat) (up : Bool)
deriving DecidableEq, Repr

/-- A channel message not yet acknowledged: number, packages, content, whether received. -/
structure Msg where
  id : Nat
  src : Nat
  dst : Nat
  body : MsgBody
  seen : Bool
deriving DecidableEq, Repr

/-- The Medlar unit of a package (R348, R361). -/
structure Medlar where
  primary : Bool
  standby : Bool
  term : Nat
  nextCsn : W
  maxCsn : Option W
  /-- The fabric cycle of the last heartbeat of the current term. -/
  lastBeat : Option Nat
  colls : List PrimColl
  /-- After a failover: the packages still to report, and the cycle numbering resumes at the latest (R361). -/
  awaiting : List Nat
  resumeBy : Option Nat
  /-- Links reported down. -/
  down : List (Nat × Nat)
  /-- The end of the last collective of a package that its report named (R350, R361). -/
  busy : SMap Nat
  /-- The package that this one takes for the primary: that of the highest term it has seen (R361). -/
  leader : Nat
deriving DecidableEq, Repr

/-! ### The package (16, 17) -/

/-- A key of the Bramble directory (R307), its block, and the references of blocks, are kept in maps; a block is
numbered stack·2^24 + index. -/
structure Bramble where
  keys : SMap (Option Nat)
  refs : SMap Nat
  pool : SMap Nat
  /-- Translated accesses not yet complete, by block (R311). -/
  uses : SMap Nat
  /-- Blocks without a reference that wait for their accesses. -/
  zombie : List Nat
  data : Memory
  poison : SMap Bool
deriving DecidableEq, Repr

/-- A line of a context image in a checkpoint (R319): the die within the package and the segment entry it is written through,
its address, and the offsets and bytes of the image in it; none where it is poisoned. -/
structure ImageLine where
  half : Nat
  ent : DW
  va : Nat
  data : Option (List (Nat × Byte))
deriving DecidableEq, Repr

/-- What a committed device checkpoint holds of the package and its dies, with the context images of the resident tasks wherever
they lie (R319). -/
structure DevCkpt where
  hbm : Memory
  hbmPoison : SMap Bool
  tags : SMap DW
  bramble : Bramble
  columns : SMap Column
  dies : List Die
  images : List ImageLine
deriving DecidableEq, Repr

/-- A command taken from the ring (R324). -/
structure HostCmd where
  slot : Nat
  agent : Nat
  words : List W
  acceptSeq : Nat
  /-- A CKPT or RESTORE waits for both dies to hold. -/
  waiting : Bool
deriving DecidableEq, Repr

/-- A tier move in progress (R318): the entry that names the segment where it is, and the entry it will have. -/
structure Move where
  id : Nat
  old : DW
  new : DW
deriving DecidableEq, Repr

/-- What a fresh launch takes of a stage of a task's program and no descriptor field gives: the code offset at which the stage
starts (R263), and the data image, loaded at scratchpad offset 0 (R220). -/
structure Program where
  entry : PC
  data : List Byte
deriving DecidableEq, Repr

structure Pkg where
  /-- HBM4E bytes, keyed stack·2^36 + address, and second-tier bytes, with poison marks and CMAC tags by line. -/
  hbm : Memory
  hbmPoison : SMap Bool
  tier : Memory
  tierPoison : SMap Bool
  tags : SMap DW
  tierTags : SMap DW
  tierPorts : Nat
  tierFast : Bool
  bramble : Bramble
  /-- NMU queues by stack: core and request, the head performing (R305). -/
  nmu : SMap (List (Nat × Nat))
  moves : List Move
  tcold : BitVec 16
  recov : Bool
  hold : Bool
  ready : Bool
  epoch : BitVec 16
  deny : BitVec 4
  ownerValid : Bool
  owner : BitVec 2
  /-- The fabric cycle of the last beat, the handover in force and its end (R326). -/
  lastBeat : Nat
  handover : Option (Nat × Nat)
  cmdBase : DW
  cmdTail : BitVec 8
  cmdHead : BitVec 8
  cmd : Option HostCmd
  jrnlSeq : DW
  journal : SMap (BitVec 1024)
  host : Memory
  slot0 : Option DevCkpt
  slot1 : Option DevCkpt
  /-- The slot of the checkpoint committed last. -/
  lastSlot : Option Nat
  /-- A checkpoint being copied: the slot and what it holds (R320). -/
  copying : Option (Nat × DevCkpt)
  /-- The digests of the firmware images in flash slots A and B; none where the signature fails (R329). -/
  fwA : Option (BitVec 256)
  fwB : Option (BitVec 256)
  measure0 : BitVec 256
  measure1 : BitVec 256
  /-- Key slots 1..63 (R346): XTS keys, CMAC key. -/
  xtsKeys : SMap (BitVec 512)
  macKeys : SMap (BitVec 256)
  ports : SMap Port
  medlar : Medlar
  colls : List PkgColl
  collId : Nat
  /-- What the outside has loaded of tasks' programs, by tag and stage (R220, R263; log 47). -/
  programs : List (Nat × Program)
deriving DecidableEq, Repr

/-! ### The machine -/

/-- The issue context of the instruction that executes (log 1): the core, the slot, the bundle's literal, its offset
and the offset after it, and the trap that an instruction of the bundle has taken. -/
structure Ictx where
  core : Nat
  slot : Nat
  lit : W
  pc : PC
  next : PC
  trap : Option TrapInfo
  /-- The bundle is a checkpoint bundle (R206). -/
  ckp : Bool
deriving DecidableEq, Repr

/-- Where the cycle of an event is counted. -/
inductive Domain where
  | die (d : Nat)
  | fabric
deriving DecidableEq, Repr

/-- An event with its place and arguments (log 1): `k` is the key of the core, column, die or package it happens at,
`i` the record in flight there, the barrier, port, frame, task tag or agent, `j` a row or a vector, `w` a value, and `b`
whether a beat writes, a delivery is sound, or a data error is of bank 0 whichever bank runs. -/
structure Ev where
  event : Instr
  k : Nat
  i : Nat
  j : Nat
  w : Nat
  b : Bool
deriving DecidableEq, Repr

def Ev.reset : Ev := ⟨.nop, 0, 0, 0, 0, false⟩

/-- An event due in a cycle (log 1). -/
structure Due where
  dom : Domain
  at_ : Nat
  ev : Ev
deriving DecidableEq, Repr

/-- The operations that make up one fabric cycle (log 1). -/
inductive Micro where
  /-- A core at the start of its clock cycle: its pipelines advance unless an interlock holds it. -/
  | gate (core : Nat)
  /-- A core issues the bundle at its pc. -/
  | issue (core : Nat)
  /-- The releases of a core's bundle take effect, after the loop-back whose reads are the bundle's own (R64, R127). -/
  | release (core : Nat)
  /-- An event. -/
  | op (e : Ev)
  /-- The events of a die's cycle, or of the fabric cycle, that are due. -/
  | due (dom : Domain)
  /-- The conditions a die controller tests every clock cycle. -/
  | poll (die : Nat)
  /-- The conditions a package controller tests every fabric cycle. -/
  | pollPkg (pkg : Nat)
deriving DecidableEq, Repr

/-- An error of the hardware that the spec lets happen and that no instruction causes (log 1, log 7). -/
inductive Mishap where
  /-- A single-bit accumulator fault of a core, corrected in place (R57). -/
  | accBit (core : Nat)
  /-- An uncorrectable bank word of a column, by bank byte address / 8 (R232). -/
  | bankWord (col word : Nat)
  /-- A line of HBM4E that fails its ECC, by stack·2^30 + address / 64 (R290, R299). -/
  | hbmLine (pkg line : Nat)
  /-- A line that an expander of the second tier reports poisoned, by address / 64 (R317). -/
  | tierLine (pkg line : Nat)
  /-- A line of a Bramble block that fails its ECC, by block·2^10 + line (R307). -/
  | brambleLine (pkg line : Nat)
  /-- A message of a core's far request that fails within the package: a write whose memory fails, or a flit that the
  bridge between the dies cannot correct (R290, R299). -/
  | farMessage (core id j : Nat)
deriving DecidableEq, Repr

/-- What the outside does, and in which fabric cycle (log 1). -/
structure Input where
  at_ : Nat
  ev : Ev
  mishaps : List Mishap
  /-- What the host wrote into its own memory at a package before the event. -/
  pkg : Nat
  mem : List Host.Cell
  /-- Programs loaded at that package, by tag and stage (R220, R263; log 47). -/
  programs : List (Nat × Program)
deriving DecidableEq, Repr

/-- The machine. -/
structure State where
  cores : SMap Core
  columns : SMap Column
  dies : SMap Die
  pkgs : SMap Pkg
  /-- The pod clock (R337). -/
  fab : Nat
  dx : Nat
  dy : Nat
  dz : Nat
  primary : Nat
  standby : Nat
  msgs : List Msg
  msgId : Nat
  ictx : Ictx
  /-- The event that executes (log 1). -/
  ev : Ev
  todo : List Micro
  agenda : List Due
  inputs : List Input
  /-- The counter of the free values (log 4). -/
  fresh : Nat
deriving DecidableEq, Repr

/-- Why a step stops (none of the manual's instructions does: NOTES.md, Stops). -/
inductive Fault where
  /-- Reserved: no meaning of this model raises it.  Safe: a stop allows no false claim. -/
  | none_
deriving DecidableEq, Repr

/-- Why an instruction has no meaning here. -/
inductive Refusal where
  /-- The arm of an instruction not modelled yet.  Safe: nothing is claimed of a refused instruction. -/
  | notModelled (mnemonic : String)
deriving DecidableEq, Repr

/-! ### Reset -/

def ArrayTime.reset : ArrayTime := ⟨0, 0, []⟩

/-- A core after reset (R7, R59 to R77). -/
def Core.reset : Core :=
  { bank0 := .reset, bank1 := .reset, cur := false, pc := 0, run := .idle, dwell := 0, task := none, tiles := [],
    tctl := [], planes := [], wp0 := 0, wp1 := 1, pfmt0 := 0xF, pfmt1 := 0xF, act := false, bars := [], coord := 0,
    stage := 0, icycle := 0, causeSlot := 0, causeCode := 0, trapPc := 0, ckpPc := 0, corr := 0, debugPend := false,
    cpsel := 0, codeMap := [], loading := [], imem := handlerImage, sp := [], stat := [], pend := [], ckpt := none, undo := [],
    undoStat := [], preimg := [], undoCount := 0, accTiles := [], planeLoads := 0, outLog := [], outPos := 0,
    barLog := [], barPos := 0, taken := [], drainRec := [], rerun := none, rowOff := 0, ranges := [], retired := false,
    streams := [], loads := [], tileOps := [], drains := [], arr := .reset, nextId := 0, seq := .reset,
    seqHold := false, portBusy := false, portFrom := 0, bankStatus := 0, bankOps := 0, fenceOps := 0, fence := none,
    ckpWait := false, fifo := [], out := [],
    outNext := [], freeing := [], inflight := [], creditsUsed := [], far := [], colls := 0 }

/-- A column after reset (R77, R223). -/
def Column.reset : Column :=
  { banks := [], bankBad := [], tvmap := 0xE4, vbSlots := 0, vbBank := 0, vbSlotsNext := none, vbBankNext := none,
    mcmask := 0, queue := [], engineFree := 0, spares := [], fault := false, repair := none, retired := false }

/-- A die after reset (R243, R257, R265). -/
def Die.reset : Die :=
  { clk := 0, mhz := 1600, phi := 0, baseFab := 0, baseClk := 0, slow := false, phase := 0, phaseNext := none, residue := [],
    margin := 4, qslice := (List.range 16).map fun q => (q, 0x00400000#32), xsite := 0, log := [], logLost := 0,
    tasks := [], gone := [], rewrites := [], retiredTags := [], placeSeq := 0, fitWidth := 8, boundary := none, holdReq := false,
    holding := false }

def Port.reset : Port :=
  { up := false, training := 0, key := 0, chanCount := 0, chanNext := 0, bad := 0, spoil := false, unauth := false, queue := [], wire := [], remoteNext := 0, dropped := 0 }

def Medlar.reset : Medlar :=
  { primary := false, standby := false, term := 1, nextCsn := 0, maxCsn := none, lastBeat := none, colls := [], awaiting := [],
    resumeBy := none, down := [], busy := [], leader := 0 }

def Bramble.reset : Bramble :=
  { keys := [], refs := [], pool := [], uses := [], zombie := [], data := [], poison := [] }

/-- A package after reset (R323, R326, R329). -/
def Pkg.reset : Pkg :=
  { hbm := [], hbmPoison := [], tier := [], tierPoison := [], tags := [], tierTags := [], tierPorts := 6,
    tierFast := true, bramble := .reset, nmu := [], moves := [], tcold := 0, recov := false, hold := false,
    ready := false, epoch := 0, deny := 0, ownerValid := false, owner := 0, lastBeat := 0, handover := none,
    cmdBase := 0, cmdTail := 0, cmdHead := 0, cmd := none, jrnlSeq := 0, journal := [], host := [], slot0 := none,
    slot1 := none, lastSlot := none, copying := none, fwA := some 0, fwB := some 0, measure0 := 0, measure1 := 0,
    xtsKeys := [], macKeys := [], ports := [], medlar := .reset, colls := [], collId := 0, programs := [] }

def Ictx.reset : Ictx :=
  { core := 0, slot := 0, lit := 0, pc := 0, next := 0, trap := none, ckp := false }

/-- The machine right after reset: one package, nothing resident, its boot about to start (R7, R329; log 1, log 2). -/
def State.reset : State :=
  { cores := [], columns := [], dies := [], pkgs := [], fab := 0, dx := 1, dy := 1, dz := 1, primary := 0,
    standby := 0, msgs := [], msgId := 0, ictx := .reset, ev := .reset,
    todo := [.op ⟨.powerOnReset, 0, 0, 0, 0, false⟩], agenda := [], inputs := [], fresh := 0 }

end Sys2Proof.Machine
end

