-- ==== Sys2Proof/Machine/Access.lean ====
section
/-! DEFINITION. Reaching the parts of the machine: cores, columns, dies and packages by key, the clock of a
core, the events due, and the records of the fault log (03_core_state.md R75; 12_die_supersteps.md R261, R265). -/

namespace Sys2Proof.Machine

/-- The outcome of every meaning. -/
abbrev Out := Host.Outcome State Fault Refusal

/-! ### Keys: CORE_ID without its reserved bits (R75) -/

def dieOf (k : Nat) : Nat := k / 512
def pkgOf (k : Nat) : Nat := k / 1024
def layerOf (k : Nat) : Nat := k / 128 % 4
def colOf (k : Nat) : Nat := k / 512 * 128 + k % 128

/-- The core of a column in a layer. -/
def coreIn (col layer : Nat) : Nat := col / 128 * 512 + layer * 128 + col % 128

/-- CORE_ID (R75). -/
def coreId (k : Nat) : W := BitVec.ofNat 32 (k * 512)

/-! ### Parts of the machine -/

def State.core (s : State) (k : Nat) : Core := sget Core.reset s.cores k
def State.setCore (s : State) (k : Nat) (c : Core) : State := { s with cores := sset Core.reset s.cores k c }
def State.modCore (s : State) (k : Nat) (f : Core → Core) : State := s.setCore k (f (s.core k))

def State.col (s : State) (k : Nat) : Column := sget Column.reset s.columns k
def State.setCol (s : State) (k : Nat) (c : Column) : State := { s with columns := sset Column.reset s.columns k c }
def State.modCol (s : State) (k : Nat) (f : Column → Column) : State := s.setCol k (f (s.col k))

def State.die (s : State) (k : Nat) : Die := sget Die.reset s.dies k
def State.setDie (s : State) (k : Nat) (d : Die) : State := { s with dies := sset Die.reset s.dies k d }
def State.modDie (s : State) (k : Nat) (f : Die → Die) : State := s.setDie k (f (s.die k))

def State.pkg (s : State) (k : Nat) : Pkg := sget Pkg.reset s.pkgs k
def State.setPkg (s : State) (k : Nat) (p : Pkg) : State := { s with pkgs := sset Pkg.reset s.pkgs k p }
def State.modPkg (s : State) (k : Nat) (f : Pkg → Pkg) : State := s.setPkg k (f (s.pkg k))

/-- The clock cycle of a core's die. -/
def State.clkOf (s : State) (k : Nat) : Nat := (s.die (dieOf k)).clk

/-- The layers' cores of a column. -/
def coresOfCol (col : Nat) : List Nat := (List.range 4).map (coreIn col)

/-! ### Events due (log 1) -/

/-- An event at a key. -/
def evK (e : Instr) (k : Nat) : Ev := ⟨e, k, 0, 0, 0, false⟩

/-- An event at a key about a record in flight. -/
def evI (e : Instr) (k i : Nat) : Ev := ⟨e, k, i, 0, 0, false⟩

/-- An event at a key about a record in flight and one of its rows or vectors. -/
def evJ (e : Instr) (k i j : Nat) : Ev := ⟨e, k, i, j, 0, false⟩

/-- An event at a key with a flag. -/
def evB (e : Instr) (k i : Nat) (b : Bool) : Ev := ⟨e, k, i, 0, 0, b⟩

def State.schedule (s : State) (dom : Domain) (t : Nat) (e : Ev) : State :=
  { s with agenda := s.agenda ++ [⟨dom, t, e⟩] }

/-- Schedules an event in a clock cycle of a core's die. -/
def State.scheduleCore (s : State) (k t : Nat) (e : Ev) : State := s.schedule (.die (dieOf k)) t e

/-- Schedules an event in a fabric cycle. -/
def State.scheduleFab (s : State) (t : Nat) (e : Ev) : State := s.schedule .fabric t e

/-- Drops the scheduled events that a predicate names. -/
def State.unschedule (s : State) (p : Ev → Bool) : State := { s with agenda := s.agenda.filter fun d => !p d.ev }

/-- An event follows at once. -/
def State.atOnce (s : State) (e : Ev) : State := { s with todo := .op e :: s.todo }

/-- The next value of the counter of the free values. -/
def State.tick (s : State) : State := { s with fresh := s.fresh + 1 }

/-! ### The clock of a die (R337) -/

/-- g: the fabric cycle of a clock cycle. -/
def Die.fabOf (d : Die) (y : Nat) : Nat := d.baseFab + d.phi + ceilDiv ((y - d.baseClk) * 1600) d.mhz

/-- The first clock cycle y with g(y) at or after a fabric cycle. -/
def Die.clkFrom (d : Die) (f : Nat) : Nat :=
  let b := d.baseFab + d.phi
  if f ≤ b then d.baseClk else d.baseClk + (f - b - 1) * d.mhz / 1600 + 1

/-! ### Paths between packages (R336, R345) -/

/-- The coordinates of a package. -/
def pkgX (p : Nat) : Nat := p % 32
def pkgY (p : Nat) : Nat := p / 32 % 16
def pkgZ (p : Nat) : Nat := p / 512

def mkPkg (x y z : Nat) : Nat := x + 32 * y + 512 * z

/-- The steps along one ring from a to b: forward or backward, the positive direction when the ways are equal. -/
def ringSteps (n a b : Nat) : Nat × Bool :=
  let f := (b + n - a) % n
  let g := (a + n - b) % n
  if f ≤ g then (f, true) else (g, false)

/-- The package that a port leads to: ports 0 to 5 are +X, -X, +Y, -Y, +Z, -Z. -/
def State.portTo (s : State) (p port : Nat) : Nat :=
  let x := pkgX p
  let y := pkgY p
  let z := pkgZ p
  match port with
  | 0 => mkPkg ((x + 1) % s.dx) y z
  | 1 => mkPkg ((x + s.dx - 1) % s.dx) y z
  | 2 => mkPkg x ((y + 1) % s.dy) z
  | 3 => mkPkg x ((y + s.dy - 1) % s.dy) z
  | 4 => mkPkg x y ((z + 1) % s.dz)
  | _ => mkPkg x y ((z + s.dz - 1) % s.dz)

/-- The extent of the dimension of a port. -/
def State.extentOf (s : State) (port : Nat) : Nat := if port < 2 then s.dx else if port < 4 then s.dy else s.dz

/-- The ports of the path from a package to another: X, then Y, then Z (R345). -/
def State.path (s : State) (a b : Nat) : List Nat :=
  let x := ringSteps s.dx (pkgX a) (pkgX b)
  let y := ringSteps s.dy (pkgY a) (pkgY b)
  let z := ringSteps s.dz (pkgZ a) (pkgZ b)
  List.replicate x.1 (if x.2 then 0 else 1) ++ List.replicate y.1 (if y.2 then 2 else 3) ++
    List.replicate z.1 (if z.2 then 4 else 5)

def Pkg.port (p : Pkg) (n : Nat) : Port := sget Port.reset p.ports n

/-- A port that leads nowhere: its dimension has extent 1, or its link is down (R336, R340). -/
def State.nullPort (s : State) (p n : Nat) : Bool := s.extentOf n ≤ 1 || !((s.pkg p).port n).up

/-- The port opposite to a port. -/
def oppositePort (n : Nat) : Nat := if n % 2 = 0 then n + 1 else n - 1

/-! ### Lanes of a vector register (R61) -/

/-- The number whose 32-bit digits are the words, the first lowest. -/
def packWords : List W → Nat
  | [] => 0
  | w :: r => w.toNat + 4294967296 * packWords r

def lane (v : VReg) (l : Nat) : W := v.extractLsb' (32 * l) 32

def ofLanes (f : Nat → W) : VReg := BitVec.ofNat 2048 (packWords ((List.range 64).map f))

/-- Lanes of `new` where the mask is set, of `old` elsewhere. -/
def mergeLanes (mask : BitVec 64) (new old : VReg) : VReg :=
  ofLanes fun l => if mask.getLsbD l then lane new l else lane old l

/-- A 64-bit mask from a predicate on lanes. -/
def maskOf (f : Nat → Bool) : BitVec 64 :=
  BitVec.ofNat 64 ((List.range 64).foldl (fun a l => if f l then a + 2 ^ l else a) 0)

/-- The bytes of a vector register, lane 0 first. -/
def regBytes (v : VReg) : List Byte := bytesOfNat 256 v.toNat

/-- The vector register that 256 bytes make. -/
def regOfBytes (bs : List Byte) : VReg := BitVec.ofNat 2048 (natOfBytes bs)

/-! ### The fault log (R265) -/

def causeWord (slot code : Nat) : W := BitVec.ofNat 32 (slot * 2 ^ 21 + code)

/-- The words of a record (R265). -/
def logRecord (kind : Nat) (task : W) (phase : BitVec 48) (core cause tpc cpc : W) (dr : List DrainRec) : LogRec :=
  [BitVec.ofNat 32 (kind * 2 ^ 24 + dr.length), task, phase.extractLsb' 0 32, (phase.extractLsb' 32 16).zeroExtend 32,
    core, cause, tpc, cpc] ++
  (dr.map fun d => [BitVec.ofNat 32 d.tile, BitVec.ofNat 32 d.ring, BitVec.ofNat 32 d.mode, BitVec.ofNat 32 d.fed]).flatten

/-- Appends a record; with 4,096 records held it is dropped and counted (R265, R322). -/
def Die.post (d : Die) (r : LogRec) : Die :=
  if d.log.length < 4096 then { d with log := d.log ++ [r] }
  else { d with logLost := if d.logLost = 0xFFFFFFFF#32 then d.logLost else d.logLost + 1 }

def State.post (s : State) (die kind : Nat) (task : W) (core cause tpc cpc : W) (dr : List DrainRec) : State :=
  s.modDie die fun d => d.post (logRecord kind task d.phase core cause tpc cpc dr)

/-! ### The logical grid (R261) -/

/-- The site columns that are not excluded, in ascending PX. -/
def Die.sites (d : Die) : List Nat := (List.range 9).filter fun px => !d.xsite.getLsbD px

def Die.width (d : Die) : Nat := Nat.min 8 d.sites.length

/-- The columns of a gang placed at an origin of the logical grid, 8·PX + PY, in ascending gang (y, x) (R261, R262). -/
def Die.gangSites (d : Die) (t : TaskDesc) (x0 y0 : Nat) : List Nat :=
  ((List.range t.ny).map fun y => (List.range t.nx).map fun x => d.sites.getD (x0 + x) 0 * 8 + (y0 + y)).flatten

/-- The columns a resident task holds. -/
def Task.sites (t : Task) : List Nat :=
  match t.place with
  | .queued => []
  | .resident sites => sites

/-- The column keys of a task, in ascending gang (y, x). -/
def State.taskCols (s : State) (die : Nat) (t : Task) : List Nat :=
  match t.place with
  | .queued => []
  | .resident sites => sites.map (die * 128 + ·)

def State.taskCores (s : State) (die : Nat) (t : Task) : List Nat := ((s.taskCols die t).map coresOfCol).flatten

def Task.isResident (t : Task) : Bool :=
  match t.place with
  | .queued => false
  | .resident _ => true

/-- The task of a core's die with a tag. -/
def Die.task (d : Die) (tag : W) : Option Task := d.tasks.find? fun t => t.desc.tag = tag

def Die.modTask (d : Die) (tag : W) (f : Task → Task) : Die :=
  { d with tasks := d.tasks.map fun t => if t.desc.tag = tag then f t else t }

/-- The resident task that a core holds. -/
def State.taskOf (s : State) (k : Nat) : Option Task :=
  match (s.core k).task with
  | none => none
  | some tag => (s.die (dieOf k)).task tag

end Sys2Proof.Machine
end

