-- ==== Sys2Proof/Machine/TaskOps.lean ====
section
/-! DEFINITION. What ends a task's stay on its cores: the abort to the boundary image, a handler fault, and the
retirement of a core (09_core_faults.md R205, R216; 12_die_supersteps.md R249, R250, R261). -/

namespace Sys2Proof.Machine

/-- The far requests of a core whose task leaves it: one still held, or a fence, which does not travel, is never sent; one on
its way keeps no claim on the core, and a store takes along what is left of its source (R249, R259, R280, R306). -/
def orphaned (sp : Memory) (l : List FarReq) : List FarReq :=
  (l.filter fun r => r.stage != .held && r.kind != .nmfence).map fun r =>
    { r with orphan := true, src := r.srcLeft.foldl (fun m n => m.setBytes (64 * n) (sp.bytes (64 * n) 64)) r.src }

/-- A core whose task leaves it: work in flight inside the core is abandoned (R249, R259). -/
def Core.vacate (c : Core) : Core :=
  { c with task := none, run := .idle, cur := false, dwell := 0, pend := [], streams := [], loads := [], tileOps := [],
           drains := [], seq := { c.seq with queue := [] }, seqHold := false, portBusy := false, bankOps := 0, fenceOps := 0, fence := none,
           ckpWait := false, ckpt := none, undo := [],
           undoStat := [], preimg := [], undoCount := 0, accTiles := [], planeLoads := 0, outLog := [], outPos := 0,
           barLog := [], barPos := 0, taken := [], drainRec := [], rerun := none, out := [], outNext := [],
           far := orphaned c.sp c.far }

/-- The events that are the work of one core. -/
def coreEvents : List Instr :=
  [.rollback, .serviceHandlerEntry, .bank0Resume, .checkpointCommit, .streamVectorBegin, .lineSumAdd, .streamRetire,
   .planeRowWrite, .planeLoadComplete, .tileOpComplete, .drainRowWrite, .drainComplete, .copyStart, .copyBeat,
   .copyComplete, .copyRestart, .busBeat, .busCopyRequest, .phaseArrival, .meshFlitDepart, .loopBack, .multicastLand, .arrivalPropagate,
   .wbfenceRelease, .dataError, .rerunCompare, .tvmapUpdate, .cpldComplete]

/-- The events that are the work of one column's bank engine. -/
def columnEvents : List Instr := [.bankOpStart, .bankOpEnd, .lupdGradientBeat, .lupdRowUpdate, .barrierComplete]

def ofCore (k : Nat) (e : Ev) : Bool := e.k == k && coreEvents.contains e.event

def ofCol (k : Nat) (e : Ev) : Bool := e.k == k && columnEvents.contains e.event

/-- Credits go back to the senders of fabric flits taken or discarded now (R344): usable from the first die cycle y with
g(y) at H + 2 or more cycles later. -/
def State.repay (s : State) (port : Nat) (fs : List Flit) : State :=
  fs.foldl (fun s f =>
    match f.credit with
    | none => s
    | some k => s.scheduleFab (s.fab + Config.hop + 1) ⟨.creditReturn, k, oppositePort port, 0, 0, false⟩) s

/-- The contents of a core's fabric FIFOs are discarded (R341). -/
def State.dropFabric (s : State) (k : Nat) : State :=
  (List.range 6).foldl (fun s p =>
    let s := s.repay p (sget [] (s.core k).fifo (8 + p))
    s.modCore k fun c => { c with fifo := sset [] c.fifo (8 + p) [] }) s

/-- The mesh FIFOs of a core whose task leaves it: those with flits are noted for the records of the next boundary, and
emptied (R248). -/
def State.noteResidue (s : State) (k : Nat) : State :=
  let c := s.core k
  let left := (List.range 4).filter fun p => !(sget [] c.fifo p).isEmpty
  (s.modDie (dieOf k) fun d => { d with residue := d.residue ++ left.map fun p => (k, p, c.task.getD 0) }).modCore k fun c =>
    { c with fifo := sclear c.fifo 0 4 }

/-- Takes a task's cores away from it, and the operations of their columns' bank engines. -/
def State.vacateCores (s : State) (ks : List Nat) : State :=
  ks.foldl (fun s k =>
    let s := (((s.noteResidue k).dropFabric k).modCore k Core.vacate).modCol (colOf k) fun x => { x with queue := [] }
    s.unschedule fun e => ofCore k e || ofCol (colOf k) e) s

/-- The timers of a task. -/
def ofTask (die : Nat) (tag : W) (e : Ev) : Bool :=
  e.k == die && e.i == tag.toNat && [Instr.stragglerDeadline, .stragglerStopComplete, .superstepStart].contains e.event

/-- The task returns to the head of its queue, to be launched from its boundary image or launched again (R250). -/
def Die.abort (d : Die) (tag : W) (hold : Bool) : Die :=
  match d.task tag with
  | none => d
  | some t =>
    let t := { t with place := .queued, held := hold, exchange := t.imgExchange, budget := t.imgBudget, preq := false,
                      started := false, stopped := none }
    { d with tasks := t :: d.tasks.filter fun u => u.desc.tag ≠ tag }

/-- TASK_ABORT (R250). -/
def State.abortTask (s : State) (die : Nat) (tag : W) (hold : Bool) : State :=
  match (s.die die).task tag with
  | none => s
  | some t =>
    let s := s.vacateCores (s.taskCores die t)
    (s.modDie die fun d => d.abort tag hold).unschedule (ofTask die tag)

/-- HANDLER_FAULT (R205): bank 1 stops, the core reports and the task aborts. -/
def State.handlerFault (s : State) (k : Nat) (slot : Nat) (pc : PC) : State :=
  let c := s.core k
  let tag := c.task.getD 0
  let s := s.modCore k fun c => { c with run := .stopped }
  let s := s.post (dieOf k) 1 tag (coreId k) (causeWord slot 7) (pc.zeroExtend 32) (c.ckpPc.zeroExtend 32) []
  s.abortTask (dieOf k) tag true

/-- A core is marked retired and reports, and its site column leaves the grid (R216, R261). -/
def State.markRetired (s : State) (k : Nat) (tag : W) : State :=
  let s := s.modCore k fun c => { c with run := .stopped, retired := true }
  let s := s.post (dieOf k) 3 tag (coreId k) (causeWord 0 6) 0 0 []
  s.modDie (dieOf k) fun d => { d with xsite := d.xsite ||| (1#9 <<< (k % 128 / 8)) }

/-- CORE_RETIRE (R216): the core stops and reports, and its task aborts and is placed again. -/
def State.retireCore (s : State) (k : Nat) : State :=
  let c := s.core k
  let tag := c.task.getD 0
  let s := s.markRetired k tag
  if c.task.isSome then s.abortTask (dieOf k) tag false else s

/-- COLUMN_RETIRE (R242): the column and its four cores, each with the report of its task, and then their task aborts. -/
def State.retireColumn (s : State) (col : Nat) : State :=
  let s := s.modCol col fun x => { x with retired := true }
  let ks := (coresOfCol col).filter fun k => !(s.core k).retired
  let s := ks.foldl (fun s k => s.markRetired k ((s.core k).task.getD 0)) s
  ks.foldl (fun s k => match (s.core k).task with
    | none => s
    | some tag => s.abortTask (dieOf k) tag false) s

end Sys2Proof.Machine
end

