-- ==== Sys2Proof/Machine/Ops.lean ====
section
/-! DEFINITION. The shared operations of a core: its banks and registers, results put on their way, taking a trap
and returning from one, the budgets of a checkpoint interval, the undo buffer and the outbound log
(03_core_state.md R59 to R67; 09_core_faults.md R201 to R211). -/

namespace Sys2Proof.Machine

/-! ### Banks -/

/-- The bank that executes. -/
def Core.bank (c : Core) : Bank := if c.cur then c.bank1 else c.bank0

def Core.bankN (c : Core) (b : Bool) : Bank := if b then c.bank1 else c.bank0

def Core.setBankN (c : Core) (b : Bool) (k : Bank) : Core :=
  if b then { c with bank1 := k } else { c with bank0 := k }

def Core.modBankN (c : Core) (b : Bool) (f : Bank → Bank) : Core := c.setBankN b (f (c.bankN b))

/-- The executing bank changed. -/
def Core.modBank (c : Core) (f : Bank → Bank) : Core := c.modBankN c.cur f

/-- The core whose instruction executes (log 1). -/
def State.cur (s : State) : Core := s.core s.ictx.core

/-- That core changed. -/
def State.upd (s : State) (f : Core → Core) : State := s.modCore s.ictx.core f

/-! ### Predicates and base registers (R66, R67) -/

/-- The physical predicate of a name under a rotation. -/
def physP (prb : BitVec 3) (n : Nat) : Nat := if n < 8 then n else 8 + (n - 8 + prb.toNat) % 8

def Bank.readP (b : Bank) (n : Nat) : Bool := n == 0 || b.p.getLsbD (physP b.prb n)

/-- The physical base register of a name under a rotation. -/
def physB (brb : BitVec 3) (n : Nat) : Nat := (n + brb.toNat) % 8

def Bank.readB (b : Bank) (n : Nat) : BitVec 23 := sget 0 b.b (physB b.brb n)

def Bank.readQ (b : Bank) (n : Nat) : BitVec 128 := sget 0 b.q n

/-- A vector predicate of a unit: vp0 reads all-true (R66). -/
def Bank.readVP (b : Bank) (unit : Bool) (n : Nat) : BitVec 64 :=
  if n = 0 then BitVec.allOnes 64 else sget 0 (if unit then b.vp1 else b.vp0) n

/-- Writes a physical predicate; p0 discards (R66). -/
def Bank.setP (b : Bank) (n : Nat) (v : Bool) : Bank :=
  if n = 0 then b else { b with p := if v then b.p ||| (1#16 <<< n) else b.p &&& ~~~(1#16 <<< n) }

def Bank.setVP (b : Bank) (unit : Bool) (n : Nat) (mask v : BitVec 64) : Bank :=
  if n = 0 then b
  else if unit then { b with vp1 := smod 0 b.vp1 n fun o => (v &&& mask) ||| (o &&& ~~~mask) }
  else { b with vp0 := smod 0 b.vp0 n fun o => (v &&& mask) ||| (o &&& ~~~mask) }

/-! ### The register files (R61 to R64) -/

/-- Whether a scalar main-file register is released. -/
def Bank.releasedS (b : Bank) (n : Nat) : Bool := b.relS.getLsbD n

def Bank.releasedV (b : Bank) (unit : Bool) (n : Nat) : Bool := (if unit then b.relV1 else b.relV0).getLsbD n

/-- A scalar source (R61): `lit` is the bundle literal, `u` what a released register gives (R64). -/
def Bank.readS (b : Bank) (lit : W) (u : Nat → W) (r : BitVec 6) : W :=
  let n := r.toNat
  if n < 48 then (if b.releasedS n then u n else sget 0 b.s n)
  else if n < 56 then sget 0 b.sk (n - 48)
  else if n < 62 then sget 0 b.sn (n - 56)
  else if n = 62 then lit else 0

/-- A vector source (R61). -/
def Bank.readV (b : Bank) (unit : Bool) (lit : W) (u : Nat → Nat → W) (r : BitVec 6) : VReg :=
  let n := r.toNat
  if n < 48 then
    (if b.releasedV unit n then ofLanes (u n) else sget 0 (if unit then b.v1 else b.v0) n)
  else if n < 56 then sget 0 b.vk (n - 48)
  else if n < 62 then sget 0 b.vn (n - 56)
  else if n = 62 then ofLanes fun _ => lit else 0

/-- Writes a scalar register by code: the main file becomes live, codes from 56 on discard (R62, R64). -/
def Bank.setS (b : Bank) (d : BitVec 6) (v : W) : Bank :=
  let n := d.toNat
  if n < 48 then { b with s := sset 0 b.s n v, relS := b.relS &&& ~~~(1#48 <<< n) }
  else if n < 56 then { b with sk := sset 0 b.sk (n - 48) v }
  else b

/-- Writes the lanes of a mask of a vector register by code (R62, R139). A released register keeps no value, so its other
lanes become free values `u`; DEDUCED: a write with any mask, an empty one too, makes the register live (R64; log 48). -/
def Bank.setV (b : Bank) (unit : Bool) (d : BitVec 6) (mask : BitVec 64) (v : VReg) (u : Nat → W) : Bank :=
  let n := d.toNat
  let put (o : VReg) : VReg :=
    if mask = BitVec.allOnes 64 then v else mergeLanes mask v (if n < 48 ∧ b.releasedV unit n then ofLanes u else o)
  if n < 48 then
    if unit then { b with v1 := smod 0 b.v1 n put, relV1 := b.relV1 &&& ~~~(1#48 <<< n) }
    else { b with v0 := smod 0 b.v0 n put, relV0 := b.relV0 &&& ~~~(1#48 <<< n) }
  else if n < 56 then { b with vk := smod 0 b.vk (n - 48) put }
  else b

/-- Pushes a scalar result into sn0 (R63). -/
def Bank.pushS (b : Bank) (v : W) : Bank :=
  { b with sn := ssetAll 0 [] (((0, v) :: (List.range 5).map fun i => (i + 1, sget 0 b.sn i)).filter fun x => x.2 ≠ 0) }

/-- Pushes a vector result into vn0 (R63). -/
def Bank.pushV (b : Bank) (v : VReg) : Bank :=
  { b with vn := ssetAll 0 [] (((0, v) :: (List.range 5).map fun i => (i + 1, sget 0 b.vn i)).filter fun x => x.2 ≠ 0) }

/-- Releases a main-file register (R64). -/
def Bank.release (b : Bank) (file : Nat) (r : BitVec 6) : Bank :=
  if 48 ≤ r.toNat then b
  else if file = 0 then { b with relS := b.relS ||| (1#48 <<< r.toNat) }
  else if file = 1 then { b with relV0 := b.relV0 ||| (1#48 <<< r.toNat) }
  else { b with relV1 := b.relV1 ||| (1#48 <<< r.toNat) }

/-! ### Results on their way (R4, R80) -/

/-- Puts a result on its way: visible after `left` issue cycles. -/
def Core.send (c : Core) (left : Nat) (k : PendKind) : Core :=
  { c with pend := c.pend ++ [⟨left, c.cur, c.cur, k⟩] }

/-- A result that goes to a bank other than its issuer's (MTTASK). -/
def Core.sendTo (c : Core) (left : Nat) (bank : Bool) (k : PendKind) : Core :=
  { c with pend := c.pend ++ [⟨left, c.cur, bank, k⟩] }

/-- Records that a last-use bit releases a register at the end of the bundle's reads (R64); the bit is ignored on
codes from 48 on. -/
def Core.lastUse (c : Core) (file : Nat) (bit : Bool) (r : BitVec 6) : Core :=
  if bit && decide (r.toNat < 48) then c.send 0 (.release file r) else c

/-! ### Taking a trap and returning from one (R201 to R206) -/

/-- Whether M-slot work remains in flight (R176, R202). -/
def Core.matrixBusy (c : Core) : Bool :=
  !c.streams.isEmpty || !c.loads.isEmpty || !c.tileOps.isEmpty || !c.drains.isEmpty

/-- Taking a trap (R201, R205): a trap of bank 0 starts the drain, and the bundle takes no effect; a trap of bank 1 is
a handler fault. -/
def State.beginTrap (s : State) (k : Nat) (t : TrapInfo) : State :=
  let c := s.core k
  if c.cur then s.handlerFault k t.slot t.pc
  else s.setCore k { c with run := .drain (s.clkOf k) (.trap t) }

/-- The trap of the instruction that executes; the rest of its bundle is discarded. -/
def State.trap (s : State) (code : Nat) : State :=
  let t : TrapInfo := ⟨s.ictx.slot, code, s.ictx.pc⟩
  let s := s.beginTrap s.ictx.core t
  { s with ictx := { s.ictx with trap := some t } }

/-- A trap that reports another offset than its bundle's (R126). -/
def State.trapAt (s : State) (code : Nat) (pc : PC) : State :=
  let t : TrapInfo := ⟨s.ictx.slot, code, pc⟩
  let s := s.beginTrap s.ictx.core t
  { s with ictx := { s.ictx with trap := some t } }

/-- The switch to bank 1 (R205): CAUSE, TRAP_PC and CKP_PC are written and bank 1 goes to offset 0. -/
def Core.enterHandler (c : Core) (t : TrapInfo) (ckpPc : PC) : Core :=
  { c with causeSlot := BitVec.ofNat 3 t.slot, causeCode := BitVec.ofNat 16 t.code, trapPc := t.pc, ckpPc := ckpPc,
           cur := true, pc := 0, dwell := 0, run := .issue }

/-- The return to bank 0 (R122, R206): the pending entries and the remaining dwell of the checkpoint, and the bundle at
CKP_PC after them. -/
def Core.leaveHandler (c : Core) (pc : PC) : Core :=
  let k := c.ckpt
  { c with cur := false, pc := pc &&& 0x3FFFFFC#26, run := (k.map (·.after)).getD .issue,
           fence := k.bind (·.fence), fenceOps := (k.map (·.fenceOps)).getD 0,
           dwell := (k.map (·.dwell)).getD 0,
           pend := c.pend ++ (k.map (·.pend)).getD [] }

/-- A barrier copy of the core (R73). -/
def Core.bar (c : Core) (n : Nat) : Bar := sget Bar.reset c.bars n

def Core.modBar (c : Core) (n : Nat) (f : Bar → Bar) : Core := { c with bars := smod Bar.reset c.bars n f }

/-- A layer's arrival in a barrier copy, and the completion of a barrier (R134). -/
def Bar.arrived (b : Bar) (z : Nat) : Bar := { b with arr := b.arr ||| (1#4 <<< z) }
def Bar.completed (b : Bar) : Bar := { b with arr := 0, gen := !b.gen }

/-- A wait of the core in layer z is not satisfied: an arrival of its own is pending (R135), of bank 0 one that it has made again
since its last rollback: where the barrier log holds a later one, the generation of the arrivals before it has completed (R136). -/
def Core.awaits (c : Core) (n z : Nat) : Bool :=
  (c.bar n).arr.getLsbD z && (c.cur || !(c.barLog.drop c.barPos).contains n)

/-- The barrier wait of a core ends once it is satisfied (R135, R136). -/
def Core.waitOver (c : Core) (z : Nat) : Core :=
  match c.run with
  | .barWait n => if c.awaits n z then c else { c with run := .issue }
  | _ => c

/-! ### Cause codes (R200) -/

def cMalformed : Nat := 0x0001
def cIllegalSlot : Nat := 0x0002
def cPriv : Nat := 0x0003
def cPhaseIllegal : Nat := 0x0004
def cFetchPage : Nat := 0x0005
def cCtlValue : Nat := 0x0010
def cRingDesc : Nat := 0x0011
def cRingEmpty : Nat := 0x0012
def cRingFull : Nat := 0x0013
def cOpfmt : Nat := 0x0014
def cSpRange : Nat := 0x0015
def cAlign : Nat := 0x0016
def cCopyDesc : Nat := 0x0017
def cLoopForm : Nat := 0x0018
def cBarMismatch : Nat := 0x0019
def cBarRearrive : Nat := 0x001A
def cEarlyRead : Nat := 0x001B
def cCkpBudget : Nat := 0x001C
def cSwtrap : Nat := 0x0020

/-! ### The checkpoint interval (R208 to R211) -/

/-- Whether `n` more undo bytes exceed the budget (R208); bank 1 is outside every interval (R205). -/
def Core.undoOver (c : Core) (n : Nat) : Bool := !c.cur && decide (65536 < c.undoCount + n)

/-- Counts `n` undo bytes. -/
def Core.countUndo (c : Core) (n : Nat) : Core := if c.cur then c else { c with undoCount := c.undoCount + n }

/-- Holds the old byte of an address on its first write in the interval (R209). -/
def Core.holdByte (c : Core) (a : Nat) : Core :=
  { c with undo := smod none c.undo a fun o => some (o.getD (c.sp.byte a)) }

/-- Writes scratchpad bytes for a C0 write: a task's write holds the old bytes, a handler's is undone by nothing (R205). -/
def Core.writeC0 (c : Core) (bank1 : Bool) (w : List (Nat × Byte)) : Core :=
  w.foldl (fun c ab =>
    let c := if bank1 then c else c.holdByte ab.1
    { c with sp := c.sp.setByte ab.1 ab.2 }) c

/-- Writes scratchpad bytes from outside the C0 slot: an arrival voids the undo entries of its bytes (R204). -/
def Core.writeArrival (c : Core) (w : List (Nat × Byte)) : Core :=
  w.foldl (fun c ab => { c with sp := c.sp.setByte ab.1 ab.2, undo := sset none c.undo ab.1 none }) c

/-- Writes scratchpad bytes of a copy or a drain, which are not undone (R196, R204). -/
def Core.writePlain (c : Core) (w : List (Nat × Byte)) : Core :=
  w.foldl (fun c ab => { c with sp := c.sp.setByte ab.1 ab.2 }) c

/-- Holds an accumulator row on its first change in the interval (R209). -/
def Core.holdRow (c : Core) (row : Nat) : Core :=
  { c with preimg := smod none c.preimg row fun o => some (o.getD (sget 0 c.tiles row)) }

/-- One word absorbed into a signature (R214). -/
def absorb (sig w : BitVec 64) : BitVec 64 :=
  let x := (sig ^^^ w) * 0x9E3779B97F4A7C15#64
  x ^^^ (x >>> 29)

/-- Words of 64 bits of a byte string, the last zero-extended. -/
def dwords : Nat → List Byte → List (BitVec 64)
  | 0, _ => []
  | n + 1, bs =>
    match bs with
    | [] => []
    | _ => BitVec.ofNat 64 (natOfBytes (bs.take 8)) :: dwords n (bs.drop 8)

def wordsOfBytes (bs : List Byte) : List (BitVec 64) := dwords (bs.length / 8 + 1) bs

/-- The digest of an outbound operation's data (R215). -/
def digest (bs : List Byte) : BitVec 64 := (wordsOfBytes bs).foldl absorb 0

/-- Absorbs words into the signature of a rerun, when one runs (R213). -/
def Core.sign (c : Core) (ws : List (BitVec 64)) : Core :=
  match c.rerun with
  | none => c
  | some r => { c with rerun := some { r with sig := ws.foldl absorb r.sig } }

/-- What the outbound log makes of an operation (R211). -/
inductive Outbound where
  /-- It is sent, and logged when bank 0 issued it. -/
  | send
  /-- It agrees with its entry: not sent again, the result is the entry's. -/
  | suppressed (e : OutEntry)
  /-- It differs from its entry: the interval is a disagreeing rerun. -/
  | differs
deriving DecidableEq, Repr

def Core.outbound (c : Core) (op dst len : Nat) (dg : BitVec 64) : Outbound :=
  if c.cur then .send
  else
    match c.outLog[c.outPos]? with
    | none => .send
    | some e => if e.op = op ∧ e.dst = dst ∧ e.len = len ∧ e.digest = dg then .suppressed e else .differs

/-- Whether one more outbound operation exceeds the budget (R208). -/
def Core.outOver (c : Core) : Bool := !c.cur && decide (256 ≤ c.outPos)

/-- The address in the record of an outbound operation: of a C0 store its EA alone, without the layers that its log entry
holds beside it (R211, R214; log 14). -/
def recordAddr (op dst : Nat) : Nat := if op / 64 = 4 then dst % 2 ^ 24 else dst

/-- The core after an outbound operation: the log and the signature of a rerun (R211, R214). -/
def Core.logOut (c : Core) (op dst len : Nat) (dg : BitVec 64) (result : W) : Core :=
  if c.cur then c
  else
    let c := c.sign [BitVec.ofNat 64 (recordAddr op dst * 2 ^ 8 + len) ||| 1#64 <<< 63, dg]
    { c with outLog := if c.outPos < c.outLog.length then c.outLog
        else c.outLog ++ [⟨op, dst, len, dg, result, none, none, none⟩],
             outPos := c.outPos + 1 }

/-- A disagreement (R211, R136): within a rerun it is recorded; otherwise the core is retired, as at the end of R213. -/
def State.disagree (s : State) (k : Nat) : State :=
  match (s.core k).rerun with
  | some r => s.modCore k fun c => { c with rerun := some { r with disagree := true } }
  | none => s.retireCore k

/-- An outbound operation of the executing core: `act` sends it, `quiet` is its effect on the core when its log entry
stands for it. -/
def State.outOp (s : State) (op dst len : Nat) (data : List Byte) (result : W) (act : State → State)
    (quiet : OutEntry → State → State) : State :=
  let dg := if data.isEmpty then 0 else digest data
  let c := s.cur
  if c.outOver then s.trap cCkpBudget
  else
    match c.outbound op dst len dg with
    | .send => act (s.upd fun c => c.logOut op dst len dg result)
    | .suppressed e => quiet e (s.upd fun c => c.logOut op dst len dg e.result)
    | .differs => (s.upd fun c => c.logOut op dst len dg result).disagree s.ictx.core

/-! ### Scratchpad accesses (R78) -/

/-- A row of the address table of R78: 0 private, 1 multicast window, 2 alias, 3 none. -/
def spRow (a : Nat) : Nat :=
  if a < 0x3F0000 then 0 else if a < 0x400000 then 1 else if a < 0x410000 then 2 else 3

/-- A read of n bytes at a lies in one row that allows reads. -/
def readOk (a : Int) (n : Nat) : Bool :=
  decide (0 ≤ a) && (let b := a.toNat; spRow b == spRow (b + n - 1) && decide (spRow b ≤ 1))

/-- A write of n bytes at a lies in one row that allows writes. -/
def writeOk (a : Int) (n : Nat) : Bool :=
  decide (0 ≤ a) && (let b := a.toNat; spRow b == spRow (b + n - 1) && decide (spRow b ≤ 2))

/-- The bytes of a list with their addresses from a on. -/
def placed : Nat → List Byte → List (Nat × Byte)
  | _, [] => []
  | a, b :: r => (a, b) :: placed (a + 1) r

/-! ### Phase (R243, R244) -/

/-- Whether the superstep is a compute superstep. -/
def Die.compute (d : Die) : Bool := !d.phase.getLsbD 0

/-- The offset of the next bundle in code order, for the meanings that save or compute it. -/
def State.nextPc (s : State) : PC := s.ictx.next

end Sys2Proof.Machine
end

