-- ==== Sys2Proof/Machine/Operands.lean ====
section
/-! DEFINITION. The operand forms: guards, scalar and vector sources, effective addresses and ring descriptors
(03_core_state.md R61, R66 to R70; 04_core_encoding.md R87 to R97; 08_core_local_memory.md R178). -/

namespace Sys2Proof.Machine

/-! ### Guards (R87, R89) -/

/-- Whether the executing core's predicate condition holds. -/
def State.guard (s : State) (gn : Bool) (g : BitVec 4) : Bool := xor (s.cur.bank.readP g.toNat) gn

/-- The unit of a V slot: true for V1 (R82). -/
def State.unit (s : State) : Bool := s.ictx.slot == 2

/-- The active lanes of a GS field (R89); none where the whole instruction does not run. -/
def State.lanes (s : State) (gs : BitVec 5) : Option (BitVec 64) :=
  let n := gs.toNat
  let b := s.cur.bank
  if n < 16 then (if b.readP n then some (BitVec.allOnes 64) else none)
  else if n < 24 then some (b.readVP s.unit (n - 16))
  else some (~~~(b.readVP s.unit (n - 24)))

/-! ### Sources (R61, R84, R115) -/

/-- What a released register reads as (R64): a free value for each read field. -/
def State.unp (s : State) (site : Nat) (file : Nat) : Nat → Nat → W :=
  fun n l => Config.unpredictable s.fresh (s.ictx.slot * 4096 + site * 512 + file * 64 + n) l

/-- A scalar source; `site` tells the fields of one instruction apart. -/
def State.rs (s : State) (site : Nat) (r : BitVec 6) : W :=
  s.cur.bank.readS s.ictx.lit (fun n => s.unp site 0 n 0) r

/-- A vector source of a unit's file. -/
def State.rv (s : State) (unit : Bool) (site : Nat) (r : BitVec 6) : VReg :=
  s.cur.bank.readV unit s.ictx.lit (s.unp site (if unit then 2 else 1)) r

/-- The second operand of format R: an immediate when X = 1 (R115). -/
def State.rb (s : State) (x : Bool) (r : BitVec 6) : W := if x then r.signExtend 32 else s.rs 1 r

/-! ### Effective addresses (R178) -/

/-- EA with an immediate offset: `unit` is the unit of OFF (R94). -/
def State.eaImm (s : State) (bq : BitVec 3) (off : BitVec 11) (unit : Nat) : Int :=
  ((s.cur.bank.readB bq.toNat).toNat + off.toNat * unit : Nat)

/-- EA with a register offset. -/
def State.eaReg (s : State) (bq : BitVec 3) (a : BitVec 6) : Int :=
  ((s.cur.bank.readB bq.toNat).toNat : Int) + (s.rs 0 a).toInt

/-- The EA of a lane of a gather or scatter (R183). -/
def State.eaLane (s : State) (bq : BitVec 3) (v : VReg) (l : Nat) : Int :=
  ((s.cur.bank.readB bq.toNat).toNat : Int) + (lane v l).toInt

/-! ### Ring descriptors (R68, R70) -/

/-- A ring register's fields, the slot size in bytes and the slot count as counts. -/
structure Ring where
  base : Nat
  slotsz : Nat
  nslot : Nat
  te : Int
  fmt : Nat
  head : Nat
  hwrap : Bool
  tail : Nat
  twrap : Bool
  bwbase : Nat
deriving DecidableEq, Repr

def Ring.ofReg (q : BitVec 128) : Ring :=
  { base := (q.extractLsb' 0 23).toNat, slotsz := ((q.extractLsb' 32 11).toNat + 1) * 128,
    nslot := (q.extractLsb' 43 8).toNat + 1, te := (q.extractLsb' 51 8).toInt, fmt := (q.extractLsb' 59 5).toNat,
    head := (q.extractLsb' 64 8).toNat, hwrap := q.getLsbD 72, tail := (q.extractLsb' 80 8).toNat,
    twrap := q.getLsbD 88, bwbase := (q.extractLsb' 96 23).toNat }

def State.ring (s : State) (n : BitVec 3) : Ring := .ofReg (s.cur.bank.readQ n.toNat)

/-- A ring as a form that takes its HEAD finds it: after the forms of the lower slots of its bundle (R163). -/
def State.ringHead (s : State) (n : BitVec 3) : Ring :=
  let c := s.cur
  c.pend.foldl (fun r e =>
    match e.kind with
    | .qhead q v w => if q = n.toNat ∧ e.bank = c.cur ∧ e.left = 1 then { r with head := v.toNat, hwrap := w } else r
    | _ => r) (s.ring n)

/-- A ring as a form that takes its TAIL finds it. -/
def State.ringTail (s : State) (n : BitVec 3) : Ring :=
  let c := s.cur
  c.pend.foldl (fun r e =>
    match e.kind with
    | .qtail q v w => if q = n.toNat ∧ e.bank = c.cur ∧ e.left = 1 then { r with tail := v.toNat, twrap := w } else r
    | _ => r) (s.ring n)

/-- A block format code (R69). -/
def isBlockFmt (fmt : Nat) : Bool := decide (3 ≤ fmt) && decide (fmt ≤ 9)

/-- The descriptor check of R70: true where RING_DESC is not raised. -/
def Ring.ok (r : Ring) : Bool :=
  decide (r.fmt ≤ 17) && r.base % 128 == 0 && !(isBlockFmt r.fmt && r.bwbase % 2 == 1) &&
  decide (r.head < r.nslot) && decide (r.tail < r.nslot) && decide (r.base + r.nslot * r.slotsz ≤ 0x400000)

def Ring.empty (r : Ring) : Bool := r.head == r.tail && r.hwrap == r.twrap
def Ring.full (r : Ring) : Bool := r.head == r.tail && r.hwrap != r.twrap

/-- The offset of a slot (R68). -/
def Ring.slotAt (r : Ring) (n : Nat) : Nat := r.base + n * r.slotsz

/-- A pointer advanced (R163): the slot and its wrap bit. -/
def Ring.next (r : Ring) (p : Nat) (w : Bool) : Nat × Bool := if p + 1 < r.nslot then (p + 1, w) else (0, !w)

/-- HEAD advanced, visible after latency 1 (R163). -/
def Core.advHead (c : Core) (q : Nat) (r : Ring) : Core :=
  let p := r.next r.head r.hwrap
  c.send 1 (.qhead q (BitVec.ofNat 8 p.1) p.2)

/-- TAIL advanced, visible after latency 1 (R163). -/
def Core.advTail (c : Core) (q : Nat) (r : Ring) : Core :=
  let p := r.next r.tail r.twrap
  c.send 1 (.qtail q (BitVec.ofNat 8 p.1) p.2)

/-- The reserved bits of a ring register read zero (R70). -/
def ringMask : BitVec 128 := 0x007FFFFF_01FF01FF_FFFFFFFF_007FFFFF#128

/-- A word of a ring register written (R120). -/
def Bank.setQWord (b : Bank) (n w : Nat) (v : W) : Bank :=
  { b with q := smod 0 b.q n fun o =>
      ((o &&& ~~~((0xFFFFFFFF#128) <<< (32 * w))) ||| (v.zeroExtend 128 <<< (32 * w))) &&& ringMask }

/-- HEAD and HWRAP of a ring register written. -/
def Bank.setQHead (b : Bank) (n : Nat) (v : BitVec 8) (w : Bool) : Bank :=
  { b with q := smod 0 b.q n fun o =>
      (o &&& ~~~((0x1FF#128) <<< 64)) ||| (((BitVec.ofBool w).append v).zeroExtend 128 <<< 64) }

def Bank.setQTail (b : Bank) (n : Nat) (v : BitVec 8) (w : Bool) : Bank :=
  { b with q := smod 0 b.q n fun o =>
      (o &&& ~~~((0x1FF#128) <<< 80)) ||| (((BitVec.ofBool w).append v).zeroExtend 128 <<< 80) }

end Sys2Proof.Machine
end

