-- ==== Sys2Proof/Machine/Flags.lean ====
section
/-! DEFINITION. The sticky flags of the lanes, the register that shows them, and the stochastic generators
(01_element_formats.md R26, R27; 02_element_cell.md R56; 03_core_state.md R76). -/

namespace Sys2Proof.Machine

def Flags.toBits (f : Flags) : BitVec 5 := BitVec.ofNat 5 f.bits

/-- ORs flags into a core lane (R56). -/
def Bank.orFlag (b : Bank) (l : Nat) (f : Flags) : Bank :=
  if f = Flags.none then b else { b with flags := smod 0 b.flags l fun o => o ||| f.toBits }

/-- ORs the flags of the active lanes of a unit. -/
def Bank.orFlags (b : Bank) (unit : Bool) (fs : List (Nat × Flags)) : Bank :=
  fs.foldl (fun b lf => b.orFlag ((if unit then 64 else 0) + lf.1) lf.2) b

/-- The OR of the flags of the lanes of a unit (R76). -/
def Bank.unitFlags (b : Bank) (unit : Bool) : BitVec 5 :=
  (srange b.flags (if unit then 64 else 0) (if unit then 128 else 64)).foldl (fun a x => a ||| x.2) 0

/-- FLAGS as read (R76). -/
def Bank.flagsReg (b : Bank) : W :=
  ((b.unitFlags true).zeroExtend 32 <<< 8) ||| (b.unitFlags false).zeroExtend 32

/-- FLAGS_CLEAR: a write of FLAGS clears in every lane of a unit the flags whose bits it sets (R76). -/
def Bank.clearFlags (b : Bank) (v : W) : Bank :=
  { b with flags := (b.flags.map fun x =>
      (x.1, x.2 &&& ~~~(if x.1 < 64 then v.extractLsb' 0 5 else v.extractLsb' 8 5))).filter fun x => x.2 ≠ 0 }

/-- The flags of a lane after the bits of a mask are cleared (R149). -/
def Bank.clearLane (b : Bank) (l : Nat) (mask : BitVec 5) : Bank :=
  { b with flags := smod 0 b.flags l fun o => o &&& ~~~mask }

/-- The generator states that a seed gives (R26). -/
def seedAll (seed : W) : SMap W := (List.range 128).map fun l => (l, seedLane seed l)

/-- SR_SEED_RESEED (R76): all 128 generators of the bank. -/
def Bank.reseed (b : Bank) (v : W) : Bank := { b with srSeed := v, gen := seedAll v }

/-- The next draw of a core lane and the bank after it (R27). -/
def Bank.draw (b : Bank) (l : Nat) : Nat × Bank :=
  let g := genNext (sget 0 b.gen l)
  (genDraw g, { b with gen := sset 0 b.gen l g })

/-- Draws for n roundings of a core lane under a mode; only RSX draws (R27). -/
def Bank.draws (b : Bank) (mode : RMode) (l : Nat) : Nat → List Nat × Bank
  | 0 => ([], b)
  | n + 1 =>
    if mode = .rsx then
      let d := b.draw l
      let r := d.2.draws mode l n
      (d.1 :: r.1, r.2)
    else
      let r := b.draws mode l n
      (0 :: r.1, r.2)

end Sys2Proof.Machine
end

