-- ==== Sys2Proof/Machine/FpFun.lean ====
section
/-! DEFINITION. The function unit's exact values (06_core_vector.md R148): 2^a, log2(a), 1/a and 1/√a, each as a
significand long enough for any rounding of FP32 and a sticky bit.  The two transcendental functions are enclosed
by scaled integers, and the precision doubles until the enclosure fixes the significand. -/

namespace Sys2Proof.Machine

/-- Lower and upper bounds of Σ over n terms of t^(2i+1)/(2i+1), scaled by 2^p; t and t² are scaled bounds. -/
def atanhSum (p : Nat) (t2lo t2hi : Nat) : Nat → Nat → Nat → Nat → Nat × Nat
  | 0, _, _, phi => (0, phi + 4)
  | n + 1, i, plo, phi =>
    let r := atanhSum p t2lo t2hi n (i + 1) (plo * t2lo / 2 ^ p) (phi * t2hi / 2 ^ p + 1)
    (r.1 + plo / (2 * i + 1), r.2 + phi / (2 * i + 1) + 1)

/-- Bounds of ln(num/den) for den ≤ num < 2·den, scaled by 2^p. -/
def lnBounds (p num den : Nat) : Nat × Nat :=
  let t := (num - den) * 2 ^ p / (num + den)
  let t2lo := t * t / 2 ^ p
  let t2hi := (t + 1) * (t + 1) / 2 ^ p + 1
  let r := atanhSum p t2lo t2hi (p / 3 + 10) 0 t (t + 1)
  (2 * r.1, 2 * r.2)

/-- Bounds of ln 2, scaled by 2^p: 2·atanh(1/3). -/
def ln2Bounds (p : Nat) : Nat × Nat :=
  let t := 2 ^ p / 3
  let r := atanhSum p (t * t / 2 ^ p) ((t + 1) * (t + 1) / 2 ^ p + 1) (p / 3 + 10) 0 t (t + 1)
  (2 * r.1, 2 * r.2)

/-- Bounds of Σ over n terms of y^i/i!, scaled by 2^p. -/
def expSum (p ylo yhi : Nat) : Nat → Nat → Nat → Nat → Nat × Nat
  | 0, _, _, thi => (0, thi + 4)
  | n + 1, i, tlo, thi =>
    let r := expSum p ylo yhi n (i + 1) (tlo * ylo / 2 ^ p / (i + 1)) (thi * yhi / 2 ^ p / (i + 1) + 1)
    (r.1 + tlo, r.2 + thi)

/-- floor(2^(num/2^k) · 2^64) for 0 < num < 2^k. -/
def exp2Frac : Nat → Nat → Nat → Nat → Nat
  | 0, _, _, _ => 2 ^ 64
  | fuel + 1, p, num, k =>
    let l := ln2Bounds p
    let r := expSum p (num * l.1 / 2 ^ k) (num * l.2 / 2 ^ k + 1) (p / 4 + 20) 0 (2 ^ p) (2 ^ p)
    if r.1 / 2 ^ (p - 64) = r.2 / 2 ^ (p - 64) then r.1 / 2 ^ (p - 64) else exp2Frac fuel (2 * p) num k

/-- 2^a (R148). -/
def xexp2 : XVal → XVal
  | .nan => .nan
  | .inf neg => if neg then .zero false else .inf false
  | .zero _ => .fin false 1 0 false
  | .fin neg m e _ =>
    if 0 ≤ e then .fin false 1 (if neg then -((m * 2 ^ (Nat.min e.toNat 200) : Nat) : Int) else (m * 2 ^ (Nat.min e.toNat 200) : Nat)) false
    else
      let k := (-e).toNat
      let whole : Int := if neg then -((m + 2 ^ k - 1) / 2 ^ k : Nat) else (m / 2 ^ k : Nat)
      let num : Nat := if neg then ((m + 2 ^ k - 1) / 2 ^ k) * 2 ^ k - m else m % 2 ^ k
      if num = 0 then .fin false 1 whole false
      else .fin false (exp2Frac 12 128 num k) (whole - 64) true

/-- floor(|w + log2(num/den)| · 2^100) for den < num < 2·den. -/
def log2Scaled : Nat → Nat → Int → Nat → Nat → Nat
  | 0, _, _, _, _ => 1
  | fuel + 1, p, w, num, den =>
    let l := ln2Bounds p
    let n := lnBounds p num den
    let lo : Int := (n.1 * 2 ^ p / l.2 : Nat)
    let hi : Int := (n.2 * 2 ^ p / l.1 + 1 : Nat)
    let a := (w * 2 ^ p + lo).natAbs
    let b := (w * 2 ^ p + hi).natAbs
    let s := 2 ^ (p - 100)
    if Nat.min a b / s = Nat.max a b / s then Nat.min a b / s else log2Scaled fuel (2 * p) w num den

/-- log2(a) (R148). -/
def xlog2 : XVal → XVal
  | .nan => .nan
  | .inf neg => if neg then .nan else .inf false
  | .zero _ => .inf true
  | .fin true _ _ _ => .nan
  | .fin false m e _ =>
    let w : Int := e + m.log2
    if m = 2 ^ m.log2 then XVal.ofInt w
    else .fin (decide (w < 0)) (log2Scaled 12 256 w m (2 ^ m.log2)) (-100) true

/-- 1/a (R148). -/
def xrcp : XVal → XVal
  | .nan => .nan
  | .inf neg => .zero neg
  | .zero neg => .inf neg
  | .fin neg m e _ =>
    let k := bitLen m + 64
    .fin neg (2 ^ k / m) (-e - k) (decide (2 ^ k % m ≠ 0))

/-- 1/√a (R148). -/
def xrsq : XVal → XVal
  | .nan => .nan
  | .inf neg => if neg then .nan else .zero false
  | .zero neg => .inf neg
  | .fin true _ _ _ => .nan
  | .fin false m e _ =>
    let (m, e) := if e % 2 = 0 then (m, e) else (2 * m, e - 1)
    let k := bitLen m + 64
    let r := Nat.sqrt (2 ^ (2 * k) / m)
    .fin false r (-(e / 2) - k) (decide (r * r * m ≠ 2 ^ (2 * k)))

end Sys2Proof.Machine
end

