-- ==== Sys2Proof/Machine/Lanes.lean ====
section
/-! DEFINITION. What the vector units compute: the value, flags and generator advances of a V result, formed when
it becomes visible (06_core_vector.md R139 to R158; 02_element_cell.md R55, R56; 09_core_faults.md R206). -/

namespace Sys2Proof.Machine

/-! ### Elements of a lane (R54) -/

/-- Sub-element i of width n of a lane. -/
def subElem (w : W) (n i : Nat) : Nat := w.toNat / 2 ^ (n * i) % 2 ^ n

/-- The lane that sub-elements of width n make, the first lowest. -/
def ofSubs (n : Nat) (l : List Nat) : W := BitVec.ofNat 32 (l.foldr (fun x a => x % 2 ^ n + 2 ^ n * a) 0)

/-- Applies a rounding operation to each sub-element of a lane; the flags are ORed (R56). -/
def subsMap (n k : Nat) (ds : List Nat) (f : Nat → Nat → Nat × Flags) : W × Flags :=
  let r := (List.range k).map fun i => f i (ds.getD i 0)
  (ofSubs n (r.map (·.1)), r.foldl (fun a x => a.or x.2) Flags.none)

/-- Forms the active lanes of a unit: lane l draws `nd l` times under RSX and sets its flags. Masked lanes give zero. -/
def perLane (b : Bank) (unit : Bool) (mask : BitVec 64) (mode : RMode) (nd : Nat → Nat) (f : Nat → List Nat → W × Flags) :
    VReg × Bank :=
  let r := (List.range 64).foldl (fun (acc : List W × Bank) l =>
    if mask.getLsbD l then
      let core := (if unit then 64 else 0) + l
      let d := acc.2.draws mode core (nd l)
      let x := f l d.1
      (x.1 :: acc.1, d.2.orFlag core x.2)
    else (0 :: acc.1, acc.2)) ([], b)
  (BitVec.ofNat 2048 (packWords r.1.reverse), r.2)

/-! ### Arithmetic (R142 to R144) -/

def FTy.fmt : FTy → FloatFmt
  | .f32 => Sys2Proof.Machine.fp32
  | .f16 => Sys2Proof.Machine.fp16
  | .bf16 => Sys2Proof.Machine.bf16

/-- Sub-elements of a lane. -/
def FTy.count : FTy → Nat
  | .f32 => 1
  | _ => 2

/-- The exact result of a float form (R142). -/
def FOp.exact (op : FOp) (rdn : Bool) (a b : XVal) : XVal :=
  match op with
  | .add => XVal.add rdn a b
  | .sub => XVal.add rdn a b.negate
  | .mul => XVal.mul a b
  | .min => if a.isNan || b.isNan then .nan else XVal.least a b
  | .max => if a.isNan || b.isNan then .nan else XVal.greatest a b

/-- VMIN and VMAX never draw (R27). -/
def FOp.draws : FOp → Bool
  | .min => false
  | .max => false
  | _ => true

/-- An integer form on signed sub-elements (R144). -/
def IOp.exact (op : IOp) (a b : Int) : Int :=
  match op with
  | .add => a + b
  | .sub => a - b
  | .mul => a * b
  | .min => if a < b then a else b
  | .max => if a < b then b else a

/-- One sub-element of an integer form (R144). -/
def intElem (op : IOp) (n : Nat) (sat : Bool) (a b : Nat) : Nat × Flags :=
  let x := op.exact (sextNat n a) (sextNat n b)
  let y := if sat then satInt x (-(2 ^ (n - 1) : Nat)) ((2 ^ (n - 1) : Nat) - 1) else x
  ((y % (2 ^ n : Nat)).toNat, if y ≠ x then Flags.ovfOnly else Flags.none)

/-! ### Reductions (R147) -/

/-- The result of a reduction over the active elements, with its flags; `u` is the one draw. -/
def redValue (op : RedOp) (mode : RMode) (u : Nat) (xs : List W) : W × Flags :=
  let fs := xs.map fun w => fp32.decode w.toNat
  let enc (m : RMode) (v : XVal) : W × Flags :=
    let r := fp32.encode m false u v
    (BitVec.ofNat 32 r.1, r.2)
  let fold (f : XVal → XVal → XVal) : XVal :=
    match fs with
    | [] => .zero false
    | a :: r => r.foldl f a
  let is := xs.map fun w => w.toInt
  match op with
  | .addF => enc mode (fold (XVal.add (decide (mode = .rdn))))
  | .maxF => enc .rne (if fs.any XVal.isNan then .nan else fold XVal.greatest)
  | .minF => enc .rne (if fs.any XVal.isNan then .nan else fold XVal.least)
  | .addI =>
    let x := is.foldl (· + ·) 0
    let y := satInt x (-2147483648) 2147483647
    (BitVec.ofInt 32 y, if y ≠ x then Flags.ovfOnly else Flags.none)
  | .maxI => (BitVec.ofInt 32 (is.foldl (fun a x => if a < x then x else a) (is.headD 0)), Flags.none)
  | .minI => (BitVec.ofInt 32 (is.foldl (fun a x => if x < a then x else a) (is.headD 0)), Flags.none)

/-- The lowest active lane. -/
def lowLane (mask : BitVec 64) : Nat := ((List.range 64).filter fun l => mask.getLsbD l).headD 0

def formRed (b : Bank) (unit : Bool) (mask : BitVec 64) (op : RedOp) (mode : RMode) (a : VReg) : VReg × Bank :=
  let xs := ((List.range 64).filter fun l => mask.getLsbD l).map (lane a)
  let d := if op = .addF ∧ mask ≠ 0 then b.draws mode ((if unit then 64 else 0) + lowLane mask) 1 else ([], b)
  let r := redValue op mode (d.1.headD 0) xs
  perLane d.2 unit mask .rne (fun _ => 0) fun _ _ => r

/-! ### Functions (R148) -/

def FnOp.exact : FnOp → XVal → XVal
  | .exp2 => xexp2
  | .log2 => xlog2
  | .rcp => xrcp
  | .rsq => xrsq

/-! ### Conversion (R150 to R152) -/

/-- Elements of a lane in a format (R150). -/
def elemCount (fmt : Nat) : Nat := 32 / elemWidth fmt

/-- The width of a code, within its element (R151). -/
def codeWidth (fmt : Nat) : Nat := if fmt = 1 then 6 else if fmt = 2 then 4 else elemWidth fmt

/-- The conversion of a register (R151).  DEDUCED: a copy in one format rounds nothing and yet draws under RSX for each
element, as R27 says of every element result (log 49). -/
def formCvt (b : Bank) (unit : Bool) (df sf : Nat) (teS teD : Int) (sat : Bool) (mode : RMode) (a : VReg) :
    VReg × Bank :=
  let ks := elemCount sf
  let kd := elemCount df
  let n := 64 * Nat.min ks kd
  let src (i : Nat) : Nat := subElem (lane a (i / ks)) (elemWidth sf) (i % ks)
  let copy := df == sf && (!isLogFmt df || decide (teS = teD))
  perLane b unit (BitVec.allOnes 64) mode (fun l => if (l + 1) * kd ≤ n then kd else 0) fun l ds =>
    subsMap (elemWidth df) kd ds fun i u =>
      let e := l * kd + i
      if n ≤ e then (0, Flags.none)
      else if copy then (src e % 2 ^ codeWidth df, Flags.none)
      else encodeElem df teD mode sat u (decodeElem sf teS (src e))

/-! ### Blocks (R153 to R158) -/

/-- Block word j of a register (R153). -/
def blockWord (v : VReg) (j : Nat) : Nat := subElem (lane v (j / 2)) 16 (j % 2)

/-- The FP32 values of the lanes of block j. -/
def blockElems (t : BlkTy) (a : VReg) (j : Nat) : List XVal :=
  (List.range t.size).map fun i => fp32.decode (lane a (j * t.size + i)).toNat

def formBmax (b : Bank) (unit : Bool) (t : BlkTy) (a : VReg) : VReg × Bank :=
  let sel := (List.range (64 / t.size)).map fun j => selectBlock t 0 (blockElems t a j)
  let v : Nat := (sel.map (·.1)).foldr (fun x acc => x + 65536 * acc) 0
  (BitVec.ofNat 2048 v,
    b.orFlags unit ((List.range sel.length).map fun j => (j / 2, (sel.getD j (0, Flags.none)).2)))

/-- The bits of a code. -/
def BlkTy.bits (t : BlkTy) : Nat := if t.isB4 then 4 else 8

/-- A register of packed codes, element 0 lowest (R17, R153). -/
def packCodes (n : Nat) (l : List Nat) : Nat := l.foldr (fun x a => x % 2 ^ n + 2 ^ n * a) 0

/-- One element of VBCVT: element e of a block under its block word (R155). -/
def blkElem (t : BlkTy) (w i : Nat) (mode : RMode) (u : Nat) (x : XVal) : Nat × Flags :=
  if blkNan t w then (0, Flags.nanNfin) else blkEncodeElem t (blkScale t w i) mode u x

def formBcvt (b : Bank) (unit : Bool) (t : BlkTy) (mode : RMode) (a bw : VReg) : VReg × Bank :=
  let r := perLane b unit (BitVec.allOnes 64) mode (fun _ => 1) fun l ds =>
    let x := blkElem t (blockWord bw (l / t.size)) (l % t.size) mode (ds.headD 0) (fp32.decode (lane a l).toNat)
    (BitVec.ofNat 32 x.1, x.2)
  (BitVec.ofNat 2048 (packCodes t.bits ((List.range 64).map fun l => (lane r.1 l).toNat)), r.2)

/-- The dequantised lanes (R157).  DEDUCED: code 0x80 of an E4M3 element is its format's −0, and so FP32 −0 (R22; log 49). -/
def formDq (b : Bank) (unit : Bool) (t : BlkTy) (a bw : VReg) : VReg × Bank :=
  perLane b unit (BitVec.allOnes 64) .rne (fun _ => 0) fun l _ =>
    let w := blockWord bw (l / t.size)
    let code := a.toNat / 2 ^ (t.bits * l) % 2 ^ t.bits
    let r := fp32.encode .rne false 0 (blkDecode t w (l % t.size) code 0)
    (BitVec.ofNat 32 r.1, r.2)

/-- Element (r, c) of the region of VQDUAL (R158). -/
def dualElem (regs : List VReg) (r c : Nat) : XVal :=
  fp32.decode (lane (regs.getD (r / 4) 0) (16 * (r % 4) + c)).toNat

/-- VQDUAL: the codes of D and the block words of D + 1 (R158). -/
def formDual (b : Bank) (unit : Bool) (t : BlkTy) (mode : RMode) (regs : List VReg) : VReg × VReg × Bank :=
  let ix := List.range 16
  let rows := ix.map fun r => selectBlock t 0 (ix.map fun c => dualElem regs r c)
  let cols := ix.map fun c => selectBlock t 0 (ix.map fun r => dualElem regs r c)
  let rw (r : Nat) := rows.getD r (0, Flags.none)
  let cw (c : Nat) := cols.getD c (0, Flags.none)
  let words := rows.map (·.1) ++ cols.map (·.1)
  -- lane l holds the elements (4k + l/16, l%16); its eight codes, row copy first, k ascending
  let enc (l : Nat) (ds : List Nat) : List (Nat × Flags) :=
    let c := l % 16
    ((List.range 4).map fun k =>
      let r := 4 * k + l / 16
      blkElem t (rw r).1 c mode (ds.getD k 0) (dualElem regs r c)) ++
    ((List.range 4).map fun k =>
      let r := 4 * k + l / 16
      blkElem t (cw c).1 r mode (ds.getD (4 + k) 0) (dualElem regs r c))
  let r := perLane b unit (BitVec.allOnes 64) mode (fun _ => 8) fun l ds =>
    let es := enc l ds
    let blk := ((List.range 4).map fun k => (rw (4 * k + l / 16)).2) ++ [(cw (l % 16)).2]
    (ofSubs 4 (es.map (·.1)), blk.foldl Flags.or (es.foldl (fun a x => a.or x.2) Flags.none))
  let code (r' c k0 : Nat) : Nat := subElem (lane r.1 (16 * (r' % 4) + c)) 4 (k0 + r' / 4)
  -- lane of (r', c): l = 16·(r' mod 4) + c holds register r'/4, that is element row 4k + l/16 of k = r'/4
  let rowCopy := (ix.map fun r' => ix.map fun c => code r' c 0).flatten
  let colCopy := (ix.map fun c => ix.map fun r' => code r' c 4).flatten
  (BitVec.ofNat 2048 (packCodes 4 (rowCopy ++ colCopy)),
    BitVec.ofNat 2048 (words.foldr (fun x acc => x + 65536 * acc) 0), r.2)

/-! ### Forming a result (R206) -/

/-- The value of a V result, that of D + 1 for VQDUAL, and the bank with the flags set and the generators advanced. -/
def formV (b : Bank) (r : VRes) : VReg × VReg × Bank :=
  match r.form with
  | .value => (if r.mask = BitVec.allOnes 64 then r.a else mergeLanes r.mask r.a 0, 0, b)
  | .fbin op t =>
    let f := t.fmt
    let x := perLane b r.unit r.mask r.mode (fun _ => if op.draws then t.count else 0) fun l ds =>
      subsMap f.width t.count ds fun i u =>
        f.encode r.mode false u (op.exact (decide (r.mode = .rdn)) (f.decode (subElem (lane r.a l) f.width i))
          (f.decode (subElem (lane r.b l) f.width i)))
    (x.1, 0, x.2)
  | .fma t =>
    let f := t.fmt
    let x := perLane b r.unit r.mask r.mode (fun _ => t.count) fun l ds =>
      subsMap f.width t.count ds fun i u =>
        f.encode r.mode false u (XVal.add (decide (r.mode = .rdn))
          (XVal.mul (f.decode (subElem (lane r.a l) f.width i)) (f.decode (subElem (lane r.b l) f.width i)))
          (f.decode (subElem (lane r.c l) f.width i)))
    (x.1, 0, x.2)
  | .iarith op n sat =>
    let x := perLane b r.unit r.mask .rne (fun _ => 0) fun l _ =>
      subsMap n (32 / n) [] fun i _ => intElem op n sat (subElem (lane r.a l) n i) (subElem (lane r.b l) n i)
    (x.1, 0, x.2)
  | .red op =>
    let x := formRed b r.unit r.mask op r.mode r.a
    (x.1, 0, x.2)
  | .fn op =>
    let x := perLane b r.unit r.mask r.mode (fun _ => 1) fun l ds =>
      let e := fp32.encode r.mode false (ds.headD 0) (op.exact (fp32.decode (lane r.a l).toNat))
      (BitVec.ofNat 32 e.1, e.2)
    (x.1, 0, x.2)
  | .cvt df sf teS teD sat =>
    let x := formCvt b r.unit df sf teS teD sat r.mode r.a
    (x.1, 0, x.2)
  | .bmax bt =>
    let x := formBmax b r.unit (.ofBt bt) r.a
    (x.1, 0, x.2)
  | .bcvt bt =>
    let x := formBcvt b r.unit (.ofBt bt) r.mode r.a r.b
    (x.1, 0, x.2)
  | .qdual bt => formDual b r.unit (.ofBt bt) r.mode [r.a, r.b, r.c, r.e]
  | .dq bt =>
    let x := formDq b r.unit (.ofBt bt) r.a r.b
    (x.1, 0, x.2)

/-- A V result becomes visible: the flags, the draws, the destination and the push (R56, R62, R63, R139). -/
def Bank.applyV (b : Bank) (r : VRes) (u : Nat → Nat → W) : Bank :=
  let x := formV b r
  let b := x.2.2.setV r.unit r.d r.mask x.1 (u r.d.toNat)
  let b := match r.form with
    | .qdual _ => b.setV r.unit (r.d + 1) r.mask x.2.1 (u (r.d.toNat + 1))
    | _ => b
  if r.push then b.pushV x.1 else b

end Sys2Proof.Machine
end

