-- ==== Sys2Proof/Machine/Fetch.lean ====
section
/-! DEFINITION. Fetching: the instruction memory, the code page map, a bundle at an offset and the scan of a loop
body (03_core_state.md R79; 04_core_encoding.md R82, R86; 05_core_scalar_branch.md R126). -/

namespace Sys2Proof.Machine

/-- A code page map entry: V in bit 31, the page in [13:0] (R79). -/
def Core.pageEntry (c : Core) (n : Nat) : W := sget 0 c.codeMap n

def entryHolds (e : W) (page : Nat) : Bool := e.getLsbD 31 && e.toNat % 16384 == page

/-- The frame whose valid entry holds a page. -/
def Core.frameOf (c : Core) (page : Nat) : Option Nat :=
  (c.codeMap.find? fun x => entryHolds x.2 page).map (·.1)

/-- The instruction-memory address of a code byte of a bank: bank 0 through the map, bank 1 in frames 60 to 63 (R79);
none raises FETCH_PAGE. -/
def Core.codeAddr (c : Core) (bank1 : Bool) (pc : Nat) : Option Nat :=
  if bank1 then (if pc < 0x4000 then some (60 * 4096 + pc) else none)
  else (c.frameOf (pc / 4096 % 16384)).map fun f => f * 4096 + pc % 4096

/-- n bytes from an offset; every page they lie on must be mapped (R86). -/
def Core.codeBytes (c : Core) (bank1 : Bool) (pc n : Nat) : Option (List Byte) :=
  (List.range n).mapM fun i => (c.codeAddr bank1 (pc + i)).map c.imem.byte

/-- The header word at an offset. -/
def Core.headerAt (c : Core) (bank1 : Bool) (pc : Nat) : Option W :=
  match c.codeBytes bank1 pc 4 with
  | none => none
  | some bs => some (BitVec.ofNat 32 (natOfBytes bs))

/-- The bytes of the bundle at an offset, as long as its header says (R82). -/
def Core.bundleBytes (c : Core) (bank1 : Bool) (pc : Nat) : Option (List Byte) :=
  match c.headerAt bank1 pc with
  | none => none
  | some hw => c.codeBytes bank1 pc (Header.ofWord hw).size

/-- The offset after n bundles in code order, from their headers; an offset whose header is unmapped is the error. -/
def Core.skip (c : Core) (bank1 : Bool) : Nat → PC → Except PC PC
  | 0, pc => .ok pc
  | n + 1, pc =>
    match c.headerAt bank1 pc.toNat with
    | none => .error pc
    | some hw => c.skip bank1 n (pc + BitVec.ofNat 26 (Header.ofWord hw).size)

end Sys2Proof.Machine
end

