-- ==== Sys2Proof/Machine/Scalar.lean ====
section
/-! DEFINITION. The scalar instructions: arithmetic, compares, the moves between register classes, TRAPI and RFT
(05_core_scalar_branch.md R115 to R122), and the control registers (03_core_state.md R74 to R77). -/

namespace Sys2Proof.Machine

/-! ### Where an instruction may execute (R98, R106, R244) -/

/-- A form of bank 1 only: PRIV in bank 0, whatever the guard. -/
def bank1Only (s : State) (f : State → Out) : Out := if s.cur.cur then f s else .next (s.trap cPriv)

/-- The superstep of the executing core's die is a compute superstep. -/
def State.compute (s : State) : Bool := (s.die (dieOf s.ictx.core)).compute

/-- A form that a compute superstep forbids: PHASE_ILLEGAL, whatever the guard. -/
def exchangeOnly (s : State) (f : State → Out) : Out := if s.compute then .next (s.trap cPhaseIllegal) else f s

/-- A form that an exchange superstep forbids. -/
def computeOnly (s : State) (f : State → Out) : Out := if s.compute then f s else .next (s.trap cPhaseIllegal)

/-! ### Format R and format P -/

/-- The release of the sources of format R (R64): in either case of the guard (R87). -/
def Core.relR (c : Core) (f : FmtR) : Core := (c.lastUse 0 f.la f.a).lastUse 0 f.lb f.b

/-- An S operation: the result after its latency, pushed into sn0 (R115). -/
def sOp (f : FmtR) (lat : Nat) (g : W → W → W) (s : State) : Out :=
  let r := g (s.rs 0 f.a) (s.rb f.x f.b)
  if s.guard f.gn f.g then .next (s.upd fun c => (c.send lat (.sres f.d r)).relR f)
  else .next (s.upd fun c => c.relR f)

/-- An S operation with one source. -/
def sUn (f : FmtRA) (g : W → W) (s : State) : Out :=
  let r := g (s.rs 0 f.a)
  if s.guard f.gn f.g then .next (s.upd fun c => (c.send 1 (.sres f.d r)).lastUse 0 f.la f.a)
  else .next (s.upd fun c => c.lastUse 0 f.la f.a)

/-- An S result that reads no register by code. -/
def sGet (gn : Bool) (g : BitVec 4) (d : BitVec 6) (r : W) (s : State) : Out :=
  if s.guard gn g then .next (s.upd fun c => c.send 1 (.sres d r)) else .next s

/-- The sum clipped to the signed range (R117). -/
def satW (x : Int) : W := BitVec.ofInt 32 (satInt x (-2147483648) 2147483647)

/-- The high half of a 64-bit product. -/
def hiW (x : Int) : W := BitVec.ofInt 32 (x / 4294967296)

/-- CLZ (R117). -/
def clzW (a : W) : W := BitVec.ofNat 32 (32 - bitLen a.toNat)

/-- POPC (R117). -/
def popcW (a : W) : W := BitVec.ofNat 32 ((List.range 32).filter fun i => a.getLsbD i).length

/-- What a combining type writes to P1 and P2: none where it writes nothing (R88). -/
def combine (ct : BitVec 3) (guard c : Bool) : Option Bool × Option Bool :=
  match ct.toNat, guard, c with
  | 0, true, c => (some c, some !c)
  | 1, true, c => (some c, some !c)
  | 1, false, _ => (some false, some false)
  | 2, true, false => (some false, some true)
  | 3, true, true => (some false, some true)
  | 4, true, true => (some true, some false)
  | 5, true, false => (some true, some false)
  | 6, true, true => (some true, none)
  | 6, true, false => (none, some true)
  | _, _, _ => (none, none)

/-- A compare: it writes the physical predicates that its names select at issue (R118). -/
def sCmp (f : FmtP) (c : W → W → Bool) (s : State) : Out :=
  let b := s.cur.bank
  let r := combine f.ct (b.readP f.g.toNat) (c (s.rs 0 f.a) (s.rs 1 f.b))
  let w (p : BitVec 4) (v : Option Bool) : List (Nat × Bool) := (v.map fun x => (physP b.prb p.toNat, x)).toList
  .next (s.upd fun k => k.send 1 (.preds (w f.p1 r.1 ++ w f.p2 r.2)))

/-! ### Control registers (R74 to R77, R124) -/

def LoopRegs.lstat (l : LoopRegs) : W :=
  BitVec.ofNat 32 (packFields [(17, 0), (1, l.pass32.toNat), (1, l.act.toNat), (1, l.div.toNat), (1, l.drn.toNat),
    (3, l.nst.toNat), (8, l.len.toNat)])

/-- MSTAT (R72). -/
def Core.mstat (c : Core) : W :=
  BitVec.ofNat 32 (packFields [(20, 0), (4, c.pfmt1.toNat), (4, c.pfmt0.toNat), (3, 0), (1, c.act.toNat)])

/-- ROT (R76). -/
def Bank.rotReg (b : Bank) : W := BitVec.ofNat 32 (b.prb.toNat * 16 + b.brb.toNat)

/-- A control register as the executing bank reads it. -/
def State.readCtl (s : State) (sel : BitVec 6) : W :=
  let k := s.ictx.core
  let c := s.cur
  let b := c.bank
  let l := b.loop
  let d := s.die (dieOf k)
  let x := s.col (colOf k)
  match sel.toNat with
  | 0x00 => coreId k
  | 0x01 => c.coord
  | 0x02 => c.stage.zeroExtend 32
  | 0x03 => d.phase.extractLsb' 0 32
  | 0x04 => (d.phase.extractLsb' 32 16).zeroExtend 32
  | 0x05 => c.icycle
  | 0x08 => b.flagsReg
  | 0x09 => b.round.zeroExtend 32
  | 0x0A => b.srSeed
  | 0x0B => b.rotReg
  | 0x0C => c.mstat
  | 0x10 => x.mcmask.zeroExtend 32
  | 0x11 => x.vbSlotsNext.getD x.vbSlots
  | 0x12 => (x.vbBankNext.getD x.vbBank).zeroExtend 32
  | 0x18 => causeWord c.causeSlot.toNat c.causeCode.toNat
  | 0x19 => c.trapPc.zeroExtend 32
  | 0x1A => c.ckpPc.zeroExtend 32
  | 0x1B => c.corr
  | 0x1C => c.debugPend.toNat
  | 0x1D => c.cpsel.zeroExtend 32
  | 0x1E => c.pageEntry c.cpsel.toNat
  | 0x20 => l.trip
  | 0x21 => l.pass
  | 0x22 => l.idx
  | 0x23 => l.lstat
  | 0x24 => l.body.zeroExtend 32
  | 0x25 => l.lpc.zeroExtend 32
  | 0x26 => l.res
  | 0x27 => l.rem
  | n => if 0x28 ≤ n ∧ n < 0x30 then sget 0 l.linc (n - 0x28) else 0

/-- A control register that bank 0 may not write (R74, R124). -/
def bank1Reg (sel : BitVec 6) : Bool :=
  let n := sel.toNat
  n == 0x11 || n == 0x12 || decide (0x18 ≤ n)

/-- A value that the register's map forbids: CTL_VALUE (R75). -/
def Core.ctlForbidden (c : Core) (sel : BitVec 6) (v : W) : Bool :=
  match sel.toNat with
  | 0x09 => decide (5 ≤ v.toNat % 8)
  | 0x1D => decide (59 < v.toNat)
  | 0x1E =>
    v.getLsbD 31 &&
    (c.loading.contains c.cpsel.toNat ||
     c.codeMap.any fun x => x.1 != c.cpsel.toNat && entryHolds x.2 (v.toNat % 16384))
  | _ => false

/-- The loop-engine registers written by a handler (R124). -/
def LoopRegs.write (l : LoopRegs) (n : Nat) (v : W) : LoopRegs :=
  match n with
  | 0x20 => { l with trip := v }
  | 0x21 => { l with pass := v }
  | 0x22 => { l with idx := v }
  | 0x23 => { l with pass32 := v.getLsbD 14, act := v.getLsbD 13, div := v.getLsbD 12, drn := v.getLsbD 11,
                     nst := v.extractLsb' 8 3, len := v.extractLsb' 0 8, after := none }
  | 0x24 => { l with body := v.extractLsb' 0 26, after := none }
  | 0x25 => { l with lpc := v.extractLsb' 0 26 }
  | 0x26 => { l with res := v }
  | 0x27 => { l with rem := v }
  | n => { l with linc := sset 0 l.linc (n - 0x28) (v &&& 0xFF003FFF#32) }

/-- A write of a control register becomes visible (R75 to R77): a write to a read-only register is ignored. -/
def State.writeCtl (s : State) (k : Nat) (bank : Bool) (sel : BitVec 6) (v : W) : State :=
  let onBank (f : Bank → Bank) : State := s.modCore k fun c => c.modBankN bank f
  let next0 := (s.clkOf k / 16 + 1) * 16 - 1
  let takeEffect (s : State) : State :=
    (s.unschedule fun e => e == evK .vbSlotsTakeEffect (colOf k)).scheduleCore k next0 (evK .vbSlotsTakeEffect (colOf k))
  match sel.toNat with
  | 0x08 => onBank fun b => b.clearFlags v
  | 0x09 => onBank fun b => { b with round := v.extractLsb' 0 3 }
  | 0x0A => onBank fun b => b.reseed v
  | 0x10 => s.modCol (colOf k) fun x => { x with mcmask := v.extractLsb' 0 4 }
  | 0x11 => takeEffect (s.modCol (colOf k) fun x => { x with vbSlotsNext := some v })
  | 0x12 => takeEffect (s.modCol (colOf k) fun x => { x with vbBankNext := some (v.extractLsb' 0 16) })
  | 0x18 => s.modCore k fun c => { c with causeSlot := v.extractLsb' 21 3, causeCode := v.extractLsb' 0 16 }
  | 0x19 => s.modCore k fun c => { c with trapPc := v.extractLsb' 0 26 }
  | 0x1A => s.modCore k fun c => { c with ckpPc := v.extractLsb' 0 26 }
  | 0x1B => s.modCore k fun c => { c with corr := v }
  | 0x1C => s.modCore k fun c => { c with debugPend := v.getLsbD 0 }
  | 0x1D => s.modCore k fun c => { c with cpsel := v.extractLsb' 0 6 }
  | 0x1E => s.modCore k fun c => { c with codeMap := sset 0 c.codeMap c.cpsel.toNat (v &&& 0x80003FFF#32) }
  | n => if 0x20 ≤ n then onBank fun b => { b with loop := b.loop.write n v } else s

/-! ### The instructions -/

/-- NOP (R83). -/
def execNop (s : State) : Out := .next s

/-- IADD (R117). -/
def execIadd (f : FmtR) (s : State) : Out := sOp f 1 (fun a b => a + b) s

/-- ISUB (R117). -/
def execIsub (f : FmtR) (s : State) : Out := sOp f 1 (fun a b => a - b) s

/-- IMUL (R117). -/
def execImul (f : FmtR) (s : State) : Out := sOp f 3 (fun a b => a * b) s

/-- IMULH (R117). -/
def execImulh (f : FmtR) (s : State) : Out := sOp f 3 (fun a b => hiW (a.toInt * b.toInt)) s

/-- IMULHU (R117). -/
def execImulhu (f : FmtR) (s : State) : Out := sOp f 3 (fun a b => hiW (a.toNat * b.toNat : Nat)) s

/-- AND (R117). -/
def execAnd (f : FmtR) (s : State) : Out := sOp f 1 (fun a b => a &&& b) s

/-- OR (R117). -/
def execOr (f : FmtR) (s : State) : Out := sOp f 1 (fun a b => a ||| b) s

/-- XOR (R117). -/
def execXor (f : FmtR) (s : State) : Out := sOp f 1 (fun a b => a ^^^ b) s

/-- ANDN (R117). -/
def execAndn (f : FmtR) (s : State) : Out := sOp f 1 (fun a b => a &&& ~~~b) s

/-- SHL (R117). -/
def execShl (f : FmtR) (s : State) : Out := sOp f 1 (fun a b => a <<< (b.toNat % 32)) s

/-- SHR (R117). -/
def execShr (f : FmtR) (s : State) : Out := sOp f 1 (fun a b => a >>> (b.toNat % 32)) s

/-- SRA (R117). -/
def execSra (f : FmtR) (s : State) : Out := sOp f 1 (fun a b => a.sshiftRight (b.toNat % 32)) s

/-- ROTL (R117). -/
def execRotl (f : FmtR) (s : State) : Out := sOp f 1 (fun a b => a.rotateLeft (b.toNat % 32)) s

/-- MIN (R117). -/
def execMin (f : FmtR) (s : State) : Out := sOp f 1 (fun a b => if b.slt a then b else a) s

/-- MAX (R117). -/
def execMax (f : FmtR) (s : State) : Out := sOp f 1 (fun a b => if a.slt b then b else a) s

/-- MINU (R117). -/
def execMinu (f : FmtR) (s : State) : Out := sOp f 1 (fun a b => if b.ult a then b else a) s

/-- MAXU (R117). -/
def execMaxu (f : FmtR) (s : State) : Out := sOp f 1 (fun a b => if a.ult b then b else a) s

/-- SHADD1 (R117). -/
def execShadd1 (f : FmtR) (s : State) : Out := sOp f 1 (fun a b => a + (b <<< 1)) s

/-- SHADD2 (R117). -/
def execShadd2 (f : FmtR) (s : State) : Out := sOp f 1 (fun a b => a + (b <<< 2)) s

/-- SHADD3 (R117). -/
def execShadd3 (f : FmtR) (s : State) : Out := sOp f 1 (fun a b => a + (b <<< 3)) s

/-- IADDS (R117). -/
def execIadds (f : FmtR) (s : State) : Out := sOp f 1 (fun a b => satW (a.toInt + b.toInt)) s

/-- ISUBS (R117). -/
def execIsubs (f : FmtR) (s : State) : Out := sOp f 1 (fun a b => satW (a.toInt - b.toInt)) s

/-- CLZ (R117). -/
def execClz (f : FmtRA) (s : State) : Out := sUn f clzW s

/-- POPC (R117). -/
def execPopc (f : FmtRA) (s : State) : Out := sUn f popcW s

/-- MOV (R117). -/
def execMov (f : FmtRA) (s : State) : Out := sUn f (fun a => a) s

/-- SEL: unguarded; the guard fields choose the source (R119). -/
def execSel (f : FmtR) (s : State) : Out :=
  let a := s.rs 0 f.a
  let b := s.rb f.x f.b
  let r := if s.guard f.gn f.g then a else b
  .next (s.upd fun c => (c.send 1 (.sres f.d r)).relR f)

/-- CMPEQ (R118). -/
def execCmpeq (f : FmtP) (s : State) : Out := sCmp f (fun a b => a == b) s

/-- CMPNE (R118). -/
def execCmpne (f : FmtP) (s : State) : Out := sCmp f (fun a b => a != b) s

/-- CMPLT (R118). -/
def execCmplt (f : FmtP) (s : State) : Out := sCmp f (fun a b => a.slt b) s

/-- CMPLE (R118). -/
def execCmple (f : FmtP) (s : State) : Out := sCmp f (fun a b => !b.slt a) s

/-- CMPLTU (R118). -/
def execCmpltu (f : FmtP) (s : State) : Out := sCmp f (fun a b => a.ult b) s

/-- CMPLEU (R118). -/
def execCmpleu (f : FmtP) (s : State) : Out := sCmp f (fun a b => !b.ult a) s

/-- CMPBIT (R118). -/
def execCmpbit (f : FmtP) (s : State) : Out := sCmp f (fun a b => a.getLsbD (b.toNat % 32)) s

/-- MFC (R120). -/
def execMfc (f : FmtMfc) (s : State) : Out := sGet f.gn f.g f.d (s.readCtl f.sel) s

/-- MTC: PRIV whatever the guard, CTL_VALUE when the guard is true (R75, R120). -/
def execMtc (f : FmtMtc) (s : State) : Out :=
  let v := s.rs 0 f.a
  if !s.cur.cur && bank1Reg f.sel then .next (s.trap cPriv)
  else if s.guard f.gn f.g then
    if s.cur.ctlForbidden f.sel v then .next (s.trap cCtlValue)
    else .next (s.upd fun c => (c.send 1 (.ctl f.sel v)).lastUse 0 f.la f.a)
  else .next (s.upd fun c => c.lastUse 0 f.la f.a)

/-- MFP: the named predicates (R120). -/
def execMfp (f : FmtD) (s : State) : Out :=
  let b := s.cur.bank
  sGet f.gn f.g f.d (BitVec.ofNat 32 ((List.range 16).foldl (fun a n => if b.readP n then a + 2 ^ n else a) 0)) s

/-- MTP (R120). -/
def execMtp (f : FmtMtp) (s : State) : Out :=
  let a := s.rs 0 f.a
  let m := s.rb f.x f.b
  let prb := s.cur.bank.prb
  let w := ((List.range 16).filter fun n => n != 0 && m.getLsbD n).map fun n => (physP prb n, a.getLsbD n)
  let rel (c : Core) : Core := (c.lastUse 0 f.la f.a).lastUse 0 f.lb f.b
  if s.guard f.gn f.g then .next (s.upd fun c => rel (c.send 1 (.preds w))) else .next (s.upd rel)

/-- MFB (R120). -/
def execMfb (f : FmtMfb) (s : State) : Out := sGet f.gn f.g f.d ((s.cur.bank.readB f.n.toNat).zeroExtend 32) s

/-- MTB (R120). -/
def execMtb (f : FmtMtb) (s : State) : Out :=
  let v := s.rs 0 f.a
  let n := physB s.cur.bank.brb f.n.toNat
  if s.guard f.gn f.g then .next (s.upd fun c => (c.send 1 (.base n (v.extractLsb' 0 23))).lastUse 0 f.la f.a)
  else .next (s.upd fun c => c.lastUse 0 f.la f.a)

/-- MFQ (R120). -/
def execMfq (f : FmtMfq) (s : State) : Out :=
  sGet f.gn f.g f.d ((s.cur.bank.readQ f.n.toNat).extractLsb' (32 * f.w.toNat) 32) s

/-- MTQ (R120). -/
def execMtq (f : FmtMtq) (s : State) : Out :=
  let v := s.rs 0 f.a
  if s.guard f.gn f.g then .next (s.upd fun c => (c.send 1 (.qword f.n.toNat f.w.toNat v)).lastUse 0 f.la f.a)
  else .next (s.upd fun c => c.lastUse 0 f.la f.a)

/-- MFTASK: bank 0's register, a released one giving a free value (R120). -/
def execMftask (f : FmtMftask) (s : State) : Out :=
  bank1Only s fun s => sGet f.gn f.g f.d (s.cur.bank0.readS 0 (fun n => s.unp 2 0 n 0) f.n) s

/-- MTTASK: the write goes to bank 0 and makes the register live (R120). -/
def execMttask (f : FmtMttask) (s : State) : Out :=
  bank1Only s fun s =>
    let v := s.rs 0 f.a
    if s.guard f.gn f.g then .next (s.upd fun c => (c.sendTo 1 false (.reg f.n v)).lastUse 0 f.la f.a)
    else .next (s.upd fun c => c.lastUse 0 f.la f.a)

/-- TRAPI: the trap SWTRAP with the argument in its low bits (R121). -/
def execTrapi (f : FmtTrapi) (s : State) : Out :=
  if s.guard f.gn f.g then .next (s.trap (cSwtrap + f.arg.toNat)) else .next s

/-- RFT: bank 1 runs out its dwell and its results; then bank 0 resumes at CKP_PC (R122). -/
def execRft (s : State) : Out :=
  bank1Only s fun s => .next (s.upd fun c => { c with run := .rftRun c.ckpPc })

end Sys2Proof.Machine
end

