-- ==== Sys2Proof/Machine/Pipes.lean ====
section
/-! DEFINITION. The exposed pipelines: what happens when a result becomes visible, a C0 write is applied, VBCVT reads
late, or a multicast store lands (00_scope.md R4; 03_core_state.md R63 to R65, R76; 06_core_vector.md R156;
08_core_local_memory.md R181, R182, R186, R187; 11_column.md R230, R231). -/

namespace Sys2Proof.Machine

/-- A write to a vector register makes a late read of it good again (R64, R156). -/
def Core.refresh (c : Core) (bank unit : Bool) (d : BitVec 6) : Core :=
  { c with pend := c.pend.map fun e =>
      match e.kind with
      | .lateB r b lit true => if e.bank = bank ∧ r.unit = unit ∧ b = d then { e with kind := .lateB r b lit false } else e
      | _ => e }

/-- A statistics-buffer write of the task holds the old words (R209). -/
def Core.writeStat (c : Core) (bank1 : Bool) (w : List (Nat × W)) : Core :=
  w.foldl (fun c kv =>
    let c := if bank1 then c
      else { c with undoStat := smod none c.undoStat kv.1 fun o => some (o.getD (sget 0 c.stat kv.1)) }
    { c with stat := sset 0 c.stat kv.1 kv.2 }) c

/-- What the unwritten lanes of a core's released vector register become when a masked write makes it live (R64; log 48). -/
def State.freeLanes (s : State) (k : Nat) (unit : Bool) (n l : Nat) : W :=
  Config.unpredictable s.fresh (49152 + (if unit then 64 else 0) + n) (64 * k + l)

/-- One pending result becomes visible. -/
def State.visible (s : State) (k : Nat) (e : Pend) : State :=
  let on (f : Bank → Bank) : State := s.modCore k fun c => c.modBankN e.bank f
  match e.kind with
  | .sres d v => on fun b => (b.setS d v).pushS v
  | .reg d v => on fun b => b.setS d v
  | .preds w => on fun b => w.foldl (fun b x => b.setP x.1 x.2) b
  | .vres r =>
    s.modCore k fun c =>
      let c := (c.modBankN e.bank fun b => b.applyV r (s.freeLanes k r.unit)).refresh e.bank r.unit r.d
      match r.form with
      | .qdual _ => c.refresh e.bank r.unit (r.d + 1)
      | _ => c
  | .vload u d m v =>
    s.modCore k fun c => (c.modBankN e.bank fun b => b.setV u d m v (s.freeLanes k u d.toNat)).refresh e.bank u d
  | .vpreds u w => on fun b => w.foldl (fun b x => b.setVP u x.1 x.2.1 x.2.2) b
  | .base n v => on fun b => { b with b := sset 0 b.b n v }
  | .qword n w v => on fun b => b.setQWord n w v
  | .qhead n v w => on fun b => b.setQHead n v w
  | .qtail n v w => on fun b => b.setQTail n v w
  | .ctl sel v => s.writeCtl k e.bank sel v
  | .rot br pr => on fun b => { b with brb := br, prb := pr }
  | .loopPass p h i => on fun b => { b with loop := { b.loop with pass := p, pass32 := h, idx := i } }
  | .stage d => s.modCore k fun c => { c with seq := { c.seq with staging := d, loaded := true } }
  | .statw w => s.modCore k fun c => c.writeStat e.owner w
  | .release f r => on fun b => b.release f r
  | .lateB _ _ _ _ => s
  | .spw _ => s
  | .status _ _ => s
  | .atom _ _ _ _ => s
  | .mcast _ _ => s

/-- A write of FLAGS or SR_SEED goes before the results of its cycle (R56, R76). -/
def PendKind.first : PendKind → Bool
  | .ctl sel _ => sel == 0x08#6 || sel == 0x0A#6
  | _ => false

/-- A kind that other events of the cycle apply. -/
def PendKind.later : PendKind → Bool
  | .lateB _ _ _ _ => true
  | .spw _ => true
  | .status _ _ => true
  | .atom _ _ _ _ => true
  | .mcast _ _ => true
  | .release _ _ => true
  | _ => false

/-- The operand-file registers, by code, that a V result writes. -/
def VRes.vkDests (r : VRes) : List Nat :=
  ((match r.form with
    | .qdual _ => [r.d.toNat, r.d.toNat + 1]
    | _ => [r.d.toNat]).filter fun d => decide (48 ≤ d) && decide (d < 56))

/-- The lanes of an operand-file register that V1 results among the entries have written. -/
def v1Lanes (bank : Bool) (d : Nat) (done : List Pend) : BitVec 64 :=
  done.foldl (fun m e =>
    match e.kind with
    | .vres r => if r.unit && e.bank == bank && r.vkDests.contains d then m ||| r.mask else m
    | _ => m) 0

/-- Lanes of an operand-file register keep what they held before. -/
def Bank.keepVk (b old : Bank) (d : Nat) (m : BitVec 64) : Bank :=
  if m = 0 then b else { b with vk := smod 0 b.vk (d - 48) fun v => mergeLanes m (sget 0 old.vk (d - 48)) v }

/-- One result becomes visible after those of its cycle before it.  DEDUCED: of V0 and V1 writes to one vk register that
become visible in one cycle V1's remains, whichever issued first (R62 before R65; log 48). -/
def State.visibleAfter (s : State) (k : Nat) (done : List Pend) (e : Pend) : State :=
  let t := s.visible k e
  match e.kind with
  | .vres r =>
    if r.unit then t
    else r.vkDests.foldl (fun t d =>
      t.modCore k fun c => c.modBankN e.bank fun b => b.keepVk ((s.core k).bankN e.bank) d (v1Lanes e.bank d done)) t
  | _ => t

/-- Results become visible in the order of a list. -/
def State.showAll (s : State) (k : Nat) (done : List Pend) : List Pend → State
  | [] => s
  | e :: l => (s.visibleAfter k done e).showAll k (done ++ [e]) l

/-- RESULT_VISIBLE: the results of a core whose time has come, in issue order (R4, R62, R63, R65). -/
def execResultVisible (s : State) : Out :=
  let k := s.ev.k
  let c := s.core k
  let due := c.pend.filter fun e => e.left == 0 && !e.kind.later
  let s := s.setCore k { c with pend := c.pend.filter fun e => !(e.left == 0 && !e.kind.later) }
  .next (s.showAll k [] (due.filter (·.kind.first) ++ due.filter fun e => !e.kind.first))

/-- The value an atomic stores (R186). -/
def atomNew (op : Nat) (old d : W) : W := if op = 0 then old + d else if op = 1 then (if old.slt d then d else old) else d

/-- The record of a C0 write in a rerun's signature (R214). -/
def c0Record (w : List (Nat × Byte)) : List (BitVec 64) :=
  match w with
  | [] => []
  | (a, _) :: _ => BitVec.ofNat 64 (a * 256 + w.length) :: wordsOfBytes (w.map (·.2))

/-- The maximal groups of consecutive bytes of a write. -/
def splitRuns : List (Nat × Byte) → List (List (Nat × Byte))
  | [] => []
  | x :: r =>
    match splitRuns r with
    | [] => [[x]]
    | [] :: gs => [x] :: gs
    | (y :: g) :: gs => if y.1 = x.1 + 1 then (x :: y :: g) :: gs else [x] :: (y :: g) :: gs

/-- A C0 write of one pending entry is applied; an atomic becomes its result, in its place among the entries. -/
def Core.applyC0 (c : Core) (e : Pend) : Core × List Pend :=
  match e.kind with
  | .spw w =>
    let c := c.writeC0 e.owner w
    (if e.owner then c else c.sign ((splitRuns w).map c0Record).flatten, [])
  | .status _ w => (c.writePlain w, [])
  | .atom op a d v =>
    let old := BitVec.ofNat 32 (c.sp.nat a 4)
    let w := (List.range 4).map fun i => (a + i, ((atomNew op old v).extractLsb' (8 * i) 8))
    let c := c.writeC0 e.owner w
    (if e.owner then c else c.sign (c0Record w), [{ e with left := 4, kind := .reg d old }])
  | _ => (c, [e])

/-- C0_WRITE_APPLIED (R181, R186). -/
def execC0WriteApplied (s : State) : Out :=
  let k := s.ev.k
  let c := s.core k
  let r := c.pend.foldl (fun (acc : Core × List Pend) e =>
    if e.left = 0 then (let x := acc.1.applyC0 e; (x.1, acc.2 ++ x.2)) else (acc.1, acc.2 ++ [e])) (c, [])
  .next (s.setCore k { r.1 with pend := r.2 })

/-! ### Releases (R64, R156) -/

/-- The file of a late read. -/
def lateFile (unit : Bool) : Nat := if unit then 2 else 1

/-- A late read of the register that an entry releases stands among entries before it. -/
def heldBack (before : List Pend) (e : Pend) : Bool :=
  match e.kind with
  | .release f r => before.any fun x =>
      x.bank == e.bank &&
      match x.kind with
      | .lateB q b _ _ => f == lateFile q.unit && r == b
      | _ => false
  | _ => false

/-- The releases that take effect, and the entries that remain: a release waits for the late reads issued before it. -/
def takeReleases : List Pend → List Pend → List Pend × List Pend
  | _, [] => ([], [])
  | before, e :: l =>
    let x := takeReleases (before ++ [e]) l
    match e.kind with
    | .release _ _ => if heldBack before e then (x.1, e :: x.2) else (e :: x.1, x.2)
    | _ => (x.1, e :: x.2)

/-- A late read that a release precedes finds no value. -/
def Core.staleBy (c : Core) (x : Pend) : Core :=
  { c with pend := c.pend.map fun e =>
      match e.kind with
      | .lateB r b lit _ => if heldBack [e] x then { e with kind := .lateB r b lit true } else e
      | _ => e }

/-- The releases of a bundle take effect, but for those that a late read holds back (R64, R156). -/
def State.flushReleases (s : State) (k : Nat) : State :=
  let c := s.core k
  let x := takeReleases [] c.pend
  if x.1.isEmpty then s
  else x.1.foldl (fun s e => (s.visible k e).modCore k fun c => c.staleBy e) (s.setCore k { c with pend := x.2 })

/-- VBCVT_LATE_READ: register b after every write of the cycle; releases that waited for the read follow (R156). -/
def execVbcvtLateRead (s : State) : Out :=
  let k := s.ev.k
  .next ((s.modCore k fun c =>
    { c with pend := c.pend.map fun e =>
        match e.kind, e.left with
        | .lateB r rb lit stale, 0 =>
          let b := c.bankN e.bank
          let raw : Bank := { b with relV0 := 0, relV1 := 0 }
          let free : Nat → Nat → W := fun n l => Config.unpredictable s.fresh (32768 + n) (64 * k + l)
          let v := if stale then ofLanes (free rb.toNat) else raw.readV r.unit lit free rb
          { e with left := 3, kind := .vres { r with b := v } }
        | _, _ => e }).flushReleases k)

/-- MULTICAST_LAND: the multicast stores of a core whose time has come enter every target layer (R187, R231). -/
def execMulticastLand (s : State) : Out :=
  let k := s.ev.k
  let c := s.core k
  let due := c.pend.filter fun e => e.left == 0 && (match e.kind with | .mcast _ _ => true | _ => false)
  let s := s.setCore k { c with pend := c.pend.filter fun e =>
    !(e.left == 0 && (match e.kind with | .mcast _ _ => true | _ => false)) }
  .next (due.foldl (fun s e =>
    match e.kind with
    | .mcast ls w => (List.range 4).foldl (fun s l =>
        if ls.getLsbD l then s.modCore (coreIn (colOf k) l) fun c => c.writeArrival w else s) s
    | _ => s) s)

/-- The pipelines of a core advance by one issue cycle (R4). -/
def Core.advance (c : Core) : Core := { c with pend := c.pend.map fun e => { e with left := e.left - 1 } }

end Sys2Proof.Machine
end

