-- ==== Sys2Proof/Machine/LocalMem.lean ====
section
/-! DEFINITION. The C0 instructions: loads and stores, gathers and scatters, ring pushes and pops, and the local atomics
(08_core_local_memory.md R178 to R188). -/

namespace Sys2Proof.Machine

/-! ### Shared operations -/

/-- A multicast store of the executing core (R187, R231): an outbound operation that lands after nine issue cycles in
the layers of MCMASK at issue.  DEDUCED: its log entry's destination is the EA with those layers (R211; log 14). -/
def State.mcastStore (s : State) (op a : Nat) (bs : List Byte) : State :=
  let m := (s.col (colOf s.ictx.core)).mcmask
  s.outOp (256 + op) (m.toNat * 2 ^ 24 + a) bs.length bs 0
    (fun s => s.upd fun c => c.send 9 (.mcast m (placed (a - 0x10000) bs))) (fun _ s => s)

/-- A store outside the alias: counted against the undo budget and applied two issue cycles later (R181, R188). -/
def State.localStore (s : State) (a : Nat) (bs : List Byte) : State :=
  if s.cur.undoOver bs.length then s.trap cCkpBudget
  else s.upd fun c => (c.countUndo bs.length).send 2 (.spw (placed a bs))

/-- The cause of an access at an address, if any (R178, R179). -/
def eaCause (ok : Int → Nat → Bool) (ea : Int) (n : Nat) (align : Int) : Option Nat :=
  if !ok ea n then some cSpRange else if ea % align ≠ 0 then some cAlign else none

/-- A store to an effective address (R180). -/
def State.storeAt (s : State) (op : Nat) (ea : Int) (align : Int) (bs : List Byte) : State :=
  match eaCause writeOk ea bs.length align with
  | some c => s.trap c
  | none => if spRow ea.toNat = 2 then s.mcastStore op ea.toNat bs else s.localStore ea.toNat bs

/-- A scalar load: sampled at issue, visible six issue cycles later (R180, R181). -/
def loadS (gn : Bool) (g : BitVec 4) (d : BitVec 6) (n : Nat) (ext : Nat → W) (ea : State → Int) (s : State) : Out :=
  if !s.guard gn g then .next s
  else
    match eaCause readOk (ea s) n n with
    | some c => .next (s.trap c)
    | none =>
      let v := ext (s.cur.sp.nat (ea s).toNat n)
      .next (s.upd fun c => c.send 6 (.reg d v))

/-- A scalar store of the low n bytes of a register (R180). -/
def storeS (gn : Bool) (g : BitVec 4) (op n : Nat) (d : BitVec 6) (ea : State → Int) (s : State) : Out :=
  if !s.guard gn g then .next s
  else .next (s.storeAt op (ea s) n (bytesOfNat n (s.rs 2 d).toNat))

/-- A vector load into a file of a unit (R180). -/
def loadV (gn : Bool) (g : BitVec 4) (u : Bool) (d : BitVec 6) (ea : State → Int) (s : State) : Out :=
  if !s.guard gn g then .next s
  else
    match eaCause readOk (ea s) 256 4 with
    | some c => .next (s.trap c)
    | none =>
      let v := regOfBytes (s.cur.sp.bytes (ea s).toNat 256)
      .next (s.upd fun c => c.send 6 (.vload u d (BitVec.allOnes 64) v))

/-- A vector store (R180). -/
def storeV (gn : Bool) (g : BitVec 4) (op : Nat) (u : Bool) (d : BitVec 6) (ea : State → Int) (s : State) : Out :=
  if !s.guard gn g then .next s
  else .next (s.storeAt op (ea s) 4 (regBytes (s.rv u 2 d)))

/-- The addresses of the lanes of a gather or scatter, or the cause of the first kind that a lane raises (R183). -/
def laneAddrs (ok : Int → Nat → Bool) (eas : List Int) : Except Nat (List Nat) :=
  if eas.any fun e => !ok e 4 then .error cSpRange
  else if eas.any fun e => e % 4 ≠ 0 then .error cAlign
  else .ok (eas.map Int.toNat)

/-- VGTH (R183). -/
def gather (u : Bool) (f : FmtC0R) (s : State) : Out :=
  if !s.guard f.gn f.g then .next s
  else
    let a := s.rv u 0 f.a
    match laneAddrs readOk ((List.range 64).map (s.eaLane f.bq a)) with
    | .error c => .next (s.trap c)
    | .ok eas =>
      let v := ofLanes fun l => BitVec.ofNat 32 (s.cur.sp.nat (eas.getD l 0) 4)
      .next (s.upd fun c => c.send 6 (.vload u f.d (BitVec.allOnes 64) v))

/-- VSCT (R183): the lanes in the alias are multicast stores, one each; the others stay local. -/
def scatter (op : Nat) (u : Bool) (f : FmtC0R) (s : State) : Out :=
  if !s.guard f.gn f.g then .next s
  else
    let a := s.rv u 0 f.a
    let v := s.rv u 2 f.d
    match laneAddrs writeOk ((List.range 64).map (s.eaLane f.bq a)) with
    | .error c => .next (s.trap c)
    | .ok eas =>
      let lanes := (List.range 64).map fun l => (eas.getD l 0, bytesOfNat 4 (lane v l).toNat)
      let out := lanes.filter fun x => spRow x.1 == 2
      let here := lanes.filter fun x => spRow x.1 != 2
      if s.cur.undoOver (4 * here.length) || (!s.cur.cur && !out.isEmpty && decide (256 < s.cur.outPos + out.length)) then
        .next (s.trap cCkpBudget)
      else
        let s := if here.isEmpty then s
          else s.upd fun c => (c.countUndo (4 * here.length)).send 2 (.spw (here.map fun x => placed x.1 x.2).flatten)
        .next (out.foldl (fun s x => s.mcastStore op x.1 x.2) s)

/-- QPUSH (R184, R185). -/
def ringPush (u : Bool) (f : FmtC0Q) (s : State) : Out :=
  if !s.guard f.gn f.g then .next s
  else
    let r := s.ringTail f.q
    let a := r.slotAt r.tail + f.off.toNat * 256
    if !r.ok then .next (s.trap cRingDesc)
    else if r.full then .next (s.trap cRingFull)
    else if decide (r.slotsz < f.off.toNat * 256 + 256) || !writeOk a 256 then .next (s.trap cSpRange)
    else if s.cur.undoOver 256 then .next (s.trap cCkpBudget)
    else
      let v := regBytes (s.rv u 2 f.d)
      .next (s.upd fun c =>
        let c := (c.countUndo 256).send 2 (.spw (placed a v))
        if f.adv then c.advTail f.q.toNat r else c)

/-- QPOP (R184, R185). -/
def ringPop (u : Bool) (f : FmtC0Q) (s : State) : Out :=
  if !s.guard f.gn f.g then .next s
  else
    let r := s.ringHead f.q
    let a := r.slotAt r.head + f.off.toNat * 256
    if !r.ok then .next (s.trap cRingDesc)
    else if r.empty then .next (s.trap cRingEmpty)
    else if decide (r.slotsz < f.off.toNat * 256 + 256) || !readOk a 256 then .next (s.trap cSpRange)
    else
      let v := regOfBytes (s.cur.sp.bytes a 256)
      .next (s.upd fun c =>
        let c := c.send 6 (.vload u f.d (BitVec.allOnes 64) v)
        if f.adv then c.advHead f.q.toNat r else c)

/-- A local atomic: its indivisible step comes two issue cycles later (R186). -/
def spAtomic (gn : Bool) (g : BitVec 4) (op : Nat) (d : BitVec 6) (ea : State → Int) (s : State) : Out :=
  if !s.guard gn g then .next s
  else
    match eaCause readOk (ea s) 4 4 with
    | some c => .next (s.trap c)
    | none =>
      if s.cur.undoOver 4 then .next (s.trap cCkpBudget)
      else
        let v := s.rs 2 d
        .next (s.upd fun c => (c.countUndo 4).send 2 (.atom op (ea s).toNat d v))

/-! ### The instructions -/

/-- LDW (R180). -/
def execLdw (f : FmtC0) (s : State) : Out :=
  loadS f.gn f.g f.d 4 (fun v => BitVec.ofNat 32 v) (fun s => s.eaImm f.bq f.off 4) s

/-- LDW_REG (R180). -/
def execLdwReg (f : FmtC0R) (s : State) : Out :=
  loadS f.gn f.g f.d 4 (fun v => BitVec.ofNat 32 v) (fun s => s.eaReg f.bq f.a) s

/-- LDH (R180). -/
def execLdh (f : FmtC0) (s : State) : Out :=
  loadS f.gn f.g f.d 2 (fun v => (BitVec.ofNat 16 v).signExtend 32) (fun s => s.eaImm f.bq f.off 2) s

/-- LDH_REG (R180). -/
def execLdhReg (f : FmtC0R) (s : State) : Out :=
  loadS f.gn f.g f.d 2 (fun v => (BitVec.ofNat 16 v).signExtend 32) (fun s => s.eaReg f.bq f.a) s

/-- LDHU (R180). -/
def execLdhu (f : FmtC0) (s : State) : Out :=
  loadS f.gn f.g f.d 2 (fun v => BitVec.ofNat 32 v) (fun s => s.eaImm f.bq f.off 2) s

/-- LDHU_REG (R180). -/
def execLdhuReg (f : FmtC0R) (s : State) : Out :=
  loadS f.gn f.g f.d 2 (fun v => BitVec.ofNat 32 v) (fun s => s.eaReg f.bq f.a) s

/-- LDB (R180). -/
def execLdb (f : FmtC0) (s : State) : Out :=
  loadS f.gn f.g f.d 1 (fun v => (BitVec.ofNat 8 v).signExtend 32) (fun s => s.eaImm f.bq f.off 1) s

/-- LDB_REG (R180). -/
def execLdbReg (f : FmtC0R) (s : State) : Out :=
  loadS f.gn f.g f.d 1 (fun v => (BitVec.ofNat 8 v).signExtend 32) (fun s => s.eaReg f.bq f.a) s

/-- LDBU (R180). -/
def execLdbu (f : FmtC0) (s : State) : Out :=
  loadS f.gn f.g f.d 1 (fun v => BitVec.ofNat 32 v) (fun s => s.eaImm f.bq f.off 1) s

/-- LDBU_REG (R180). -/
def execLdbuReg (f : FmtC0R) (s : State) : Out :=
  loadS f.gn f.g f.d 1 (fun v => BitVec.ofNat 32 v) (fun s => s.eaReg f.bq f.a) s

/-- STW (R180). -/
def execStw (f : FmtC0) (s : State) : Out :=
  storeS f.gn f.g 6 4 f.d (fun s => s.eaImm f.bq f.off 4) s

/-- STW_REG (R180). -/
def execStwReg (f : FmtC0R) (s : State) : Out :=
  storeS f.gn f.g 6 4 f.d (fun s => s.eaReg f.bq f.a) s

/-- STH (R180). -/
def execSth (f : FmtC0) (s : State) : Out :=
  storeS f.gn f.g 7 2 f.d (fun s => s.eaImm f.bq f.off 2) s

/-- STH_REG (R180). -/
def execSthReg (f : FmtC0R) (s : State) : Out :=
  storeS f.gn f.g 7 2 f.d (fun s => s.eaReg f.bq f.a) s

/-- STB (R180). -/
def execStb (f : FmtC0) (s : State) : Out :=
  storeS f.gn f.g 8 1 f.d (fun s => s.eaImm f.bq f.off 1) s

/-- STB_REG (R180). -/
def execStbReg (f : FmtC0R) (s : State) : Out :=
  storeS f.gn f.g 8 1 f.d (fun s => s.eaReg f.bq f.a) s

/-- VLD.V0 (R180). -/
def execVldV0 (f : FmtC0) (s : State) : Out :=
  loadV f.gn f.g false f.d (fun s => s.eaImm f.bq f.off 256) s

/-- VLD.V0_REG (R180). -/
def execVldV0Reg (f : FmtC0R) (s : State) : Out :=
  loadV f.gn f.g false f.d (fun s => s.eaReg f.bq f.a) s

/-- VLD.V1 (R180). -/
def execVldV1 (f : FmtC0) (s : State) : Out :=
  loadV f.gn f.g true f.d (fun s => s.eaImm f.bq f.off 256) s

/-- VLD.V1_REG (R180). -/
def execVldV1Reg (f : FmtC0R) (s : State) : Out :=
  loadV f.gn f.g true f.d (fun s => s.eaReg f.bq f.a) s

/-- VST.V0 (R180). -/
def execVstV0 (f : FmtC0) (s : State) : Out :=
  storeV f.gn f.g 11 false f.d (fun s => s.eaImm f.bq f.off 256) s

/-- VST.V0_REG (R180). -/
def execVstV0Reg (f : FmtC0R) (s : State) : Out :=
  storeV f.gn f.g 11 false f.d (fun s => s.eaReg f.bq f.a) s

/-- VST.V1 (R180). -/
def execVstV1 (f : FmtC0) (s : State) : Out :=
  storeV f.gn f.g 12 true f.d (fun s => s.eaImm f.bq f.off 256) s

/-- VST.V1_REG (R180). -/
def execVstV1Reg (f : FmtC0R) (s : State) : Out :=
  storeV f.gn f.g 12 true f.d (fun s => s.eaReg f.bq f.a) s

/-- VGTH.V0 (R183). -/
def execVgthV0 (f : FmtC0R) (s : State) : Out := gather false f s

/-- VGTH.V1 (R183). -/
def execVgthV1 (f : FmtC0R) (s : State) : Out := gather true f s

/-- VSCT.V0 (R183). -/
def execVsctV0 (f : FmtC0R) (s : State) : Out := scatter 15 false f s

/-- VSCT.V1 (R183). -/
def execVsctV1 (f : FmtC0R) (s : State) : Out := scatter 16 true f s

/-- QPUSH.V0 (R184). -/
def execQpushV0 (f : FmtC0Q) (s : State) : Out := ringPush false f s

/-- QPUSH.V1 (R184). -/
def execQpushV1 (f : FmtC0Q) (s : State) : Out := ringPush true f s

/-- QPOP.V0 (R184). -/
def execQpopV0 (f : FmtC0Q) (s : State) : Out := ringPop false f s

/-- QPOP.V1 (R184). -/
def execQpopV1 (f : FmtC0Q) (s : State) : Out := ringPop true f s

/-- SPADD (R186). -/
def execSpadd (f : FmtC0) (s : State) : Out :=
  spAtomic f.gn f.g 0 f.d (fun s => s.eaImm f.bq f.off 4) s

/-- SPADD_REG (R186). -/
def execSpaddReg (f : FmtC0R) (s : State) : Out :=
  spAtomic f.gn f.g 0 f.d (fun s => s.eaReg f.bq f.a) s

/-- SPMAX (R186). -/
def execSpmax (f : FmtC0) (s : State) : Out :=
  spAtomic f.gn f.g 1 f.d (fun s => s.eaImm f.bq f.off 4) s

/-- SPMAX_REG (R186). -/
def execSpmaxReg (f : FmtC0R) (s : State) : Out :=
  spAtomic f.gn f.g 1 f.d (fun s => s.eaReg f.bq f.a) s

/-- SPSWP (R186). -/
def execSpswp (f : FmtC0) (s : State) : Out :=
  spAtomic f.gn f.g 2 f.d (fun s => s.eaImm f.bq f.off 4) s

/-- SPSWP_REG (R186). -/
def execSpswpReg (f : FmtC0R) (s : State) : Out :=
  spAtomic f.gn f.g 2 f.d (fun s => s.eaReg f.bq f.a) s

end Sys2Proof.Machine
end

