-- ==== Sys2Proof/Machine/Cells.lean ====
section
/-! DEFINITION. The log cell: operand records, the cell product, line sums, the serial timing and the conversions of
tiles (02_element_cell.md R38 to R49; 01_element_formats.md R17, R24; 07_core_matrix.md R164, R167, R173). -/

namespace Sys2Proof.Machine

/-! ### Operand records (R38, R39, R42) -/

/-- An operand as the cell sees it. -/
inductive Opd where
  | zero
  | nan
  | log (neg : Bool) (lam : Int)
  | num (v : XVal)
deriving DecidableEq, Repr

/-- The single class of a pair class (R38). -/
def pairClass (cls : Nat) : Nat := if cls = 0xA then 2 else cls - 5

/-- The log format of a log class. -/
def logOfClass (cls : Nat) : LogFmt := if cls = 1 then log6 else if cls = 2 then log4 else log8

/-- A log class of R41. -/
def isLogClass (cls : Nat) : Bool := decide (cls ≤ 2) || cls == 4

/-- A block class of R41. -/
def isBlockClass (cls : Nat) : Bool := cls == 3 || (decide (5 ≤ cls) && decide (cls ≤ 9))

/-- An operand from its class, scale exponent, NaN-class bit and code (R38, R42). -/
def opd (cls : Nat) (wx : Int) (nan : Bool) (code : Nat) : Opd :=
  if isLogClass cls then
    let f := logOfClass cls
    let code := code % 2 ^ f.w
    if code = 0 ∧ ¬(cls = 4 ∧ nan) then .zero
    else if nan then .nan
    else .log (decide (2 ^ (f.w - 1) ≤ code)) (f.lam (code % 2 ^ (f.w - 1)) wx)
  else if nan then .nan
  else
    let v :=
      if cls = 15 then XVal.ofInt (sextNat 8 code)
      else if cls = 16 then XVal.ofInt (sextNat 16 code)
      else (BlkTy.ofFmt cls).codeValue code
    match v with
    | .fin n m e s => .num (.fin n m (e + wx) s)
    | .zero _ => .zero
    | _ => .nan

/-- Whether a code is of NaN class by itself: NAL, or an E4M3 NaN (R38). -/
def codeNan (cls code : Nat) : Bool :=
  if cls ≤ 2 then code % 2 ^ (logOfClass cls).w == 2 ^ ((logOfClass cls).w - 1)
  else if cls = 4 then code % 256 == 0x80
  else if cls = 5 then code % 128 == 0x7F else false

/-- The scale exponent of an element (R38): TE, and for block classes the block word's. -/
def elemWx (cls : Nat) (te : Int) (word i : Nat) : Int :=
  if 3 ≤ cls ∧ cls ≤ 9 then te + blkScale (BlkTy.ofFmt cls) word i else te

/-- The NaN-class bit of an element (R38). -/
def elemNan (cls word code : Nat) : Bool :=
  codeNan cls code || (decide (3 ≤ cls) && decide (cls ≤ 9) && blkNan (BlkTy.ofFmt cls) word)

/-! ### The cell product (R42, R43, R47) -/

/-- The sticky flags a contribution sets in its tile. -/
structure TileFlags where
  nan : Bool
  inx : Bool
  ovf : Bool
deriving DecidableEq, Repr

def TileFlags.none : TileFlags := ⟨false, false, false⟩

def TileFlags.or (a b : TileFlags) : TileFlags := ⟨a.nan || b.nan, a.inx || b.inx, a.ovf || b.ovf⟩

/-- The exact value of an operand that is a number. -/
def Opd.value : Opd → XVal
  | .log neg lam => valueOfLam neg lam
  | .num v => v
  | .zero => .zero false
  | .nan => .nan

/-- The clip of R42. -/
def cellMax : Int := 1099511627775

/-- An exact magnitude rounded once to 2^P and clipped. -/
def cellRound (v : XVal) (p : Int) : Int × TileFlags :=
  match v with
  | .fin neg m e st =>
    let (n, inexact) := roundAt .rne 0 false m e st p
    let c : Int := n
    let d := satInt c 0 cellMax
    (if neg then -d else d, ⟨false, inexact, decide (d ≠ c)⟩)
  | _ => (0, TileFlags.none)

/-- cell_product (R42). -/
def cellProduct (a w : Opd) (p : Int) : Int × TileFlags :=
  match a, w with
  | .zero, _ => (0, TileFlags.none)
  | _, .zero => (0, TileFlags.none)
  | .nan, _ => (0, ⟨true, false, false⟩)
  | _, .nan => (0, ⟨true, false, false⟩)
  | .log na la, .log nw lw => cellRound (valueOfLam (xor na nw) (la + lw)) p
  | a, w => cellRound (XVal.mul a.value w.value) p

/-- The clipped pair sum of PAIR4 (R49). -/
def pairProduct (a0 a1 w0 w1 : Opd) (p : Int) : Int × TileFlags :=
  let x := cellProduct a0 w0 p
  let y := cellProduct a1 w1 p
  let t := x.1 + y.1
  let c := satInt t (-cellMax) cellMax
  (c, (x.2.or y.2).or ⟨false, false, decide (c ≠ t)⟩)

/-! ### Weight planes (R38, R164, R210) -/

/-- A plane row of class NONE. -/
def noneRow : BitVec 4096 :=
  BitVec.ofNat 4096 (packWords (List.replicate 128 0xF0000000#32))

def Core.planeRow (c : Core) (phys i : Nat) : BitVec 4096 := sget noneRow c.planes (128 * phys + i)

def Core.setPlaneRow (c : Core) (phys i : Nat) (r : BitVec 4096) : Core :=
  { c with planes := sset noneRow c.planes (128 * phys + i) r }

/-- Entry j of a plane row. -/
def planeEntry (r : BitVec 4096) (j : Nat) : W := r.extractLsb' (32 * j) 32

/-- The entry word of R38. -/
def entryWord (wfmt : Nat) (wx : Int) (nan : Bool) (c1 c0 : Nat) : W :=
  BitVec.ofNat 32 (packFields [(4, wfmt), (10, (wx % 1024).toNat), (1, nan.toNat), (1, 0), (8, c1), (8, c0)])

/-- The operands a plane entry holds: the first, and in a pair class the second (R38). -/
def entryOpds (w : W) : Opd × Opd :=
  let cls := (w.extractLsb' 28 4).toNat
  let wx := (w.extractLsb' 18 10).toInt
  let nan := w.getLsbD 17
  let c0 := (w.extractLsb' 0 8).toNat
  let c1 := (w.extractLsb' 8 8).toNat
  if cls = 15 then (.zero, .zero)
  else if 10 ≤ cls then (opd (pairClass cls) wx nan c0, opd (pairClass cls) wx nan c1)
  else (opd cls wx nan c0, .zero)

/-! ### Codes in memory (R17, R20) -/

/-- The bits of a stored code of a format. -/
def storedBits (fmt : Nat) : Nat :=
  match fmt with
  | 1 => 6
  | 2 => 4
  | 6 => 4
  | 7 => 4
  | 8 => 4
  | 9 => 4
  | 10 => 32
  | 17 => 32
  | 11 => 16
  | 12 => 16
  | 16 => 16
  | _ => 8

/-- The elements under one block word; 1 for a format without. -/
def blockLen (fmt : Nat) : Nat := if 6 ≤ fmt ∧ fmt ≤ 9 then 16 else if 3 ≤ fmt ∧ fmt ≤ 5 then 32 else 1

/-- The code bytes of a block. -/
def blockBytes (fmt : Nat) : Nat := if 6 ≤ fmt ∧ fmt ≤ 9 then 8 else 32

/-- n codes packed from an address. -/
def Core.codesAt (c : Core) (addr fmt n : Nat) : List Nat :=
  let b := storedBits fmt
  let x := c.sp.nat addr (n * b / 8)
  (List.range n).map fun i => x / 2 ^ (b * i) % 2 ^ b

/-- The block words of the elements of n codes at slot byte o, whose slot's block words begin at bw; 0 without blocks. -/
def Core.wordsAt (c : Core) (bw fmt o n : Nat) : List Nat :=
  if blockLen fmt = 1 then List.replicate n 0
  else (List.range n).map fun i => c.sp.nat (bw + 2 * (o / blockBytes fmt + i / blockLen fmt)) 2

/-- The operands of a list of codes with their block words. -/
def opdsOf (fmt : Nat) (te : Int) (codes words : List Nat) : List Opd :=
  (List.range codes.length).map fun i =>
    let code := codes.getD i 0
    let w := words.getD i 0
    opd fmt (elemWx fmt te w (i % blockLen fmt)) (elemNan fmt w code) code

/-! ### Line sums (R44, R45, R168) -/

/-- The sum of the contributions of a line. -/
def lineSum (l : List (Int × TileFlags)) : Int × TileFlags :=
  l.foldl (fun a x => (a.1 + x.1, a.2.or x.2)) (0, TileFlags.none)

/-- The line sums of one vector: forward down the columns, backward along the rows. -/
def lineSums (rows : List (BitVec 4096)) (back pair : Bool) (a : List Opd) (p : Int) : List (Int × TileFlags) :=
  (List.range 128).map fun x =>
    lineSum ((List.range 128).map fun i =>
      let e := if back then planeEntry (rows.getD x 0) i else planeEntry (rows.getD i 0) x
      let w := entryOpds e
      if pair then pairProduct (a.getD (2 * i) .zero) (a.getD (2 * i + 1) .zero) w.1 w.2 p
      else cellProduct (a.getD i .zero) w.1 p)

/-- The bounds of an accumulator element (R45). -/
def accMax : Int := 9223372036854775807

/-- Element j of an accumulator row. -/
def accElem (r : BitVec 8192) (j : Nat) : Int := (r.extractLsb' (64 * j) 64).toInt

/-- An accumulator row from its elements. -/
def accRow (f : Nat → Int) : BitVec 8192 :=
  BitVec.ofNat 8192 ((List.range 128).foldr (fun j a => ((f j) % 18446744073709551616).toNat + 18446744073709551616 * a) 0)

/-- Line sums added into a tile row, saturating (R45). -/
def addRow (r : BitVec 8192) (ls : List (Int × TileFlags)) : BitVec 8192 × TileFlags :=
  let x := (List.range 128).map fun j =>
    let l := ls.getD j (0, TileFlags.none)
    let t := accElem r j + l.1
    let y := satInt t (-accMax) accMax
    (y, l.2.or ⟨false, false, decide (y ≠ t)⟩)
  (accRow fun j => (x.getD j (0, TileFlags.none)).1, x.foldl (fun a y => a.or y.2) TileFlags.none)

/-- An element rescaled from one binary point to another (R171). -/
def rescaleElem (p0 p1 : Int) (a : Int) : Int × TileFlags :=
  if a = 0 then (0, TileFlags.none)
  else
    let (n, inexact) := roundAt .rne 0 false a.natAbs p0 false p1
    let x : Int := if a < 0 then -(n : Int) else n
    let y := satInt x (-accMax) accMax
    (y, ⟨false, inexact, decide (y ≠ x)⟩)

/-! ### Serial timing (R48) -/

/-- The set bits of a magnitude below 2^16. -/
def popNat (n : Nat) : Nat := ((List.range 16).filter fun i => n.testBit i).length

/-- The clock cycles a row spends on a serial element. -/
def serialCycles (n code : Nat) : Nat := Nat.max 1 (popNat (sextNat n code).natAbs)

/-! ### Drains (R173, R174) -/

/-- The exact value of an accumulator element (R24). -/
def accValue (a p : Int) : XVal :=
  let a := if a < -accMax then -accMax else a
  if a = 0 then .zero false else .fin (decide (a < 0)) a.natAbs p false

/-- The flags a conversion leaves in the tile (R174). -/
def drainFlags (f : Flags) : TileFlags := ⟨false, f.inx, f.ovf⟩

/-- A row converted: its codes, its block words, and the flags. -/
def drainRow (fmt : Nat) (te : Int) (mode : RMode) (us : List Nat) (xs : List XVal) : List Nat × List Nat × TileFlags :=
  if blockLen fmt = 1 then
    let r := (List.range 128).map fun j => encodeElem fmt te mode false (us.getD j 0) (xs.getD j .nan)
    (r.map (·.1), [], r.foldl (fun a x => a.or (drainFlags x.2)) TileFlags.none)
  else
    let t := BlkTy.ofFmt fmt
    let n := t.size
    let sel := (List.range (128 / n)).map fun b => selectBlock t te ((xs.drop (n * b)).take n)
    let r := (List.range 128).map fun j =>
      let w := (sel.getD (j / n) (0, Flags.none)).1
      if blkNan t w then (0, Flags.nanNfin)
      else blkEncodeElem t (blkScale t w (j % n) + te) mode (us.getD j 0) (xs.getD j .nan)
    (r.map (·.1), sel.map (·.1),
      sel.foldl (fun a x => a.or (drainFlags x.2)) (r.foldl (fun a x => a.or (drainFlags x.2)) TileFlags.none))

/-- The bytes of packed codes. -/
def packBytes (fmt : Nat) (codes : List Nat) : List Byte :=
  let b := storedBits fmt
  bytesOfNat (codes.length * b / 8) (codes.foldr (fun x a => x % 2 ^ b + 2 ^ b * a) 0)

end Sys2Proof.Machine
end

