-- ==== Sys2Proof/Machine/Matrix.lean ====
section
/-! DEFINITION. The matrix instructions and the work they leave in flight: weight loads, the swap, streams, tile
operations and drains (07_core_matrix.md R161 to R177; 02_element_cell.md R48 to R53). -/

namespace Sys2Proof.Machine

/-! ### Planes and tiles -/

/-- The physical plane of a logical plane (R210). -/
def Core.physOf (c : Core) (wp : Bool) : Nat := if wp then c.wp1 else c.wp0

/-- The physical plane that is neither active nor shadow (R210). -/
def Core.spare (c : Core) : Nat := 3 - c.wp0 - c.wp1

/-- The recorded class of a plane (R72). -/
def Core.pfmt (c : Core) (wp : Bool) : BitVec 4 := if wp then c.pfmt1 else c.pfmt0

def Core.tile (c : Core) (t : Nat) : TileCtl := sget TileCtl.reset c.tctl t

def Core.modTile (c : Core) (t : Nat) (f : TileCtl → TileCtl) : Core :=
  { c with tctl := smod TileCtl.reset c.tctl t f }

/-- The binary point of a tile. -/
def TileCtl.point (t : TileCtl) : Int := t.p.toInt

def TileCtl.orFlags (t : TileCtl) (f : TileFlags) : TileCtl :=
  { t with nan := t.nan || f.nan, inx := t.inx || f.inx, ovf := t.ovf || f.ovf }

/-- The tile scoreboard bit (R71, R81): a stream, tile operation or drain in flight names the tile. -/
def Core.tileBusy (c : Core) (t : Nat) : Bool :=
  c.streams.any (fun x => x.tile == t) || c.tileOps.any (fun x => x.tile == t) || c.drains.any (fun x => x.tile == t)

/-- The control word of a tile (R71). -/
def Core.tileWord (c : Core) (t : Nat) : W :=
  let x := c.tile t
  BitVec.ofNat 32 (packFields [(1, (c.tileBusy t).toNat), (20, 0), (1, x.nan.toNat), (1, x.inx.toNat), (1, x.ovf.toNat),
    (8, x.p.toNat)])

def Core.accRowAt (c : Core) (t r : Nat) : BitVec 8192 := sget 0 c.tiles (128 * t + r)

/-- Writes an accumulator row; a row that changes has its old contents held by the interval (R209). -/
def Core.setAccRow (c : Core) (t r : Nat) (v : BitVec 8192) : Core :=
  if c.accRowAt t r = v then c
  else
    let c := c.holdRow (128 * t + r)
    { c with tiles := sset 0 c.tiles (128 * t + r) v }

/-! ### Budgets (R172, R208) -/

/-- One more tile first accumulated, or too many. -/
def Core.accOver (c : Core) (t : Nat) : Bool := !c.cur && !c.accTiles.contains t && decide (2 ≤ c.accTiles.length)

def Core.countAcc (c : Core) (t : Nat) : Core :=
  if c.cur || c.accTiles.contains t then c else { c with accTiles := c.accTiles ++ [t] }

/-! ### Weight loads (R164, R165) -/

/-- The WFMT a ring's format and slot size give, none for OPFMT (R164). -/
def loadClass (fmt slotsz : Nat) : Option Nat :=
  match fmt with
  | 0 => if 16384 ≤ slotsz then some 0 else none
  | 3 => if 16384 ≤ slotsz then some 3 else none
  | 4 => if 16384 ≤ slotsz then some 4 else none
  | 5 => if 16384 ≤ slotsz then some 5 else none
  | 1 => if 12288 ≤ slotsz then some 1 else none
  | 2 => if 16384 ≤ slotsz then some 0xA else if 8192 ≤ slotsz then some 2 else none
  | 6 => if 16384 ≤ slotsz then some 0xB else if 8192 ≤ slotsz then some 6 else none
  | 7 => if 16384 ≤ slotsz then some 0xC else if 8192 ≤ slotsz then some 7 else none
  | 8 => if 16384 ≤ slotsz then some 0xD else if 8192 ≤ slotsz then some 8 else none
  | 9 => if 16384 ≤ slotsz then some 0xE else if 8192 ≤ slotsz then some 9 else none
  | _ => none

/-- The block-word address of a ring slot (R163). -/
def Ring.bwAt (r : Ring) (n : Nat) : Nat := r.bwbase + 2 * n * (r.slotsz / blockBytes r.fmt)

/-- A load begun by the executing core into its shadow plane. -/
def Core.addLoad (c : Core) (clk wfmt : Nat) (slot : Option RingSlot) (base bw fmt : Nat) (te : Int) (bank : Option Nat) :
    Core :=
  { c with loads := c.loads ++ [{ id := c.nextId, issued := clk, wp := !c.act, phys := c.spare, wfmt := wfmt, slot := slot,
                                  base := base, bw := bw, fmt := fmt, te := te, bank := bank, rows := 0, beats := [] }],
           nextId := c.nextId + 1, planeLoads := if c.cur then c.planeLoads else c.planeLoads + 1 }

/-- MLDW (R164). -/
def execMldw (f : FmtMldw) (s : State) : Out :=
  if !s.guard f.gn f.g then .next s
  else
    let k := s.ictx.core
    let c := s.cur
    let r := s.ringHead f.q
    if !r.ok then .next (s.trap cRingDesc)
    else
      match loadClass r.fmt r.slotsz with
      | none => .next (s.trap cOpfmt)
      | some w =>
        if r.empty then .next (s.trap cRingEmpty)
        else if !c.cur && decide (1 ≤ c.planeLoads) then .next (s.trap cCkpBudget)
        else
          let id := c.nextId
          let s := s.upd fun c =>
            (c.addLoad (s.clkOf k) w (some ⟨c.cur, f.q.toNat, r.head⟩) (r.slotAt r.head) (r.bwAt r.head) r.fmt r.te none).advHead
              f.q.toNat r
          .next (s.scheduleCore k (s.clkOf k + 3) (evJ .planeRowWrite k id 0))

/-- The physical bank tile of a version select (R165, R232, R233). -/
def Column.version (x : Column) (vsel : Nat) : Nat :=
  if vsel < 4 then vsel else x.tvmap.toNat / 4 ^ (vsel - 4) % 4

/-- MLDWB: the request is placed in the issue cycle (R165, R226). -/
def execMldwb (f : FmtMldwb) (s : State) : Out :=
  if !s.guard f.gn f.g then .next s
  else
    let k := s.ictx.core
    let c := s.cur
    if !c.cur && decide (1 ≤ c.planeLoads) then .next (s.trap cCkpBudget)
    else
      let tile := 4 * f.tile.toNat + (s.col (colOf k)).version f.vsel.toNat
      let s := s.upd fun c => { c.addLoad (s.clkOf k) 0 none 0 0 0 0 (some tile) with portBusy := true }
      .next (s.scheduleCore k (s.clkOf k + 20) (evB .busBeat k 0 false))

/-- MSWAP (R166). -/
def execMswap (f : FmtG) (s : State) : Out :=
  if s.guard f.gn f.g then .next (s.upd fun c => { c with act := !c.act }) else .next s

/-- The entries of plane row i that a slot holds (R164). -/
def Core.loadRow (c : Core) (l : Load) (i : Nat) : BitVec 4096 :=
  let entry (cls : Nat) (word : Nat) (e0 : Nat) (c1 c0 : Nat) (nan : Bool) : W :=
    entryWord cls (elemWx l.fmt l.te word e0) nan c1 c0
  if 10 ≤ l.wfmt then
    BitVec.ofNat 4096 (packWords ((List.range 128).map fun j =>
      let b := (c.sp.byte (l.base + 128 * j + i)).toNat
      let w := (c.wordsAt l.bw l.fmt (128 * j + i) 1).headD 0
      entry l.wfmt w (2 * i % blockLen l.fmt) (b / 16) (b % 16) (elemNan l.fmt w (b % 16) || elemNan l.fmt w (b / 16))))
  else
    let o := i * (128 * storedBits l.fmt / 8)
    let codes := c.codesAt (l.base + o) l.fmt 128
    let words := c.wordsAt l.bw l.fmt o 128
    BitVec.ofNat 4096 (packWords ((List.range 128).map fun j =>
      let code := codes.getD j 0
      let w := words.getD j 0
      entry l.wfmt w (j % blockLen l.fmt) 0 code (elemNan l.fmt w code)))

/-- The entries that a bank row gives: LOG8 with TE = 0 (R165). -/
def bankRow (bs : List Byte) : BitVec 4096 :=
  BitVec.ofNat 4096 (packWords ((List.range 128).map fun j =>
    let code := (bs.getD j 0).toNat
    entryWord 0 0 (codeNan 0 code) 0 code))

/-- PLANE_ROW_WRITE (R164, R165, R227): a row of a load is read from the slot, or comes with its beat, and is written. -/
def execPlaneRowWrite (s : State) : Out :=
  let k := s.ev.k
  let c := s.core k
  match c.loads.find? fun l => l.id = s.ev.i with
  | none => .next s
  | some l =>
    let i := s.ev.j
    let row := match l.bank with
      | none => c.loadRow l i
      | some _ => bankRow (l.beats.headD [])
    let done (x : Load) : Load := if x.bank.isNone then { x with rows := i + 1 } else { x with beats := x.beats.drop 1 }
    let loads := c.loads.map fun x => if x.id = l.id then done x else x
    let s := s.setCore k { c.setPlaneRow l.phys i row with loads := loads }
    let y := s.clkOf k
    if i < 127 then
      .next (if l.bank.isNone then s.scheduleCore k (y + 1) (evJ .planeRowWrite k l.id (i + 1)) else s)
    else .next (s.scheduleCore k (y + 1) (evI .planeLoadComplete k l.id))

/-- PLANE_LOAD_COMPLETE: MSTAT takes the class, and the loaded plane becomes the shadow (R164, R165, R210). -/
def execPlaneLoadComplete (s : State) : Out :=
  let k := s.ev.k
  .next (s.modCore k fun c =>
    match c.loads.find? fun l => l.id = s.ev.i with
    | none => c
    | some l =>
      let c := { c with loads := c.loads.filter fun x => x.id ≠ l.id }
      let w := BitVec.ofNat 4 l.wfmt
      if l.wp then { c with wp1 := l.phys, pfmt1 := w } else { c with wp0 := l.phys, pfmt0 := w })

/-! ### Streams (R167 to R169) -/

/-- Whether a product mode accepts a plane's class (R41). -/
def modeTakesWeight (mode wfmt : Nat) : Bool :=
  wfmt == 15 ||
  match mode with
  | 0 => isLogClass wfmt
  | 1 => isLogClass wfmt
  | 2 => isBlockClass wfmt
  | 3 => isLogClass wfmt
  | 4 => isLogClass wfmt
  | _ => decide (10 ≤ wfmt)

/-- Whether a product mode accepts a ring's format (R167). -/
def modeTakesStream (mode fmt : Nat) : Bool :=
  match mode with
  | 0 => isLogClass fmt
  | 2 => isLogClass fmt
  | 1 => isBlockClass fmt
  | 3 => fmt == 15
  | 4 => fmt == 16
  | 5 => fmt == 2 || (decide (6 ≤ fmt) && decide (fmt ≤ 9))
  | _ => false

/-- The elements of a vector. -/
def vecLen (mode : Nat) : Nat := if mode = 5 then 256 else 128

/-- The bytes of a vector (R167). -/
def vecBytes (mode fmt : Nat) : Nat := vecLen mode * storedBits fmt / 8

/-- The next stream that has a vector to begin. -/
def Core.feeding (c : Core) : Option Stream := c.streams.find? fun x => decide (x.begun < x.n)

/-- Whether a mode is serial. -/
def serialMode (mode : Nat) : Bool := mode == 3 || mode == 4

/-- The clock cycle in which a row may begin the next vector of a stream (R48, R51, R169). -/
def ArrayTime.rowReady (a : ArrayTime) (st : Stream) (i : Nat) : Nat :=
  if serialMode st.mode && a.mode == st.mode then Nat.max (st.issued + 4) (Nat.max (a.f.getD i 0) (a.fv - 8))
  else Nat.max (st.issued + 4) a.fv

/-- The clock cycle in which the next vector of a stream begins: the earliest cycle in which a row begins it. -/
def ArrayTime.beginAt (a : ArrayTime) (st : Stream) : Nat :=
  if serialMode st.mode && a.mode == st.mode then
    ((List.range 128).map (a.rowReady st)).foldl Nat.min (a.rowReady st 0)
  else if st.begun = 0 then Nat.max (st.issued + 4) a.fv else a.fv

/-- The array after a vector that begins in cycle y (R48): `cs` are the cycles its rows take. -/
def ArrayTime.feed (a : ArrayTime) (st : Stream) (y : Nat) (cs : List Nat) : ArrayTime :=
  if serialMode st.mode then
    let f := (List.range 128).map fun i => Nat.max y (a.rowReady st i) + cs.getD i 1
    { fv := f.foldl Nat.max 0, mode := st.mode, f := f }
  else { fv := y + 1, mode := st.mode, f := [] }

/-- MSTREAM and MSTREAMB (R168). -/
def mstream (f : FmtMstream) (back : Bool) (s : State) : Out :=
  computeOnly s fun s =>
    if !s.guard f.gn f.g then .next s
    else
      let k := s.ictx.core
      let c := s.cur
      let r := s.ringHead f.q
      let mode := f.md.toNat
      let n := f.n.toNat + 1
      if !r.ok then .next (s.trap cRingDesc)
      else if decide (6 ≤ mode) || !modeTakesStream mode r.fmt || !modeTakesWeight mode (c.pfmt c.act).toNat ||
          (mode == 5 && back) || decide (r.slotsz < n * vecBytes mode r.fmt) then .next (s.trap cOpfmt)
      else if r.empty then .next (s.trap cRingEmpty)
      else if c.accOver f.t.toNat then .next (s.trap cCkpBudget)
      else
        let st : Stream :=
          { id := c.nextId, issued := s.clkOf k, tile := f.t.toNat, plane := c.physOf c.act, wfmt := (c.pfmt c.act).toNat,
            mode := mode, back := back, n := n, slot := ⟨c.cur, f.q.toNat, r.head⟩, base := r.slotAt r.head, bw := r.bwAt r.head,
            fmt := r.fmt, te := r.te, point := (c.tile f.t.toNat).point, begun := 0, added := 0, retired := false,
            data := [] }
        let first := c.feeding.isNone
        let s := s.upd fun c =>
          { (c.countAcc f.t.toNat).advHead f.q.toNat r with streams := c.streams ++ [st], nextId := c.nextId + 1 }
        .next (if first then s.scheduleCore k (c.arr.beginAt st) (evK .streamVectorBegin k) else s)

/-- MSTREAM (R168). -/
def execMstream (f : FmtMstream) (s : State) : Out := mstream f false s

/-- MSTREAMB (R168). -/
def execMstreamb (f : FmtMstream) (s : State) : Out := mstream f true s

/-- A stream of a core changed. -/
def Core.modStream (c : Core) (id : Nat) (f : Stream → Stream) : Core :=
  let l := c.streams.map fun x => if x.id = id then f x else x
  { c with streams := l.filter fun x => !(x.retired && decide (x.n ≤ x.added)) }

/-- Whether a core has stopped feeding in a clock cycle: it drains (R53, R176). -/
def Core.draining (c : Core) (y : Nat) : Bool :=
  match c.run with
  | .drain t _ => decide (t ≤ y)
  | _ => false

/-- STREAM_VECTOR_BEGIN: the next vector is read from its slot and enters the array (R48, R169). -/
def execStreamVectorBegin (s : State) : Out :=
  let k := s.ev.k
  let c := s.core k
  match c.feeding with
  | none => .next s
  | some st =>
    if c.draining (s.clkOf k) then .next s
    else
      let y := s.clkOf k
      let o := st.begun * vecBytes st.mode st.fmt
      let n := vecLen st.mode
      let codes := c.codesAt (st.base + o) st.fmt n
      let words := c.wordsAt st.bw st.fmt o n
      let arr := c.arr.feed st y (if serialMode st.mode then codes.map (serialCycles (storedBits st.fmt)) else [])
      let v := st.begun
      let c := (c.modStream st.id fun x =>
        { x with begun := v + 1, data := x.data ++ [{ v := v, codes := codes, words := words }] })
      let c := { c with arr := arr }
      let s := s.setCore k c
      let s := s.scheduleCore k (arr.fv + 261) (evJ .lineSumAdd k st.id v)
      let s := if v + 1 = st.n then s.scheduleCore k (arr.fv - 1) (evI .streamRetire k st.id) else s
      match c.feeding with
      | none => .next s
      | some nx => .next (s.scheduleCore k (Nat.max (y + 1) (arr.beginAt nx)) (evK .streamVectorBegin k))

/-- LINE_SUM_ADD: the line sums of a vector are added into its tile row (R45, R168). -/
def execLineSumAdd (s : State) : Out :=
  let k := s.ev.k
  .next (s.modCore k fun c =>
    match c.streams.find? fun x => x.id = s.ev.i with
    | none => c
    | some st =>
      match st.data.find? fun d => d.v = s.ev.j with
      | none => c
      | some d =>
        let rows := if st.wfmt = 15 then List.replicate 128 noneRow
          else (List.range 128).map fun i => c.planeRow st.plane i
        let sums := lineSums rows st.back (st.mode == 5) (opdsOf st.fmt st.te d.codes d.words) st.point
        let row := s.ev.j % 128
        let x := addRow (c.accRowAt st.tile row) sums
        let c := (c.setAccRow st.tile row x.1).modTile st.tile fun t => t.orFlags x.2
        c.modStream st.id fun y => { y with added := y.added + 1, data := y.data.filter fun e => e.v ≠ s.ev.j })

/-- STREAM_RETIRE: the last vector completes and the slot is free (R169); after a trap it stays on the drain record. -/
def execStreamRetire (s : State) : Out :=
  let y := s.clkOf s.ev.k
  .next (s.modCore s.ev.k fun c => if c.draining y then c else c.modStream s.ev.i fun x => { x with retired := true })

/-! ### Tile control (R170 to R172) -/

/-- MCLR (R170). -/
def execMclr (f : FmtMclr) (s : State) : Out :=
  computeOnly s fun s =>
    if !s.guard f.gn f.g then .next s
    else
      let k := s.ictx.core
      let t := f.t.toNat
      if s.cur.accOver t then .next (s.trap cCkpBudget)
      else
        let id := s.cur.nextId
        let s := s.upd fun c =>
          { c.countAcc t with tileOps := c.tileOps ++ [⟨id, t, none⟩], nextId := id + 1 }
        .next (s.scheduleCore k (s.clkOf k + 32) (evI .tileOpComplete k id))

/-- MSETP (R171): without rescaling, or with the same P, the new P stands at once. -/
def execMsetp (f : FmtMsetp) (s : State) : Out :=
  if !s.guard f.gn f.g then .next s
  else
    let k := s.ictx.core
    let t := f.t.toNat
    let c := s.cur
    if f.rsc && c.accOver t then .next (s.trap cCkpBudget)
    else
      let old := (c.tile t).point
      let s := s.upd fun c => (if f.rsc then c.countAcc t else c).modTile t fun x => { x with p := f.p }
      if f.rsc then
        let id := c.nextId
        let s := s.upd fun c => { c with tileOps := c.tileOps ++ [⟨id, t, some (old, f.p.toInt)⟩], nextId := id + 1 }
        .next (s.scheduleCore k (s.clkOf k + 32) (evI .tileOpComplete k id))
      else .next s

/-- TILE_OP_COMPLETE (R170, R171). -/
def execTileOpComplete (s : State) : Out :=
  .next (s.modCore s.ev.k fun c =>
    match c.tileOps.find? fun x => x.id = s.ev.i with
    | none => c
    | some o =>
      let c := { c with tileOps := c.tileOps.filter fun x => x.id ≠ o.id }
      match o.rescale with
      | none =>
        let c := (List.range 128).foldl (fun c r => c.setAccRow o.tile r 0) c
        c.modTile o.tile fun t => { t with nan := false, inx := false, ovf := false }
      | some (p0, p1) =>
        if p0 = p1 then c
        else (List.range 128).foldl (fun c r =>
          let row := c.accRowAt o.tile r
          let x := (List.range 128).map fun j => rescaleElem p0 p1 (accElem row j)
          let c := c.setAccRow o.tile r (accRow fun j => (x.getD j (0, TileFlags.none)).1)
          c.modTile o.tile fun t => t.orFlags (x.foldl (fun a y => a.or y.2) TileFlags.none)) c)

/-- MFLG (R172). -/
def execMflg (f : FmtMflg) (s : State) : Out :=
  if s.guard f.gn f.g then .next (s.upd fun c => c.send 2 (.reg f.d (c.tileWord f.t.toNat))) else .next s

/-- MCLRF (R172). -/
def execMclrf (f : FmtMclrf) (s : State) : Out :=
  if s.guard f.gn f.g then
    .next (s.upd fun c => c.modTile f.t.toNat fun t =>
      { t with nan := t.nan && !f.f.getLsbD 2, inx := t.inx && !f.f.getLsbD 1, ovf := t.ovf && !f.f.getLsbD 0 })
  else .next s

/-! ### Drains (R173 to R175) -/

/-- The generators advanced once for each of n rows (R174). -/
def Bank.advanceGens (b : Bank) (n : Nat) : Bank :=
  { b with gen := ssetAll 0 [] (((List.range 128).map fun j =>
      (j, (List.range n).foldl (fun g _ => genNext g) (sget 0 b.gen j))).filter fun x => x.2 ≠ 0) }

/-- MDRAIN (R173). -/
def execMdrain (f : FmtMdrain) (s : State) : Out :=
  computeOnly s fun s =>
    if !s.guard f.gn f.g then .next s
    else
      let k := s.ictx.core
      let c := s.cur
      let r := s.ringTail f.q
      let t := f.t.toNat
      let rows := if f.all then 128 else 16
      let mode := RMode.ofCode f.mode c.bank.round
      if !r.ok then .next (s.trap cRingDesc)
      else if r.slotsz < rows * (128 * storedBits r.fmt / 8) then .next (s.trap cOpfmt)
      else if r.full then .next (s.trap cRingFull)
      else if f.clr && c.accOver t then .next (s.trap cCkpBudget)
      else
        let id := c.nextId
        let d : Drain :=
          { id := id, issued := s.clkOf k, tile := t, slot := ⟨c.cur, f.q.toNat, r.tail⟩, base := r.slotAt r.tail,
            bw := r.bwAt r.tail, fmt := r.fmt, te := r.te, mode := mode, gens := c.bank.gen,
            point := (c.tile t).point, row0 := if f.all then 0 else 16 * f.blk.toNat, rows := rows, clr := f.clr,
            ovf := false, inx := false }
        let s := s.upd fun c =>
          let c := if f.clr then c.countAcc t else c
          let c := if mode = .rsx then c.modBank fun b => b.advanceGens rows else c
          { c.advTail f.q.toNat r with drains := c.drains ++ [d], nextId := id + 1 }
        .next (s.scheduleCore k (s.clkOf k + 9) (evJ .drainRowWrite k id 0))

/-- DRAIN_ROW_WRITE: one row is converted and written, its block words first, and cleared where the drain clears (R173,
R175). -/
def execDrainRowWrite (s : State) : Out :=
  let k := s.ev.k
  let c := s.core k
  match c.drains.find? fun d => d.id = s.ev.i with
  | none => .next s
  | some d =>
    let i := s.ev.j
    let acc := c.accRowAt d.tile (d.row0 + i)
    let gens : SMap W := ((List.range 128).map fun j => (j, genNext (sget 0 d.gens j))).filter fun x => x.2 ≠ 0
    let us := if d.mode = .rsx then (List.range 128).map fun j => genDraw (sget 0 gens j) else []
    let r := drainRow d.fmt d.te d.mode us ((List.range 128).map fun j => accValue (accElem acc j) d.point)
    let o := i * (128 * storedBits d.fmt / 8)
    let bytes := packBytes d.fmt r.1
    let words := (r.2.1.map fun w => bytesOfNat 2 w).flatten
    let at_ (a : Nat) (bs : List Byte) : List (Nat × Byte) := (List.range bs.length).map fun n => (a + n, bs.getD n 0)
    let c := c.writePlain (at_ (d.bw + 2 * (o / blockBytes d.fmt)) words ++ at_ (d.base + o) bytes)
    let c := if d.clr then c.setAccRow d.tile (d.row0 + i) 0 else c
    let drains := c.drains.map fun x =>
      if x.id = d.id then { x with gens := gens, ovf := x.ovf || r.2.2.ovf, inx := x.inx || r.2.2.inx } else x
    let s := s.setCore k { c with drains := drains }
    let y := s.clkOf k
    if i + 1 < d.rows then .next (s.scheduleCore k (y + 1) (evJ .drainRowWrite k d.id (i + 1)))
    else .next (s.scheduleCore k y (evI .drainComplete k d.id))

/-- DRAIN_COMPLETE: the conversions' flags join the tile's, and tile and slot are free (R174, R175). -/
def execDrainComplete (s : State) : Out :=
  .next (s.modCore s.ev.k fun c =>
    match c.drains.find? fun d => d.id = s.ev.i with
    | none => c
    | some d =>
      let c := { c with drains := c.drains.filter fun x => x.id ≠ d.id }
      c.modTile d.tile fun t => t.orFlags ⟨false, d.inx, d.ovf⟩)

end Sys2Proof.Machine
end

