-- ==== Sys2Proof/Machine/Copy.lean ====
section
/-! DEFINITION. The copy sequencer: descriptors, the order of runs and beats, CPYLD, CPYGO, CPYSTAT and the events of a
copy (08_core_local_memory.md R189 to R197). -/

namespace Sys2Proof.Machine

/-! ### Descriptors (R189, R190) -/

/-- A copy descriptor: counts and strides of levels 1 to 5 in order, counts less one. -/
structure CopyDesc where
  sbase : Nat
  dbase : Nat
  run : Nat
  dring : Bool
  dq : BitVec 3
  cnt : List Nat
  sstr : List Int
  dstr : List Int
  rsvd : Bool
deriving DecidableEq, Repr

def CopyDesc.ofBits (d : BitVec 512) : CopyDesc :=
  let f (w lo n : Nat) : Nat := (d.extractLsb' (32 * w + lo) n).toNat
  { sbase := f 0 0 23, dbase := f 1 0 23, run := f 2 0 16, dring := d.getLsbD 95, dq := d.extractLsb' 92 3,
    cnt := [f 3 0 16, f 3 16 16, f 4 0 16, f 4 16 16, f 5 0 16],
    sstr := (List.range 5).map fun k => sextNat 24 (f (6 + 2 * k) 0 24),
    dstr := (List.range 5).map fun k => sextNat 24 (f (7 + 2 * k) 0 24),
    rsvd := f 0 23 9 != 0 || f 1 23 9 != 0 || f 2 16 12 != 0 || f 5 16 16 != 0 ||
      (List.range 10).any fun i => f (6 + i) 24 8 != 0 }

/-- The ends of a bounding range (R190). -/
def boundLo (base : Nat) (cnt : List Nat) (str : List Int) : Int :=
  ((cnt.zip str).map fun x => if x.2 < 0 then (x.1 : Int) * x.2 else 0).foldl (· + ·) (base : Int)

def boundHi (base : Nat) (cnt : List Nat) (str : List Int) (run : Nat) : Int :=
  ((cnt.zip str).map fun x => if x.2 < 0 then 0 else (x.1 : Int) * x.2).foldl (· + ·) (base : Int) + run

/-- A bounding range lies in the private scratchpad or in the multicast window (R191). -/
def rangeOk (lo hi : Int) : Bool :=
  decide (0 ≤ lo) && decide (hi < 0x400000) && spRow lo.toNat == spRow hi.toNat

def overlap (lo1 hi1 lo2 hi2 : Int) : Bool := decide (lo1 ≤ hi2) && decide (lo2 ≤ hi1)

def CopyDesc.srcLo (d : CopyDesc) : Int := boundLo d.sbase d.cnt d.sstr
def CopyDesc.srcHi (d : CopyDesc) : Int := boundHi d.sbase d.cnt d.sstr d.run
def CopyDesc.dstLo (d : CopyDesc) (db : Nat) : Int := boundLo db d.cnt d.dstr
def CopyDesc.dstHi (d : CopyDesc) (db : Nat) : Int := boundHi db d.cnt d.dstr d.run

/-- The loop indices of run j, level 1 first. -/
def runIndices : List Nat → Nat → List Nat
  | [], _ => []
  | c :: r, j => j % (c + 1) :: runIndices r (j / (c + 1))

/-- The number of runs. -/
def CopyDesc.runs (d : CopyDesc) : Nat := d.cnt.foldl (fun a c => a * (c + 1)) 1

/-- The start of run j from a base. -/
def runStart (base : Nat) (cnt : List Nat) (str : List Int) (j : Nat) : Nat :=
  (((runIndices cnt j).zip str).foldl (fun a x => a + (x.1 : Int) * x.2) (base : Int)).toNat

/-- A beat of a copy (R194): its source and destination bytes, and whether it ends its run. -/
structure Beat where
  src : Nat
  dst : Nat
  len : Nat
  endRun : Bool
deriving DecidableEq, Repr

/-- Beat b of run j: one for each 128-byte destination block the run touches. -/
def CopyDesc.beat (d : CopyDesc) (db j b : Nat) : Beat :=
  let src := runStart d.sbase d.cnt d.sstr j
  let dst := runStart db d.cnt d.dstr j
  let pos := if b = 0 then 0 else 128 * b - dst % 128
  let len := Nat.min (d.run + 1 - pos) (128 - (dst + pos) % 128)
  { src := src + pos, dst := dst + pos, len := len, endRun := decide (pos + len = d.run + 1) }

/-- The next beat of a copy. -/
def Copy.next (cp : Copy) : Beat := (CopyDesc.ofBits cp.desc).beat cp.db cp.run cp.beat

/-- The copy after its next beat is read. -/
def Copy.step (cp : Copy) : Copy :=
  let n := cp.next
  let run := if n.endRun then cp.run + 1 else cp.run
  { cp with run := run, beat := if n.endRun then 0 else cp.beat + 1,
            reading := decide (run < (CopyDesc.ofBits cp.desc).runs) }

/-- A copy at its first incomplete run (R196). -/
def Copy.rewind (cp : Copy) : Copy :=
  { cp with started := none, req := none, run := cp.runsDone, beat := 0,
            reading := decide (cp.runsDone < (CopyDesc.ofBits cp.desc).runs), flight := [] }

/-! ### The queue (R192, R194) -/

/-- The ticket after a ticket. -/
def nextTicket (t : Nat) : Nat := if t + 1 = 2 ^ 24 then 1 else t + 1

/-- A copy takes its place in the sequencer's queue under a ticket. -/
def State.enqueueCopy (s : State) (k : Nat) (kind : CopyKind) (desc : BitVec 512) (db : Nat) (slot : Option RingSlot)
    (ticket : Nat) : State :=
  let y := s.clkOf k
  let first := (s.core k).seq.queue.isEmpty
  let cp : Copy := { kind := kind, ticket := ticket, desc := desc, db := db, slot := slot, go := y, started := none,
                     req := none, runsDone := 0, run := 0, beat := 0, reading := true, flight := [] }
  let s := s.modCore k fun c => { c with seq := { c.seq with ticket := ticket, queue := c.seq.queue ++ [cp] } }
  if first then s.scheduleCore k (y + 4) (evK .copyStart k) else s

/-- The head of the queue changed. -/
def Core.modHead (c : Core) (f : Copy → Copy) : Core :=
  { c with seq := { c.seq with queue := match c.seq.queue with
      | [] => []
      | cp :: r => f cp :: r } }

/-- Whether the sequencer has stopped: a drain after the cycle of its trap, a rollback, or recorded copies that wait
(R196). -/
def Core.seqStopped (c : Core) (y : Nat) : Bool :=
  c.seqHold ||
  match c.run with
  | .drain t _ => decide (t < y)
  | .rollback _ _ => true
  | _ => false

/-! ### The instructions (R191 to R193) -/

/-- The 64 bytes at an offset that CPYLD and VBCPY read, or the cause (R191, R228). -/
def State.descAt (s : State) (a : Nat) : Except Nat (BitVec 512) :=
  if a % 64 ≠ 0 then .error cAlign
  else if 0x400000 < a + 64 then .error cSpRange
  else .ok (BitVec.ofNat 512 (s.cur.sp.nat a 64))

/-- CPYLD's check of a descriptor (R191). -/
def CopyDesc.stageOk (d : CopyDesc) : Bool :=
  !d.rsvd && rangeOk d.srcLo d.srcHi &&
  (d.dring || (rangeOk (d.dstLo d.dbase) (d.dstHi d.dbase) &&
    !overlap (d.dstLo d.dbase) (d.dstHi d.dbase) d.srcLo d.srcHi))

/-- CPYLD (R191); in bank 1 it writes nothing (R196). -/
def execCpyld (f : FmtGA) (s : State) : Out :=
  if !s.guard f.gn f.g || s.cur.cur then .next s
  else
    match s.descAt (s.rs 0 f.a).toNat with
    | .error c => .next (s.trap c)
    | .ok d =>
      if (CopyDesc.ofBits d).stageOk then .next (s.upd fun c => c.send 1 (.stage d)) else .next (s.trap cCopyDesc)

/-- A copy's destination within the TAIL slot of a ring: its base, or the cause (R192). -/
def CopyDesc.ringDest (d : CopyDesc) (r : Ring) (apart : Bool) : Except Nat Nat :=
  if !r.ok then .error cRingDesc
  else if r.full then .error cRingFull
  else
    let base := r.slotAt r.tail
    let db := base + d.dbase
    if d.dstLo db < base || (base + r.slotsz : Int) ≤ d.dstHi db || (apart && overlap (d.dstLo db) (d.dstHi db) d.srcLo d.srcHi) then
      .error cCopyDesc
    else .ok db

/-- CPYGO (R192); in bank 1 it starts nothing and returns 0 (R196). -/
def execCpygo (f : FmtD) (s : State) : Out :=
  if !s.guard f.gn f.g then .next s
  else
    let k := s.ictx.core
    let c := s.cur
    let give (v : Nat) (s : State) : State := s.upd fun c => c.send 1 (.reg f.d (BitVec.ofNat 32 v))
    if c.cur then .next (give 0 s)
    else if !c.seq.loaded then .next (s.trap cCopyDesc)
    else
      let d := CopyDesc.ofBits c.seq.staging
      let r := s.ringTail d.dq
      match (if d.dring then d.ringDest r true else .ok d.dbase) with
      | .error e => .next (s.trap e)
      | .ok db =>
        if 4 ≤ c.seq.queue.length then .next (give 0 s)
        else
          let t := nextTicket c.seq.ticket
          let slot := if d.dring then some ⟨s.cur.cur, d.dq.toNat, r.tail⟩ else none
          let s := s.enqueueCopy k .local_ c.seq.staging db slot t
          let s := if d.dring then s.upd fun c => c.advTail d.dq.toNat r else s
          .next (give t s)

/-- The status word of CPYSTAT (R193). -/
def CopySeq.status (q : CopySeq) : W := BitVec.ofNat 32 (q.queue.length * 2 ^ 28 + q.lastDone)

/-- CPYSTAT (R193). -/
def execCpystat (f : FmtD) (s : State) : Out :=
  if s.guard f.gn f.g then .next (s.upd fun c => c.send 1 (.reg f.d c.seq.status)) else .next s

/-! ### The events (R194 to R196) -/

/-- Bank bytes written; a write of a whole word clears its mark (R232). -/
def Column.writeBank (x : Column) (a : Nat) (bs : List Byte) : Column :=
  { x with banks := x.banks.setBytes a bs,
           bankBad := x.bankBad.filter fun w => !(decide (a ≤ 8 * w.1) && decide (8 * w.1 + 8 ≤ a + bs.length)) }

/-- The bytes of a beat reach their destination (R195, R229). -/
def State.writeBeat (s : State) (k : Nat) (kind : CopyKind) (a : Nat) (bs : List Byte) : State :=
  match kind with
  | .local_ => s.modCore k fun c => c.writeArrival (placed a bs)
  | .bs _ => s.modCore k fun c => c.writeArrival (placed a bs)
  | .ss z => s.modCore (coreIn (colOf k) z) fun c => c.writeArrival (placed a bs)
  | .sb t => s.modCol (colOf k) fun x => x.writeBank (16384 * t + a) bs

/-- The oldest beat in flight of the head copy is written; the last of the copy completes it in the same cycle. -/
def State.landBeat (s : State) (k : Nat) : State :=
  match (s.core k).seq.queue with
  | [] => s
  | cp :: _ =>
    match cp.flight with
    | [] => s
    | (_, a, bs, endRun) :: rest =>
      let s := s.writeBeat k cp.kind a bs
      let s := s.modCore k fun c => c.modHead fun cp =>
        { cp with flight := rest, runsDone := if endRun then cp.runsDone + 1 else cp.runsDone }
      if rest.isEmpty && !cp.reading then s.scheduleCore k (s.clkOf k) (evK .copyComplete k) else s

/-- A slot of the vertical bus in a clock cycle (R224): a layer's number, or 4 for the bank engine. -/
def Column.slotOwner (x : Column) (y : Nat) : Nat :=
  if x.vbBank.getLsbD (y % 16) then 4 else (x.vbSlots >>> (2 * (y % 16))).toNat % 4

/-- Whether a failure or a repair keeps the bus from carrying anything (R240). -/
def Column.blocked (x : Column) : Bool := x.fault || x.repair.isSome

/-- The owner of a transfer that a failure or repair delays takes a data error (R241); `zero`: one of bank 0 that bank 1 may
meet, as an LUPD's gradient transfer. -/
def State.lateTransfer (s : State) (k : Nat) (zero : Bool) : State :=
  let e := evB .dataError k 0 zero
  (s.unschedule (· == e)).scheduleCore k (s.clkOf k) e

/-- The head copy places its bus request if the slot is its layer's and the port is free (R226, R229). -/
def State.requestBus (s : State) (k : Nat) : State :=
  let y := s.clkOf k
  let c := s.core k
  let x := s.col (colOf k)
  let again (s : State) : State := s.scheduleCore k (y + 1) (evK .busCopyRequest k)
  if c.portBusy || decide (y < c.portFrom) || x.slotOwner y != layerOf k then again s
  else if x.blocked then again (s.lateTransfer k false)
  else
    let s := s.modCore k fun c => { c.modHead (fun cp => { cp with req := some y }) with portBusy := true }
    s.scheduleCore k (y + 20) (evB .busBeat k 0 false)

/-- COPY_START (R194, R229). -/
def execCopyStart (s : State) : Out :=
  let k := s.ev.k
  let y := s.clkOf k
  let c := s.core k
  match c.seq.queue with
  | [] => .next s
  | cp :: _ =>
    if c.seqStopped y || cp.started.isSome then .next s
    else
      let s := s.modCore k fun c => c.modHead fun cp => { cp with started := some y }
      match cp.kind with
      | .local_ =>
        if cp.reading then .next (s.scheduleCore k y (evB .copyBeat k 0 false))
        else .next (s.scheduleCore k y (evK .copyComplete k))
      | _ => if cp.reading then .next (s.requestBus k) else .next (s.scheduleCore k y (evK .copyComplete k))

/-- BUS_COPY_REQUEST (R229). -/
def execBusCopyRequest (s : State) : Out :=
  let k := s.ev.k
  let c := s.core k
  match c.seq.queue with
  | [] => .next s
  | cp :: _ =>
    if c.seqStopped (s.clkOf k) || cp.started.isNone || cp.req.isSome then .next s else .next (s.requestBus k)

/-- COPY_BEAT (R194): a beat of a local copy is read, or written two cycles later. -/
def execCopyBeat (s : State) : Out :=
  let k := s.ev.k
  let y := s.clkOf k
  if s.ev.b then .next (s.landBeat k)
  else
    let c := s.core k
    match c.seq.queue with
    | [] => .next s
    | cp :: _ =>
      if c.seqStopped y || !cp.reading then .next s
      else
        let n := cp.next
        let cp' := cp.step
        let s := s.modCore k fun c => c.modHead fun _ =>
          { cp' with flight := cp.flight ++ [(y + 2, n.dst, c.sp.bytes n.src n.len, n.endRun)] }
        let s := s.scheduleCore k (y + 2) (evB .copyBeat k 0 true)
        .next (if cp'.reading then s.scheduleCore k (y + 1) (evB .copyBeat k 0 false) else s)

/-- COPY_COMPLETE (R193, R194): the ring slot is free and the next copy may start. -/
def execCopyComplete (s : State) : Out :=
  let k := s.ev.k
  let y := s.clkOf k
  match (s.core k).seq.queue with
  | [] => .next s
  | cp :: rest =>
    let s := s.modCore k fun c => { c with seq := { c.seq with queue := rest, lastDone := cp.ticket } }
    match rest with
    | [] => .next s
    | nx :: _ => .next (s.scheduleCore k (Nat.max (nx.go + 4) (y + 1)) (evK .copyStart k))

/-- COPY_RESTART (R196, R206): bank 0 issues again, in the cycle that stands for the recorded copies' CPYGO. -/
def execCopyRestart (s : State) : Out :=
  let k := s.ev.k
  let y := s.clkOf k
  let s := s.modCore k fun c =>
    { c with seqHold := false, seq := { c.seq with queue := c.seq.queue.map fun cp => { cp with go := y } } }
  .next (if (s.core k).seq.queue.isEmpty then s else s.scheduleCore k (y + 4) (evK .copyStart k))

end Sys2Proof.Machine
end

