-- ==== Sys2Proof/Machine/Column.lean ====
section
/-! DEFINITION. The column: bus copies and beats, the version map, the bank engine, and wire failure and repair
(11_column.md R223 to R242). -/

namespace Sys2Proof.Machine

/-! ### Bank reads (R232) -/

/-- A BANK_UE record's CAUSE word (R265): column in [28:22], tile in [21:13], version in [12:11], word in [10:0]. -/
def bankCause (col w : Nat) : W := BitVec.ofNat 32 (col % 128 * 2 ^ 22 + w)

/-- The bank words of n bytes at a that are marked. -/
def Column.badWords (x : Column) (a n : Nat) : List Nat := skeys (srange x.bankBad (a / 8) (ceilDiv (a + n) 8))

/-- n bank bytes at a: a marked word reads as NAL (R232). -/
def Column.readBank (x : Column) (a n : Nat) : List Byte :=
  (List.range n).map fun i => if sget false x.bankBad ((a + i) / 8) then 0x80 else x.banks.byte (a + i)

/-- The marked words of a read are reported. -/
def State.reportBank (s : State) (col a n : Nat) : State :=
  let tag := (s.core (coreIn col 0)).task.getD 0
  ((s.col col).badWords a n).foldl (fun s w => s.post (col / 128) 7 tag 0 (bankCause col w) 0 0 []) s

/-! ### Tile select words and bus copies (R228, R232) -/

/-- A tile select word: none with a reserved bit set. -/
def Column.select (x : Column) (w : W) : Option Nat :=
  if w.toNat / 4096 ≠ 0 then none else some (4 * (w.toNat % 512) + x.version (w.toNat / 512))

/-- The destination of a bus copy, or the cause: `sub` 0 SS, 1 BS, 2 SB. -/
def CopyDesc.busDest (d : CopyDesc) (sub layer : Nat) (r : Ring) (x : Column) (b : W) : Except Nat (CopyKind × Nat) :=
  let inBank (lo hi : Int) : Bool := decide (0 ≤ lo) && decide (hi < 16384)
  let srcOk := if sub = 1 then inBank d.srcLo d.srcHi else rangeOk d.srcLo d.srcHi
  let dst : Except Nat Nat :=
    if d.dring && sub == 1 then d.ringDest r false
    else
      let ok := if sub = 2 then inBank (d.dstLo d.dbase) (d.dstHi d.dbase) else rangeOk (d.dstLo d.dbase) (d.dstHi d.dbase)
      if ok then .ok d.dbase else .error cCopyDesc
  match dst with
  | .error e => .error e
  | .ok db =>
    if d.rsvd || !srcOk || (d.dring && sub != 1) then .error cCopyDesc
    else
      match sub, x.select b with
      | 0, _ => if 4 ≤ b.toNat || b.toNat == layer then .error cCopyDesc else .ok (.ss b.toNat, db)
      | _, none => .error cCopyDesc
      | 1, some t => .ok (.bs t, db)
      | _, some t => .ok (.sb t, db)

/-- A run takes its place among runs by the address it is written at. -/
def insertRun (x : Nat × List Byte) : List (Nat × List Byte) → List (Nat × List Byte)
  | [] => [x]
  | y :: l => if x.1 ≤ y.1 then x :: y :: l else y :: insertRun x l

/-- No run of a rising list reaches into the next. -/
def runsApart : List (Nat × List Byte) → Bool
  | [] => true
  | [_] => true
  | x :: y :: l => decide (x.1 + x.2.length ≤ y.1) && runsApart (y :: l)

/-- The bytes that a copy moves, in the order of the addresses it writes from a base on; where runs meet there, a byte of the
later run stands (R215; log 14). -/
def CopyDesc.data (d : CopyDesc) (db : Nat) (sp : Memory) : List Byte :=
  let runs := (List.range d.runs).map fun j =>
    (runStart db d.cnt d.dstr j, sp.bytes (runStart d.sbase d.cnt d.sstr j) (d.run + 1))
  let rising := runs.foldr insertRun []
  if runsApart rising then (rising.map (·.2)).flatten
  else ((runs.foldl (fun m x => (placed x.1 x.2).foldl (fun m y => sset none m y.1 (some y.2)) m)
    ([] : SMap (Option Byte))).filterMap (·.2))

/-- The last entry of the outbound log keeps the physical tile of a copy into a bank. -/
def Core.logTile (c : Core) (kind : CopyKind) : Core :=
  let tile : Option Nat := match kind with
    | .sb t => some t
    | _ => none
  { c with outLog := match c.outLog.reverse with
      | [] => []
      | e :: r => (({ e with tile := tile } : OutEntry) :: r).reverse }

/-- A copy that stands for its log entry goes to the tile that the entry resolved, so its beats rewrite the same bytes
(R239). -/
def CopyKind.resolved (k : CopyKind) (e : OutEntry) : CopyKind :=
  match e.tile with
  | some t => .sb t
  | none => k

/-- VBCPY (R228): after its checks the copy takes a ticket in the sequencer's queue; in bank 1 it starts nothing and returns 0
(R196; log 13). -/
def vbcpy (sub : Nat) (f : FmtDAB) (s : State) : Out :=
  if !s.guard f.gn f.g then .next s
  else
    let k := s.ictx.core
    let c := s.cur
    let give (v : W) (s : State) : State := s.upd fun c => c.send 1 (.reg f.d v)
    let b := s.rs 1 f.b
    match s.descAt (s.rs 0 f.a).toNat with
    | .error e => .next (s.trap e)
    | .ok bits =>
      let d := CopyDesc.ofBits bits
      let r := s.ringTail d.dq
      match d.busDest sub (layerOf k) r (s.col (colOf k)) b with
      | .error e => .next (s.trap e)
      | .ok (kind, db) =>
        if c.cur then .next (give 0 s)
        else
          let t := if 4 ≤ c.seq.queue.length then 0 else nextTicket c.seq.ticket
          let start (kind : CopyKind) (t : Nat) (s : State) : State :=
            if t = 0 then s
            else
              let s := s.enqueueCopy k kind bits db (if d.dring then some ⟨s.cur.cur, d.dq.toNat, r.tail⟩ else none) t
              if d.dring then s.upd fun c => c.advTail d.dq.toNat r else s
          let v := BitVec.ofNat 32 t
          if sub = 1 then .next (give v (start kind t s))
          else
            .next (s.outOp (5 * 64 + 8) (packWords [BitVec.ofNat 32 sub, b] + bits.toNat * 2 ^ 64) (d.runs * (d.run + 1))
              (d.data db s.cur.sp) v (fun s => give v (start kind t (s.upd fun c => c.logTile kind)))
              (fun e s => give e.result (start (kind.resolved e) e.result.toNat s)))

/-- VBCPY.SS (R228). -/
def execVbcpySs (f : FmtDAB) (s : State) : Out := vbcpy 0 f s

/-- VBCPY.BS (R228). -/
def execVbcpyBs (f : FmtDAB) (s : State) : Out := vbcpy 1 f s

/-- VBCPY.SB (R228). -/
def execVbcpySb (f : FmtDAB) (s : State) : Out := vbcpy 2 f s

/-! ### Beats (R225, R227, R229) -/

/-- The port is free after the cycle. -/
def Core.freePort (c : Core) (y : Nat) : Core := { c with portBusy := false, portFrom := y + 1 }

/-- The MLDWB that holds the port. -/
def Core.busLoad (c : Core) : Option Load := c.loads.find? fun l => l.bank.isSome && decide (l.rows < 128)

/-- BUS_BEAT: a beat reads its source in an owned slot, and is written in the next cycle (R225). -/
def execBusBeat (s : State) : Out :=
  let k := s.ev.k
  let y := s.clkOf k
  if s.ev.b then .next (s.landBeat k)
  else
    let c := s.core k
    let x := s.col (colOf k)
    let again (s : State) : State := s.scheduleCore k (y + 1) (evB .busBeat k 0 false)
    if !c.portBusy then .next s
    else if x.slotOwner y != layerOf k then .next (again s)
    else if x.blocked then .next (again (s.lateTransfer k false))
    else
      match c.busLoad with
      | some l =>
        let a := 16384 * l.bank.getD 0 + 128 * l.rows
        let bs := x.readBank a 128
        let s := s.reportBank (colOf k) a 128
        let s := s.modCore k fun c =>
          { c with loads := c.loads.map fun z => if z.id = l.id then { z with rows := z.rows + 1, beats := z.beats ++ [bs] } else z }
        let s := s.scheduleCore k (y + 1) (evJ .planeRowWrite k l.id l.rows)
        .next (if l.rows = 127 then s.modCore k fun c => c.freePort y else again s)
      | none =>
        match c.seq.queue with
        | [] => .next (s.modCore k fun c => c.freePort y)
        | cp :: _ =>
          if c.seqStopped y || cp.req.isNone || !cp.reading then .next (s.modCore k fun c => c.freePort y)
          else
            let n := cp.next
            let cp' := cp.step
            let bank : Option Nat := match cp.kind with
              | .bs t => some (16384 * t + n.src)
              | _ => none
            let bs := match bank with
              | some a => x.readBank a n.len
              | none => c.sp.bytes n.src n.len
            let s := match bank with
              | some a => s.reportBank (colOf k) a n.len
              | none => s
            let s := s.modCore k fun c => c.modHead fun _ => { cp' with flight := cp.flight ++ [(y + 1, n.dst, bs, n.endRun)] }
            let s := s.scheduleCore k (y + 1) (evB .busBeat k 0 true)
            .next (if cp'.reading then again s else s.modCore k fun c => c.freePort y)

/-- VB_SLOTS_TAKE_EFFECT (R223). -/
def execVbSlotsTakeEffect (s : State) : Out :=
  .next (s.modCol s.ev.k fun x =>
    { x with vbSlots := x.vbSlotsNext.getD x.vbSlots, vbBank := x.vbBankNext.getD x.vbBank, vbSlotsNext := none,
             vbBankNext := none })

/-! ### The version map (R233) -/

/-- The map with the masked entries of an operand. -/
def tvmapWith (m : BitVec 8) (a : W) : BitVec 8 :=
  let mask : Nat := (List.range 4).foldl (fun t k => if a.getLsbD (8 + k) then t + 3 * 4 ^ k else t) 0
  (m &&& ~~~(BitVec.ofNat 8 mask)) ||| (a.extractLsb' 0 8 &&& BitVec.ofNat 8 mask)

/-- WBTAG (R233). -/
def execWbtag (f : FmtDA) (s : State) : Out :=
  if !s.guard f.gn f.g then .next s
  else
    let k := s.ictx.core
    let a := s.rs 0 f.a
    let v := (s.col (colOf k)).tvmap.zeroExtend 32
    let give (v : W) (s : State) : State := s.upd fun c => c.send 1 (.reg f.d v)
    if a.toNat / 4096 ≠ 0 then .next (s.trap cOpfmt)
    else
      .next (s.outOp (5 * 64 + 0x0E) (colOf k) 4 (bytesOfNat 4 a.toNat) v
        (fun s => give v (s.scheduleCore k (s.clkOf k + 3) ⟨.tvmapUpdate, k, 0, 0, a.toNat, false⟩)) fun e => give e.result)

/-- TVMAP_UPDATE (R233). -/
def execTvmapUpdate (s : State) : Out :=
  .next (s.modCol (colOf s.ev.k) fun x => { x with tvmap := tvmapWith x.tvmap (BitVec.ofNat 32 s.ev.w) })

/-! ### The bank engine (R234 to R238) -/

/-- An operation takes its place in the column's queue: by the cycle it enters in, then by layer. -/
def insertOp (o : BankOp) : List BankOp → List BankOp
  | [] => [o]
  | p :: r => if o.enter < p.enter ∨ (o.enter = p.enter ∧ o.layer < p.layer) then o :: p :: r else p :: insertOp o r

/-- The executing core's operation is accepted: it enters the queue two cycles later (R234). -/
def State.acceptOp (s : State) (kind : BankKind) (a b gbase : Nat) (kappa : W) (dmax : Nat) : State :=
  let k := s.ictx.core
  let y := s.clkOf k
  let o : BankOp :=
    { kind := kind, core := k, owner := s.cur.cur, layer := layerOf k, enter := y + 2, a := a, b := b, gbase := gbase, kappa := kappa,
      dmax := dmax, started := none, row := 0, beats := 0, late_ := false, grad := [], count := 0, first := none,
      nanSeen := false, held := [] }
  let s := (s.modCol (colOf k) fun x => { x with queue := insertOp o x.queue }).upd fun c => { c with bankOps := c.bankOps + 1 }
  s.scheduleCore k (y + 2) (evB .bankOpStart (colOf k) 0 false)

/-- A bank operation of the executing core: accepted while it has fewer than four (R234). `dst` holds its operand words: the
tiles as they are named, so that an operation after a WBTAG still matches its log entry (R211, R239). -/
def bankOp (op : Nat) (kind : BankKind) (d : BitVec 6) (logged : Bool) (dst len a b gbase : Nat) (kappa : W) (dmax : Nat)
    (s : State) : State :=
  let take := decide (s.cur.bankOps < 4)
  let v : W := if take then 1 else 0
  let give (v : W) (s : State) : State := s.upd fun c => c.send 1 (.reg d v)
  let act (s : State) : State := give v (if take then s.acceptOp kind a b gbase kappa dmax else s)
  if logged then
    s.outOp (5 * 64 + op) dst len [] v act
      fun e => give e.result
  else act s

/-- A bank form with the tile select words of its operands; OPFMT for a reserved bit (R234). -/
def bankForm (gn : Bool) (g : BitVec 4) (op : Nat) (kind : BankKind) (d : BitVec 6) (logged : Bool) (wa wb : W)
    (s : State) : Out :=
  if !s.guard gn g then .next s
  else
    let x := s.col (colOf s.ictx.core)
    match x.select wa, x.select wb with
    | some a, some b => .next (bankOp op kind d logged (packWords [wa, wb]) 16384 a b 0 0 0 s)
    | _, _ => .next (s.trap cOpfmt)

/-- WBZERO (R234). -/
def execWbzero (f : FmtDA) (s : State) : Out :=
  bankForm f.gn f.g 0x09 .zero f.d true (s.rs 0 f.a) (s.rs 0 f.a) s

/-- WBCOPY (R234). -/
def execWbcopy (f : FmtDAB) (s : State) : Out :=
  bankForm f.gn f.g 0x0A .copy f.d true (s.rs 0 f.a) (s.rs 1 f.b) s

/-- WBCMP (R234): it changes nothing outside the core's status. -/
def execWbcmp (f : FmtDAB) (s : State) : Out :=
  bankForm f.gn f.g 0x0B .cmp f.d false (s.rs 0 f.a) (s.rs 1 f.b) s

/-- κ is finite and not negative (R236). -/
def kappaOk (w : W) : Bool :=
  match fp32.decode w.toNat with
  | .fin neg _ _ _ => !neg
  | .zero _ => true
  | _ => false

/-- LUPD (R236): the descriptor is read and checked at issue. -/
def execLupd (f : FmtDA) (s : State) : Out :=
  if !s.guard f.gn f.g then .next s
  else
    let x := s.col (colOf s.ictx.core)
    let a := (s.rs 0 f.a).toNat
    if a % 16 ≠ 0 then .next (s.trap cAlign)
    else if 0x400000 < a + 16 then .next (s.trap cSpRange)
    else
      let w (i : Nat) : W := BitVec.ofNat 32 (s.cur.sp.nat (a + 4 * i) 4)
      let gbase := (w 0).toNat
      let dmax := (w 3).toNat
      match x.select (w 1) with
      | none => .next (s.trap cOpfmt)
      | some t =>
        if decide (2 ^ 23 ≤ gbase) || gbase % 128 != 0 || !rangeOk gbase (gbase + 65535 : Nat) || !kappaOk (w 2) ||
            dmax == 0 || decide (128 ≤ dmax) then .next (s.trap cOpfmt)
        else .next (bankOp 0x0D .lupd f.d true (packWords ((List.range 4).map w)) 65536 t (t / 4 * 4 + (t + 1) % 4) gbase (w 2) dmax s)

/-- WBFENCE: fence wait cycles until the operations accepted before it have ended (R238). -/
def execWbfence (f : FmtD) (s : State) : Out :=
  if !s.guard f.gn f.g then .next s
  else if s.cur.bankOps = 0 then .next (s.upd fun c => c.send 1 (.reg f.d c.bankStatus))
  else .next (s.upd fun c => { c with fence := some f.d, fenceOps := c.bankOps })

/-- The operation at the head of a column's queue changed. -/
def Column.modOp (x : Column) (f : BankOp → BankOp) : Column :=
  { x with queue := match x.queue with
      | [] => []
      | o :: r => f o :: r }

/-- The bytes that differ between two rows at row i, folded into COUNT and FIRST (R235). -/
def BankOp.compare (o : BankOp) (i : Nat) (p q : List Byte) : BankOp :=
  (List.range 128).foldl (fun o j =>
    if p.getD j 0 = q.getD j 0 then o
    else { o with count := o.count + 1, first := some (o.first.getD (128 * i + j)) }) o

/-- The row reads of an operation in the cycle of row i (R235). -/
def State.engineRead (s : State) (col i : Nat) : State :=
  match (s.col col).queue with
  | [] => s
  | o :: _ =>
    let x := s.col col
    let ra := 16384 * o.a + 128 * i
    let rb := 16384 * o.b + 128 * i
    match o.kind with
    | .zero => s
    | .copy => (s.reportBank col ra 128).modCol col fun c => c.modOp fun o => { o with held := o.held ++ [x.readBank ra 128] }
    | .cmp =>
      ((s.reportBank col ra 128).reportBank col rb 128).modCol col fun c =>
        c.modOp fun o => o.compare i (x.readBank ra 128) (x.readBank rb 128)
    | .lupd => s

/-- The oldest row held by the operation is written as row i of its destination. -/
def Column.writeHeld (x : Column) (i : Nat) (f : List Byte → List Byte) : Column :=
  match x.queue with
  | [] => x
  | o :: _ =>
    (x.writeBank (16384 * o.b + 128 * i) (f (o.held.headD []))).modOp fun o => { o with held := o.held.drop 1 }

/-- BANK_OP_START: the next operation starts, and its row steps follow, one a cycle: the reads of a row, and at the end
of the cycle the write of the row due (R234, R235). -/
def execBankOpStart (s : State) : Out :=
  let col := s.ev.k
  let y := (s.die (col / 128)).clk
  let at_ (s : State) (t j : Nat) (b : Bool) : State :=
    s.schedule (.die (col / 128)) t ⟨.bankOpStart, col, 0, j, 0, b⟩
  match (s.col col).queue with
  | [] => .next s
  | o :: _ =>
    let j := s.ev.j
    if s.ev.b then
      match o.kind with
      | .zero =>
        let s := s.modCol col fun x => x.writeBank (16384 * o.a + 128 * j) (List.replicate 128 0)
        .next (if j = 127 then s.schedule (.die (col / 128)) y (evK .bankOpEnd col) else s)
      | _ =>
        let s := s.modCol col fun x => x.writeHeld j id
        .next (if j = 127 then s.schedule (.die (col / 128)) y (evK .bankOpEnd col) else s)
    else if j = 0 && (o.started.isSome || decide (y < o.enter) || decide (y < (s.col col).engineFree)) then .next s
    else
      let s := if j = 0 then s.modCol col fun x => x.modOp fun o => { o with started := some y } else s
      match o.kind with
      | .lupd => .next (s.schedule (.die (col / 128)) (y + 20) (evK .lupdGradientBeat col))
      | .zero => let s := at_ s y j true
                 .next (if j < 127 then at_ s (y + 1) (j + 1) false else s)
      | .copy => let s := at_ (s.engineRead col j) (y + 1) j true
                 .next (if j < 127 then at_ s (y + 1) (j + 1) false else s)
      | .cmp => let s := s.engineRead col j
                .next (if j < 127 then at_ s (y + 1) (j + 1) false
                       else s.schedule (.die (col / 128)) y (evK .bankOpEnd col))

/-- LUPD_GRADIENT_BEAT: a beat in a bank-engine slot (R237); a transfer that a failure or repair delays begins again
(R241), after one data error for each failure or repair. -/
def execLupdGradientBeat (s : State) : Out :=
  let col := s.ev.k
  let dom : Domain := .die (col / 128)
  let y := (s.die (col / 128)).clk
  let x := s.col col
  match x.queue with
  | [] => .next s
  | o :: _ =>
    let again (s : State) : State := s.schedule dom (y + 1) (evK .lupdGradientBeat col)
    if x.slotOwner y != 4 then .next (again s)
    else if x.blocked then
      let t := s.modCol col fun x => x.modOp fun o => { o with beats := 0, grad := [], late_ := true }
      .next (again (if o.late_ then t else t.lateTransfer o.core (!o.owner)))
    else
      let bs := (s.core o.core).sp.bytes (o.gbase + 128 * o.beats) 128
      let s := s.modCol col fun x => x.modOp fun o =>
        { o with late_ := false, beats := o.beats + 1, grad := o.grad.setBytes (128 * o.beats) bs }
      .next (if o.beats = 511 then s.schedule dom (y + 1) (evB .lupdRowUpdate col 0 false) else again s)

/-- One element of a log update: the new code, whether it was clamped, and whether its gradient was a NaN (R237). -/
def lupdElem (kappa : W) (dmax : Nat) (code : Byte) (g : W) : Byte × Bool × Bool :=
  let n := code.toNat
  let m := n % 128
  let neg := decide (128 ≤ n)
  if m = 0 then (code, false, false)
  else
    let k := fp32.decode kappa.toNat
    let v := fp32.decode g.toNat
    if v.isNan || (v.isInf && k.isZero) then (code, false, true)
    else
      let x := XVal.mul k v
      let d : Int := match x with
        | .fin sg mm e st =>
          let r : Int := (roundAt .rne 0 sg mm e st 0).1
          satInt (if sg then -r else r) (-(dmax : Int)) dmax
        | .inf sg => if sg then -(dmax : Int) else dmax
        | _ => 0
      let d := if neg then -d else d
      let mn : Int := (m : Int) - d
      let c := satInt mn 1 127
      (BitVec.ofNat 8 (c.toNat + (if neg then 128 else 0)), decide (c ≠ mn), false)

/-- Row i of a log update. -/
def BankOp.updateRow (o : BankOp) (i : Nat) (row : List Byte) : BankOp × List Byte :=
  let r := (List.range 128).map fun j =>
    lupdElem o.kappa o.dmax (row.getD j 0) (BitVec.ofNat 32 (o.grad.nat (512 * i + 4 * j) 4))
  let o := (List.range 128).foldl (fun o j =>
    let e := r.getD j (0, false, false)
    { o with nanSeen := o.nanSeen || e.2.2, count := if e.2.1 then o.count + 1 else o.count,
             first := if e.2.1 then some (o.first.getD (128 * i + j)) else o.first }) o
  (o, r.map (·.1))

/-- LUPD_ROW_UPDATE: a row is read, and written one cycle later (R237). -/
def execLupdRowUpdate (s : State) : Out :=
  let col := s.ev.k
  let dom : Domain := .die (col / 128)
  let y := (s.die (col / 128)).clk
  let i := s.ev.j
  let x := s.col col
  match x.queue with
  | [] => .next s
  | o :: _ =>
    if s.ev.b then
      let u := o.updateRow i (o.held.headD [])
      let s := s.modCol col fun x =>
        (x.writeBank (16384 * o.b + 128 * i) u.2).modOp fun _ => { u.1 with held := o.held.drop 1 }
      .next (if i = 127 then s.schedule dom y (evK .bankOpEnd col) else s)
    else
      let a := 16384 * o.a + 128 * i
      let s := (s.reportBank col a 128).modCol col fun c => c.modOp fun o => { o with held := o.held ++ [x.readBank a 128] }
      let s := s.schedule dom (y + 1) ⟨.lupdRowUpdate, col, 0, i, 0, true⟩
      .next (if i < 127 then s.schedule dom (y + 1) ⟨.lupdRowUpdate, col, 0, i + 1, 0, false⟩ else s)

/-- The status word of a bank operation (R238). -/
def BankOp.status (o : BankOp) : W :=
  let kind := if o.kind = .cmp then 1 else 2
  BitVec.ofNat 32 (packFields [(2, kind), (1, o.nanSeen.toNat), (15, o.count), (14, o.first.getD 0)])

/-- BANK_OP_END (R235): WBCMP and LUPD replace the core's status; the next operation starts in the next cycle. -/
def execBankOpEnd (s : State) : Out :=
  let col := s.ev.k
  let y := (s.die (col / 128)).clk
  match (s.col col).queue with
  | [] => .next s
  | o :: rest =>
    let s := s.modCol col fun x => { x with queue := rest, engineFree := y + 1 }
    let c := s.core o.core
    let s := s.setCore o.core
      { c with bankOps := c.bankOps - 1, fenceOps := c.fenceOps - 1,
               ckpt := c.ckpt.map fun k => { k with fenceOps := k.fenceOps - 1 },
               bankStatus := if o.kind = .cmp ∨ o.kind = .lupd then o.status else c.bankStatus }
    let s := if c.fenceOps = 1 then s.scheduleCore o.core y (evK .wbfenceRelease o.core) else s
    .next (if rest.isEmpty then s else s.schedule (.die (col / 128)) (y + 1) (evB .bankOpStart col 0 false))

/-- WBFENCE_RELEASE (R238): the status goes on its way with latency 1 and the wait ends. -/
def execWbfenceRelease (s : State) : Out :=
  .next (s.modCore s.ev.k fun c =>
    match c.fence with
    | some d => { c.send 1 (.reg d c.bankStatus) with fence := none }
    | none => c)

/-! ### Wire failure and repair (R240 to R242) -/

/-- BUS_WIRE_FAILURE: the wire (the event's `j`) is identified and takes a spare, and its repair waits for a slot 0; without a spare the column is retired. -/
def execBusWireFailure (s : State) : Out :=
  let col := s.ev.k
  let y := (s.die (col / 128)).clk
  let n := (s.col col).spares.length + 1
  let s := s.modCol col fun x => { x with spares := x.spares ++ [s.ev.j] }
  if 8 < n then .next (s.retireColumn col)
  else
    let s := s.modCol col fun x => { x with fault := true }
    let e := evK .busWireRepairStart col
    .next ((s.unschedule (· == e)).schedule (.die (col / 128)) ((y / 16 + 1) * 16) e)

/-- BUS_WIRE_REPAIR_START: put off while a row of a log update is between its read and its write (R240). -/
def execBusWireRepairStart (s : State) : Out :=
  let col := s.ev.k
  let dom : Domain := .die (col / 128)
  let y := (s.die (col / 128)).clk
  let x := s.col col
  let torn := match x.queue with
    | [] => false
    | o :: _ => o.kind == .lupd && !o.held.isEmpty
  if torn || x.repair.isSome then .next (s.schedule dom (y + 16) (evK .busWireRepairStart col))
  else
    let s := s.modCol col fun x => { x with fault := false, repair := some (y + 31) }
    .next (s.schedule dom (y + 31) (evK .busWireRepairEnd col))

/-- BUS_WIRE_REPAIR_END (R240). -/
def execBusWireRepairEnd (s : State) : Out := .next (s.modCol s.ev.k fun x => { x with repair := none })

end Sys2Proof.Machine
end

