-- ==== Sys2Proof/Machine/FarMem.lean ====
section
/-! DEFINITION. Far memory: translation entries, lines with their poison and encryption, guards, and the checks and the
bookkeeping of far requests (13_die_memory.md R266 to R271, R276 to R279, R285, R290; 16_package_memory.md R299;
19_fabric.md R345, R346). -/

namespace Sys2Proof.Machine

/-! ### Translation entries (R267) -/

def entV (e : DW) : Bool := e.getLsbD 63
def entDup (e : DW) : Bool := e.getLsbD 62
def entPR (e : DW) : Bool := e.getLsbD 60
def entPW (e : DW) : Bool := e.getLsbD 59
def entPA (e : DW) : Bool := e.getLsbD 58
def entBytes (e : DW) : Nat := 2 ^ (21 + (e.extractLsb' 54 4).toNat)
def entKey (e : DW) : Nat := (e.extractLsb' 48 6).toNat
def entTier (e : DW) : Bool := e.getLsbD 47
def entPkg (e : DW) : Nat := (e.extractLsb' 34 13).toNat
def entStack (e : DW) : Nat := (e.extractLsb' 31 3).toNat
def entBase (e : DW) : Nat := (e.extractLsb' 0 20).toNat

/-- The entry marked dirty (R269). -/
def entMark (e : DW) : DW := e ||| (1#64 <<< 61)

/-- An entry's word from its fields, each cut to its width (R267). -/
def mkEntry (dup dirty pr pw pa : Bool) (size key : Nat) (tier : Bool) (pkg stack base : Nat) : DW :=
  BitVec.ofNat 64 (packFields [(1, 1), (1, dup.toNat), (1, dirty.toNat), (1, pr.toNat), (1, pw.toNat), (1, pa.toNat),
    (4, size % 16), (6, key % 64), (1, tier.toNat), (13, pkg % 2 ^ 13), (3, stack % 8), (11, 0), (20, base % 2 ^ 20)])

/-- The entry of a virtual address in a task's table. -/
def entryOf (table : SMap DW) (va : Nat) : DW := sget 0 table (va / 2 ^ 30)

/-- The table of the task with a tag on a die. -/
def State.tableOf (s : State) (die : Nat) (tag : W) : SMap DW :=
  match (s.die die).task tag with
  | none => []
  | some t => t.table

/-! ### Lines (R290, R299, R346) -/

/-- The HBM byte key of a physical address, seen from a die: a duplicated segment has a copy under each die (R288). -/
def hbmKey (e : DW) (die va : Nat) : Nat :=
  let stack := if entDup e then entStack e % 4 + 4 * (die % 2) else entStack e
  stack * 2 ^ 36 + entBase e * 2 ^ 21 + va % 2 ^ 30

/-- The byte address in the segment's stack or in the second tier. -/
def tierKey (e : DW) (va : Nat) : Nat := entBase e * 2 ^ 21 + va % 2 ^ 30

/-- A line beyond the 64 GB of its stack, or beyond the 256 GB of each populated expander (R2, R299, R317): no memory
holds it. -/
def State.lineAbsent (s : State) (e : DW) (va : Nat) : Bool :=
  decide ((if entTier e then (s.pkg (entPkg e)).tierPorts * 256000000000 else 64000000000) < tierKey e va / 64 * 64 + 64)

/-- A line that reads as poisoned: marked, or absent (R268, R290). -/
def State.linePoisoned (s : State) (e : DW) (die va : Nat) : Bool :=
  let p := s.pkg (entPkg e)
  if s.lineAbsent e va then true
  else if entTier e then sget false p.tierPoison (tierKey e va / 64) else sget false p.hbmPoison (hbmKey e die va / 64)

/-- The tweak of a line: its virtual address in line units (R346). -/
def tweakOf (va : Nat) : BitVec 128 := BitVec.ofNat 128 (va / 64)

/-- A line as an access from package `acc` and a die finds it: none where it is poisoned or its tag fails. -/
def State.readLine (s : State) (acc : Nat) (e : DW) (die va : Nat) : Option (List Byte) :=
  let va := va / 64 * 64
  let p := s.pkg (entPkg e)
  if s.linePoisoned e die va then none
  else
    let raw := if entTier e then p.tier.bytes (tierKey e va) 64 else p.hbm.bytes (hbmKey e die va) 64
    if entKey e = 0 then some raw
    else
      let a := s.pkg acc
      let c := BitVec.ofNat 512 (natOfBytes raw)
      let tag := if entTier e then sget 0 p.tierTags (tierKey e va / 64) else sget 0 p.tags (hbmKey e die va / 64)
      if Config.cmacTag (sget 0 a.macKeys (entKey e)) (tweakOf va) c = tag then
        some (bytesOfNat 64 (Config.xtsDecrypt (sget 0 a.xtsKeys (entKey e)) (tweakOf va) c).toNat)
      else none

/-- A whole line written; its poison mark clears. -/
def State.writeLine (s : State) (acc : Nat) (e : DW) (die va : Nat) (bs : List Byte) : State :=
  let va := va / 64 * 64
  let a := s.pkg acc
  let key := entKey e
  let c := if key = 0 then BitVec.ofNat 512 (natOfBytes bs)
    else Config.xtsEncrypt (sget 0 a.xtsKeys key) (tweakOf va) (BitVec.ofNat 512 (natOfBytes bs))
  let tag : DW := if key = 0 then 0 else Config.cmacTag (sget 0 a.macKeys key) (tweakOf va) c
  if s.lineAbsent e va then s
  else s.modPkg (entPkg e) fun p =>
    if entTier e then
      let n := tierKey e va
      { p with tier := p.tier.setNat n 64 c.toNat, tierPoison := sset false p.tierPoison (n / 64) false,
               tierTags := sset 0 p.tierTags (n / 64) tag }
    else
      let n := hbmKey e die va
      { p with hbm := p.hbm.setNat n 64 c.toNat, hbmPoison := sset false p.hbmPoison (n / 64) false,
               tags := sset 0 p.tags (n / 64) tag }

/-- A line left unchanged and marked poisoned, in every copy (R290). -/
def State.poisonLine (s : State) (e : DW) (va : Nat) : State :=
  if s.lineAbsent e va then s
  else s.modPkg (entPkg e) fun p =>
    if entTier e then { p with tierPoison := sset false p.tierPoison (tierKey e va / 64) true }
    else
      let put (m : SMap Bool) (die : Nat) : SMap Bool := sset false m (hbmKey e die va / 64) true
      { p with hbmPoison := if entDup e then put (put p.hbmPoison 0) 1 else put p.hbmPoison 0 }

/-- Bytes of a line replaced, later pairs winning. -/
def spliceLine (old : List Byte) (w : List (Nat × Byte)) : List Byte := w.foldl (fun l x => l.set x.1 x.2) old

/-- Some bytes of a line written: a write of all 64 clears its poison, and a partial write to a poisoned line fails
(R290). -/
def State.storeLine (s : State) (acc : Nat) (e : DW) (die va : Nat) (w : List (Nat × Byte)) : State × Bool :=
  if s.lineAbsent e va then (s, true)
  else if (w.map (·.1)).eraseDups.length = 64 then (s.writeLine acc e die va (spliceLine (List.replicate 64 0) w), false)
  else
    match s.readLine acc e die va with
    | none => (s, true)
    | some old => (s.writeLine acc e die va (spliceLine old w), false)

/-- n bytes of a task's far space, none where a line is poisoned or not mapped. -/
def State.readFar (s : State) (acc : Nat) (table : SMap DW) (die va n : Nat) : List (Option Byte) :=
  (List.range n).map fun i =>
    let e := entryOf table (va + i)
    if !entV e then none
    else
      match s.readLine acc e die (va + i) with
      | none => none
      | some l => l[(va + i) % 64]?

/-- A 32-bit word of a task's far space. -/
def State.readFarWord (s : State) (acc : Nat) (table : SMap DW) (die va : Nat) : Option W :=
  (((s.readFar acc table die va 4).mapM id).map natOfBytes).map (BitVec.ofNat 32)

/-- n bytes written into a task's far space, by lines; byte i is f i. -/
def State.writeFar (s : State) (acc : Nat) (table : SMap DW) (die va n : Nat) (f : Nat → Byte) : State :=
  (List.range (ceilDiv (va % 64 + n) 64)).foldl (fun s i =>
    let line := va / 64 * 64 + 64 * i
    let e := entryOf table line
    if !entV e then s
    else
      let w := (List.range 64).filterMap fun j =>
        if va ≤ line + j ∧ line + j < va + n then some (j, f (line + j - va)) else none
      (s.storeLine acc e die line w).1) s

/-! ### Guards (R276, R278, R279) -/

/-- The fields of a guard. -/
structure Guard where
  mode : Nat
  nhold : Nat
  owner : W
  epoch : W
  arr : W
  mis : Bool
  poison : Nat
  firstp : Nat
deriving DecidableEq, Repr

def wordAt (bs : List Byte) (i : Nat) : W := BitVec.ofNat 32 (natOfBytes ((bs.drop (4 * i)).take 4))

def Guard.ofBytes (bs : List Byte) : Guard :=
  let w := wordAt bs
  { mode := (w 0).toNat / 2 ^ 30, nhold := (w 0).toNat % 2 ^ 16, owner := w 1, epoch := w 2, arr := w 3,
    mis := (w 4).getLsbD 31, poison := (w 4).toNat % 2 ^ 24, firstp := (w 5).toNat + (w 6).toNat % 2 ^ 10 * 2 ^ 32 }

/-- The bytes of a guard in a line: its reserved bits and words 7 to 15 stay as the line has them. -/
def Guard.over (g : Guard) (old : List Byte) : List Byte :=
  let w (i : Nat) (mask : W) : W := wordAt old i &&& mask
  (([BitVec.ofNat 32 (g.mode * 2 ^ 30 + g.nhold % 2 ^ 16) ||| w 0 0x3FFF0000, g.owner, g.epoch, g.arr,
     BitVec.ofNat 32 (g.mis.toNat * 2 ^ 31 + g.poison) ||| w 4 0x7F000000, BitVec.ofNat 32 g.firstp,
     BitVec.ofNat 32 (g.firstp / 2 ^ 32) ||| w 6 0xFFFFFC00] : List W).map fun w => bytesOfNat 4 w.toNat).flatten ++ old.drop 28

/-- A saturating sum of 24 bits. -/
def sat24 (n : Nat) : Nat := Nat.min n 0xFFFFFF

/-- What a guard form finds: the guard after it, and CODE, MIS, COUNT and FIRSTP of its status. -/
structure GuardOut where
  guard : Guard
  code : Nat
  mis : Bool
  count : Nat
  firstp : Nat
deriving DecidableEq, Repr

/-- GACQ at the guard (R278). -/
def Guard.acquire (g : Guard) (exclusive : Bool) (owner : W) : GuardOut :=
  if g.mode = 0 ∨ (g.mode = 1 ∧ !exclusive) then
    let code := if g.poison = 0 then 1 else 2
    if exclusive then
      ⟨{ g with mode := 2, owner := owner, arr := 0, poison := 0, mis := false, firstp := 0 }, code, g.mis, g.poison, g.firstp⟩
    else ⟨{ g with mode := 1, nhold := g.nhold + 1 }, code, g.mis, g.poison, g.firstp⟩
  else ⟨g, 3, false, 0, 0⟩

/-- GREL at the guard (R279). -/
def Guard.release (g : Guard) (exclusive : Bool) (owner b : W) : GuardOut :=
  if exclusive then
    if g.mode = 2 ∧ g.owner = owner then
      let mis := g.arr != b
      ⟨{ g with mis := mis, mode := 0, owner := 0, epoch := g.epoch + 1 }, 1, mis, g.poison, 0⟩
    else ⟨g, 5, false, 0, 0⟩
  else if g.mode = 1 ∧ 0 < g.nhold then
    ⟨{ g with nhold := g.nhold - 1, mode := if g.nhold = 1 then 0 else 1 }, 1, false, 0, 0⟩
  else ⟨g, 5, false, 0, 0⟩

/-- A tagged store or command counted at its guard, with its failing lines and the first of them (R279, R304). -/
def Guard.arrive (g : Guard) (poison firstp : Nat) : Guard :=
  { g with arr := g.arr + 1, poison := sat24 (g.poison + poison),
           firstp := if g.poison = 0 ∧ 0 < poison then firstp else g.firstp }

def Guard.heldBy (g : Guard) (owner : W) : Bool := g.mode == 2 && g.owner == owner

def State.readGuard (s : State) (acc : Nat) (e : DW) (die va : Nat) : Option Guard :=
  (s.readLine acc e die va).map Guard.ofBytes

/-- What a form finds at a guard whose line cannot be read: it acts as under MODE 3 (R276). -/
def Guard.unread : Guard := ⟨3, 0, 0, 0, 0, false, 0, 0⟩

/-- A guard rewritten, in every copy. -/
def State.writeGuard (s : State) (acc : Nat) (e : DW) (die va : Nat) (g : Guard) : State :=
  match s.readLine acc e die va with
  | none => s
  | some old =>
    let bs := g.over old
    let s := s.writeLine acc e die va bs
    if entDup e then s.writeLine acc e (die + 1) va bs else s

/-! ### Issue-time checks (R268) -/

def cFarDesc : Nat := 0x0040
def cSegInvalid : Nat := 0x0041
def cSegBound : Nat := 0x0042
def cSegPerm : Nat := 0x0043
def cDupUnguarded : Nat := 0x0044
def cNmPlace : Nat := 0x0050
def cBkDenied : Nat := 0x0051
def cCollGroup : Nat := 0x0060

/-- A checked range: its address, its length and the permissions it needs. -/
structure Range where
  va : Nat
  len : Nat
  pr : Bool
  pw : Bool
  pa : Bool
deriving DecidableEq, Repr

/-- Steps 5 to 7 of R268 over the ranges of a form. -/
def segCause (table : SMap DW) (rs : List Range) : Option Nat :=
  if rs.any fun r => !entV (entryOf table r.va) then some cSegInvalid
  else if rs.any fun r => decide (entBytes (entryOf table r.va) < r.va % 2 ^ 30 + r.len) then some cSegBound
  else if rs.any fun r =>
      let e := entryOf table r.va
      (r.pr && !entPR e) || (r.pw && !entPW e) || (r.pa && !entPA e) then some cSegPerm
  else none

/-- The words of a descriptor of `n` words aligned to `al` bytes, or the cause (R268, steps 1 and 2). -/
def State.farDesc (s : State) (a n al : Nat) : Except Nat (List W) :=
  if a % al ≠ 0 then .error cAlign
  else if 0x400000 < a + 4 * n then .error cSpRange
  else .ok ((List.range n).map fun i => BitVec.ofNat 32 (s.cur.sp.nat (a + 4 * i) 4))

/-- A two-word far address (R266). -/
def farAddr (lo hi : W) : Nat := lo.toNat + hi.toNat % 2 ^ 10 * 2 ^ 32

/-- Bits [31:10] of a far address's high word are clear. -/
def farHiOk (hi : W) : Bool := decide (hi.toNat < 2 ^ 10)

/-! ### Accepting a request (R270, R271, R280, R284, R306) -/

/-- A request with every result field at its start. -/
def FarReq.start (id : Nat) (kind : FarKind) (tag : W) (issued desc : Nat) (words : List W) : FarReq :=
  { id := id, kind := kind, tag := tag, issued := issued, desc := desc, words := words, opnd := 0, slot := none, loc := 0,
    bw := 0, ent := 0, sent := 0, gent := 0, stage := .held, orphan := false, pieces := [], code := 0, mis := false,
    count := 0, deliv := 0, first := none, old := 0, firstp := 0, nfin := 0, firstD := none, line := 0, waits := [],
    ncmd := 0, outcome := 0, refs := 0, blk := none, reason := 0, row := none, out := [], srcLeft := [], src := [] }

def FarKind.isNm (k : FarKind) : Bool :=
  k == .nmsadd || k == .nmsgd || k == .nmzero || k == .nmcopy || k == .nmcmp

/-- The forms a release waits for (R280). -/
def FarKind.stores (k : FarKind) : Bool :=
  k.isNm || k == .tstore || k == .fadd || k == .fcas || k == .fswap

/-- Whether the requests before one of a core hold it back (R280, R306). -/
def mustHold (earlier : List FarReq) (k : FarKind) : Bool :=
  earlier.any fun q => q.kind == .gacq || q.kind == .nmfence || (k == .grel && q.kind.stores)

/-- The word index of STATUS in the descriptor of a form. -/
def FarKind.statusWord (k : FarKind) : Nat :=
  match k with
  | .tload => 12 | .tstore => 12
  | .gacq => 3 | .grel => 3
  | .fadd => 8 | .fcas => 8 | .fswap => 8
  | .nmfence => 0
  | .bkalloc => 8 | .bkxlat => 8 | .bkshare => 8 | .bkfree => 8 | .bkload => 8 | .bkstore => 8
  | .coll => 8
  | .ccancel => 2
  | _ => 9

def FarReq.statusAddr (r : FarReq) : Nat := r.desc + 4 * r.kind.statusWord

/-- The status word (R271). -/
def statusWord (code : Nat) (mis : Bool) (count : Nat) : W :=
  BitVec.ofNat 32 (packFields [(4, code), (1, mis.toNat), (3, 0), (24, sat24 count)])

/-- Held entries of a core: those of a task that has left it hold none. -/
def Core.farHeld (c : Core) : Nat := (c.far.filter fun r => !r.orphan).length

/-- A word of a request on its way to memory as a C0 write that is not undone. -/
def Core.sendWord (c : Core) (id a : Nat) (w : W) : Core := c.send 2 (.status id (placed a (bytesOfNat 4 w.toNat)))

/-- The executing core gives sD. -/
def State.give (s : State) (d : BitVec 6) (v : W) : State := s.upd fun c => c.send 1 (.reg d v)

/-- A request is accepted while an entry is free: sD = 1, PENDING on its way, and it is sent unless held; `go` sends it
(R270, R271). -/
def State.acceptFar (s : State) (d : BitVec 6) (r : FarReq) (mark : State → State) (go : Nat → Nat → State → State) :
    State :=
  let k := s.ictx.core
  if 768 ≤ s.cur.farHeld then s.give d 0
  else
    let hold := mustHold s.cur.far r.kind
    let s := mark s
    let s := s.upd fun c =>
      let c := { c with far := c.far ++ [{ r with stage := if hold then .held else .sent }], nextId := r.id + 1 }
      c.sendWord r.id r.statusAddr 0
    let s := s.give d 1
    if hold then s else go k r.id s

/-- The last entry of the outbound log names its far request. -/
def Core.logFar (c : Core) (id : Nat) : Core :=
  { c with outLog := match c.outLog.reverse with
      | [] => []
      | e :: r => (({ e with far := some id } : OutEntry) :: r).reverse }

/-- A re-executed outbound far form that matches its log entry (R284): no entry is taken; the status word, and OLD of an
atomic, are written as logged, or PENDING where the original has not completed. -/
def State.replayFar (s : State) (d : BitVec 6) (kind : FarKind) (desc : Nat) (e : OutEntry) : State :=
  let s := s.give d e.result
  let st := desc + 4 * kind.statusWord
  if e.result = 0 then s
  else
    let id := e.far.getD 0
    match e.done with
    | none => s.upd fun c => c.sendWord id st 0
    | some (w, old) =>
      let atomic := kind == .fadd || kind == .fcas || kind == .fswap
      s.upd fun c =>
        let c := if atomic then c.send 2 (.status id (placed (desc + 24) (bytesOfNat 8 old.toNat))) else c
        c.sendWord id st w

/-- An outbound far form of the executing core: `dst` holds the words that say where and how, `len` its length (R211). -/
def State.outFar (s : State) (op : Nat) (d : BitVec 6) (r : FarReq) (dst len : Nat) (data : List Byte) (mark : State → State)
    (go : Nat → Nat → State → State) : State :=
  let ok := decide (s.cur.farHeld < 768)
  s.outOp op dst len data (if ok then 1 else 0)
    (fun s => if ok then (if s.cur.cur then s else s.upd fun c => c.logFar r.id).acceptFar d r mark go else s.give d 0)
    (fun e s => s.replayFar d r.kind r.desc e)

/-- Segments named in a task's table are marked dirty (R269). -/
def State.markDirty (s : State) (k : Nat) (vas : List Nat) : State :=
  match (s.core k).task with
  | none => s
  | some tag =>
    s.modDie (dieOf k) fun d => d.modTask tag fun t =>
      { t with table := vas.foldl (fun m va => smod 0 m (va / 2 ^ 30) entMark) t.table }

/-! ### A request under way -/

def Core.farReq (c : Core) (id : Nat) : Option FarReq := c.far.find? fun r => r.id = id

def State.modFar (s : State) (k id : Nat) (f : FarReq → FarReq) : State :=
  s.modCore k fun c => { c with far := c.far.map fun r => if r.id = id then f r else r }

/-- A store waits for a guard: word 10 and word 11 of its descriptor name one (R272, R279). -/
def FarReq.tagged (r : FarReq) : Bool := farAddr (r.words.getD 10 0) (r.words.getD 11 0) != 0

/-- The physical die of a core within its package. -/
def halfOf (k : Nat) : Nat := dieOf k % 2

/-- A request may still touch lines of a range, for the order of R285: whole ranges, or the lines of its pieces; a store to
a duplicated segment until its second copy is written (R289), a tagged form its guard to its end, and a TLOADZ anywhere from its
data on until it has its directory entry. -/
def FarReq.touches (r : FarReq) (a n : Nat) : Bool :=
  let lo := a / 64 * 64
  let span (va len : Nat) : Bool := decide (va / 64 * 64 < a + n) && decide (lo < va + len)
  let w (i : Nat) : W := r.words.getD i 0
  match r.kind with
  | .tload => r.pieces.any fun p => span p.line 64 && decide (p.stage < 1)
  | .tstore =>
    r.pieces.any (fun p => span p.line 64 && (decide (p.stage < 2) || entDup r.ent)) ||
      (r.tagged && span (farAddr (w 10) (w 11)) 64)
  | .tloadz =>
    r.pieces.any (fun p => span p.line 64 && decide (p.stage < 1)) ||
      (r.pieces.take 1).any fun p =>
        decide (p.stage < 2) && span (farAddr (w 2) (w 3)) (entBytes r.ent - farAddr (w 2) (w 3) % 2 ^ 30)
  | .gacq => span (farAddr (w 0) (w 1)) 64
  | .grel => span (farAddr (w 0) (w 1)) 64
  | .fadd => span (farAddr (w 0) (w 1)) 8
  | .fcas => span (farAddr (w 0) (w 1)) 8
  | .fswap => span (farAddr (w 0) (w 1)) 8
  | k =>
    k.isNm && (span (farAddr (w 0) (w 1)) (64 * ((w 4).toNat + 1)) ||
      (k != .nmzero && span (farAddr (w 2) (w 3)) (64 * ((w 4).toNat + 1))) ||
      (farAddr (w 7) (w 8) != 0 && span (farAddr (w 7) (w 8)) 64))

/-- An earlier request of the core touches lines of a range and has not taken effect (R285). -/
def Core.rangeBlocked (c : Core) (id a n : Nat) : Bool :=
  c.far.any fun q => decide (q.id < id) && q.stage != .performed && q.touches a n

/-- The same of one line. -/
def Core.farBlocked (c : Core) (id line : Nat) : Bool := c.rangeBlocked id line 64

/-- The PENDING of a request has not been written. -/
def Core.statusPending (c : Core) (id : Nat) : Bool :=
  c.pend.any fun e =>
    match e.kind with
    | .status n _ => n == id
    | _ => false

/-- The final status stands: a PENDING of the request that a stall has held back is not written after it (R271). -/
def Core.dropPending (c : Core) (id : Nat) : Core :=
  { c with pend := c.pend.filter fun e =>
      match e.kind with
      | .status n _ => n != id
      | _ => true }

/-- The requests that a completion may let go: those held. -/
def State.releaseHeld (s : State) (k : Nat) : State :=
  let y := s.clkOf k
  ((s.core k).far.filter fun r => r.stage == .held).foldl (fun s r =>
    let e := evI .farRequestSend k r.id
    (s.unschedule (· == e)).scheduleCore k y e) s

/-- The segments a request has translated through count no idle superstep before this one's end (R318). -/
def State.touchSegs (s : State) (k : Nat) (r : FarReq) : State :=
  let es := [r.ent, r.sent, r.gent].map entMark
  s.modDie (dieOf k) fun d => d.modTask r.tag fun t =>
    { t with idle := t.table.foldl (fun m x => if es.contains (entMark x.2) then sset 0 m x.1 (2 ^ 32) else m) t.idle }

/-- A request ends: it writes its result fields and then its status, unless its task has left the core; the log entry
keeps the result, and requests held behind it may go (R271, R280, R284, R306). -/
def State.endFar (s : State) (k : Nat) (r : FarReq) (fields : List (Nat × Byte)) : State :=
  let y := s.clkOf k
  let st := statusWord r.code r.mis r.count
  let s := s.touchSegs k r
  let s := s.modCore k fun c =>
    let c := { c with far := c.far.filter fun q => q.id ≠ r.id }
    if r.orphan then c
    else
      let c := c.dropPending r.id
      let c := c.writeArrival (r.out ++ fields ++ placed r.statusAddr (bytesOfNat 4 st.toNat))
      let fence (q : FarReq) : FarReq :=
        if q.kind = .nmfence ∧ q.waits.contains r.id then
          { q with waits := q.waits.filter (· != r.id), count := if r.code = 2 then q.count + r.count else q.count,
                   code := if r.code = 2 then 2 else q.code }
        else q
      { c with far := c.far.map fence,
               outLog := c.outLog.map fun e => if e.far = some r.id then { e with done := some (st, r.old) } else e }
  let s := ((s.core k).far.filter fun q => q.kind == .nmfence && q.waits.isEmpty).foldl (fun s q =>
    let e := evI .nmfenceComplete k q.id
    (s.unschedule (· == e)).scheduleCore k y e) s
  s.releaseHeld k

/-- Bytes of a word at a word index of a request's descriptor. -/
def FarReq.field (r : FarReq) (i n : Nat) (v : Nat) : List (Nat × Byte) := placed (r.desc + 4 * i) (bytesOfNat n v)

/-! ### Messages of remote requests (R339, R345) -/

/-- The first fabric cycle at or after one whose slot carries remote memory (R339). -/
def remoteSlot (f : Nat) : Nat := if f % 16 < 12 then f - f % 16 + 12 else if f % 16 = 15 then f + 13 else f

/-- The number of a request's control message, beside the numbers of its pieces: its own, and its count at the guard. -/
def ctlMsg : Nat := 4294967296
def countMsg : Nat := 4294967297

/-- The number of the message that tells a store's core that it is done. -/
def doneMsg : Nat := 4294967298

/-- The package a message of a request goes to; of a TLOADZ, message 0 asks for the line of its directory entry (R312). -/
def FarReq.target (r : FarReq) (j : Nat) : Nat :=
  match r.kind with
  | .tstore => if j < ctlMsg ∨ j = doneMsg ∧ r.tagged = false then entPkg r.ent else entPkg r.gent
  | .gacq => entPkg r.gent
  | .grel => entPkg r.gent
  | .tloadz => entPkg (if j = 0 then r.sent else r.ent)
  | _ => entPkg r.ent

/-- The event of a message that has arrived: at the memory, or back at the core. -/
def FarReq.arrival (r : FarReq) (k j : Nat) (reply : Bool) : Ev :=
  match r.kind with
  | .tload => ⟨.tileTransferComplete, k, r.id, j, if reply then 2 else 1, false⟩
  | .tstore =>
    if j = ctlMsg then ⟨.taggedStoreAtGuard, k, r.id, 0, 0, false⟩
    else if j = countMsg then ⟨.taggedStoreAtGuard, k, r.id, 0, 0, true⟩
    else if j = doneMsg then ⟨.tileTransferComplete, k, r.id, 0, 3, true⟩
    else ⟨.tileTransferComplete, k, r.id, j, 1, false⟩
  | .gacq => evB .gacqAtGuard k r.id reply
  | .grel => evB .grelAtGuard k r.id reply
  | .fadd => evB .atomicAtMemory k r.id reply
  | .fcas => evB .atomicAtMemory k r.id reply
  | .fswap => evB .atomicAtMemory k r.id reply
  | .tloadz => ⟨.tloadzComplete, k, r.id, j, if reply then 2 else 1, false⟩
  | _ => if reply then evB .nmCommandComplete k r.id true else evI .nmCommandAtNmu k r.id

/-- A message of a request sets out, or a reply sets out for the core: within the package it takes a free time; to
another package it is handed to the fabric in the next fabric cycle, or a reply once its memory has answered, and crosses hop
after hop (R299, R337, R345). -/
def State.farMessage (s : State) (k : Nat) (r : FarReq) (j : Nat) (reply : Bool) : State :=
  let d := if reply then Config.farBack s.fresh else Config.farGo s.fresh
  let s := s.tick
  if r.target j = pkgOf k then s.scheduleCore k (s.clkOf k + 1 + d) (r.arrival k j reply)
  else s.scheduleFab (s.fab + 1 + (if reply then d else 0)) ⟨.remoteMemoryHop, k, r.id, j, 0, reply⟩

/-- A message waits at its package for earlier requests of its core to the same package that have not set out whole, a store
whose source is not read or a message that has not reached its first port, so that requests arrive in issue order (R345). -/
def State.mustFollow (s : State) (k : Nat) (r : FarReq) (j : Nat) : Bool :=
  ((s.core k).far.any fun q => decide (q.id < r.id) && q.kind == .tstore && q.stage == .sent && q.target 0 == r.target j &&
    !q.srcLeft.isEmpty) ||
  s.agenda.any fun d => d.ev.event == .remoteMemoryHop && d.ev.k == k && d.ev.w == 0 && !d.ev.b && decide (d.ev.i < r.id) &&
    (match (s.core k).farReq d.ev.i with
     | none => false
     | some q => q.target d.ev.j == r.target j)

/-- A message takes its place at a port: one flit in each remote-memory slot, in arrival order (R339, R345). -/
def State.queueRemote (s : State) (pkg port f : Nat) (e : Ev) : State :=
  let d := remoteSlot (Nat.max f ((s.pkg pkg).port port).remoteNext)
  (s.modPkg pkg fun p => { p with ports := smod Port.reset p.ports port fun q => { q with remoteNext := d + 1 } }).scheduleFab
    (d + Config.hop) e

end Sys2Proof.Machine
end

