-- ==== Sys2Proof/Machine/Far.lean ====
section
/-! DEFINITION. Far memory instructions and their events: tile loads and stores, guards, atomics, FSTAT, and the hops of
remote requests (13_die_memory.md R266 to R290; 19_fabric.md R345). -/

namespace Sys2Proof.Machine

/-! ### Tile descriptors (R272) -/

/-- The fields of a tile descriptor, counts as counts. -/
structure TileDesc where
  faddr : Nat
  dring : Bool
  dq : BitVec 3
  spoff : Nat
  fmt : Nat
  fill : W
  nrows : Nat
  rowlen : Nat
  fstride : Nat
  lstride : Nat
  vrows : Nat
  vbytes : Nat
  guard : Nat
  rsvd : Bool
deriving DecidableEq, Repr

def TileDesc.ofWords (ws : List W) : TileDesc :=
  let w (i : Nat) : W := ws.getD i 0
  let f (i lo n : Nat) : Nat := ((w i).extractLsb' lo n).toNat
  { faddr := farAddr (w 0) (w 1), dring := (w 2).getLsbD 31, dq := (w 2).extractLsb' 28 3, spoff := f 2 0 23, fmt := f 3 0 5,
    fill := w 4, nrows := f 5 16 12 + 1, rowlen := f 5 0 16 + 1, fstride := (w 6).toNat, lstride := f 7 0 23,
    vrows := f 8 0 13, vbytes := f 9 0 17, guard := farAddr (w 10) (w 11),
    rsvd := !farHiOk (w 1) || f 2 23 5 != 0 || f 3 5 27 != 0 || f 5 28 4 != 0 || f 7 23 9 != 0 || f 8 13 19 != 0 ||
      f 9 17 15 != 0 || !farHiOk (w 11) || w 15 != 0 }

/-- The group size of an element format. -/
def groupSize (fmt : Nat) : Nat :=
  match fmt with
  | 10 => 4 | 17 => 4
  | 11 => 2 | 12 => 2 | 16 => 2
  | 1 => 3
  | _ => 1

/-- The clipped rows and bytes of a row (R273). -/
def TileDesc.rows (d : TileDesc) : Nat := if Nat.min d.rowlen d.vbytes = 0 then 0 else Nat.min d.nrows d.vrows
def TileDesc.cols (d : TileDesc) : Nat := if d.vrows = 0 then 0 else Nat.min d.rowlen d.vbytes

/-- The length of the far range that holds the clipped rows. -/
def TileDesc.span (d : TileDesc) : Nat := (d.rows - 1) * d.fstride + d.cols

/-- The fields that a form's map forbids (R272, R346); `slotsz` is the ring slot's size, `loc` where row 0 lies, `key` the
segment's. -/
def TileDesc.bad (d : TileDesc) (store : Bool) (slotsz loc key : Nat) : Bool :=
  let g := groupSize d.fmt
  let last := (d.nrows - 1) * d.lstride + d.rowlen
  d.rsvd || decide (17 < d.fmt) || d.rowlen % g != 0 || d.vbytes % g != 0 || d.fstride % g != 0 || d.faddr % g != 0 ||
  decide (d.nrows < d.vrows) || decide (d.rowlen < d.vbytes) || d.guard % 64 != 0 ||
  (d.dring && (store || decide (slotsz < d.spoff + last))) || !rangeOk loc (loc + last - 1 : Nat) ||
  (store && key != 0 && d.rows != 0 &&
    (d.faddr % 64 != 0 || d.cols % 64 != 0 || (decide (1 < d.rows) && d.fstride % 64 != 0)))

/-- The bytes a tile form moves: far address, scratchpad offset, tile byte index. -/
def TileDesc.inside (d : TileDesc) (base : Nat) : List (Nat × Nat × Nat) :=
  ((List.range d.rows).map fun r => (List.range d.cols).map fun k =>
    (d.faddr + r * d.fstride + k, base + r * d.lstride + k, r * d.rowlen + k)).flatten

/-- The bytes of a store in far-address order: the row order, unless rows overlap in far memory; then a byte of a later row
stands for the earlier ones (R215, R275). -/
def TileDesc.farOrder (d : TileDesc) (l : List (Nat × Byte)) : List Byte :=
  if d.rows ≤ 1 ∨ d.cols ≤ d.fstride then l.map (·.2)
  else (l.foldl (fun m x => sset (none : Option Byte) m x.1 (some x.2)) []).filterMap (·.2)

/-- The pattern byte for a tile byte index (R274). -/
def TileDesc.fillByte (d : TileDesc) (idx : Nat) : Byte :=
  d.fill.extractLsb' (8 * (idx % d.rowlen % groupSize d.fmt)) 8

/-- No later row of a load writes where this byte of the tile goes (R274: the rows in order). -/
def TileDesc.wins (d : TileDesc) (idx : Nat) : Bool := idx / d.rowlen + 1 == d.nrows || decide (idx % d.rowlen < d.lstride)

/-- The clipped bytes of a load with the pattern they take. -/
def TileDesc.outside (d : TileDesc) (base : Nat) : List (Nat × Byte) :=
  ((List.range d.nrows).map fun r => (List.range d.rowlen).filterMap fun k =>
    if (r < d.vrows ∧ k < d.vbytes) ∨ d.wins (r * d.rowlen + k) = false then none
    else some (base + r * d.lstride + k, d.fillByte (r * d.rowlen + k))).flatten

/-- The pieces of a transfer: its bytes by 64-byte line. -/
def pieces (bytes : List (Nat × Nat × Nat)) : List Piece :=
  (bytes.foldl (fun m x =>
    smod (⟨0, [], 0, [], false, 0⟩ : Piece) m (x.1 / 64) fun p =>
      { p with line := x.1 / 64 * 64, at_ := p.at_ ++ [(x.1 % 64, x.2.1, x.2.2)],
               idx := if p.at_.isEmpty then x.2.2 else Nat.min p.idx x.2.2 }) ([] : SMap Piece)).map (·.2)

/-! ### Sending (R274, R280) -/

/-- The 64-byte lines of the scratchpad that the bytes of pieces lie in, rising. -/
def sourceLines (ps : List Piece) : List Nat :=
  skeys (ps.foldl (fun m p => p.at_.foldl (fun m x => sset false m (x.2.1 / 64) true) m) [])

/-- The pieces of a request set out: a load's to far memory, a store's once the lines of its source have been read, each at
one time (R275). -/
def State.launchPieces (s : State) (k : Nat) (r : FarReq) : State :=
  if r.kind = .tload then (List.range r.pieces.length).foldl (fun s j => s.farMessage k r j false) s
  else
    r.srcLeft.foldl (fun s l =>
      let t := s.clkOf k + 1 + Config.sourceReadDelay s.fresh
      s.tick.scheduleCore k t ⟨.tileTransferComplete, k, r.id, l, 0, false⟩) s

/-- The completion of a tile form that moves nothing is on its way. -/
def State.tileEnd (s : State) (k id : Nat) : State :=
  let t := s.clkOf k + 1 + Config.farBack s.fresh
  s.tick.scheduleCore k t ⟨.tileTransferComplete, k, id, 0, 3, true⟩

/-- A request is sent. -/
def sendFar (k id : Nat) (s : State) : State :=
  match (s.core k).farReq id with
  | none => s
  | some r =>
    let s := s.modFar k id fun r => { r with stage := .sent }
    match r.kind with
    | .tload => if r.pieces.isEmpty then s.tileEnd k id else s.launchPieces k r
    | .tstore =>
      if (TileDesc.ofWords r.words).guard ≠ 0 then s.farMessage k r ctlMsg false
      else if r.pieces.isEmpty then s.tileEnd k id else s.launchPieces k r
    | .nmfence => s
    | .bkalloc => s.scheduleCore k (s.clkOf k + 1 + Config.farGo s.fresh) (evI .brambleDirectoryOp k id) |>.tick
    | .bkxlat => s.scheduleCore k (s.clkOf k + 1 + Config.farGo s.fresh) (evI .brambleDirectoryOp k id) |>.tick
    | .bkshare => s.scheduleCore k (s.clkOf k + 1 + Config.farGo s.fresh) (evI .brambleDirectoryOp k id) |>.tick
    | .bkfree => s.scheduleCore k (s.clkOf k + 1 + Config.farGo s.fresh) (evI .brambleDirectoryOp k id) |>.tick
    | .bkload => s.scheduleCore k (s.clkOf k + 1 + Config.farGo s.fresh) (evI .brambleDirectoryOp k id) |>.tick
    | .bkstore => s.scheduleCore k (s.clkOf k + 1 + Config.farGo s.fresh) (evI .brambleDirectoryOp k id) |>.tick
    | .coll => s.scheduleFab (s.fab + 1) (evB .collRequestAtPrimary k id true)
    | .ccancel => s.scheduleFab (s.fab + 1) ⟨.cancelAtPrimary, k, id, 0, 1, true⟩
    | .tloadz => s.farMessage k r 0 false
    | _ => s.farMessage k r ctlMsg false

/-- FAR_REQUEST_SEND: a held form is sent once nothing holds it (R280, R306). -/
def execFarRequestSend (s : State) : Out :=
  let k := s.ev.k
  let c := s.core k
  match c.farReq s.ev.i with
  | none => .next s
  | some r =>
    if r.stage ≠ .held || mustHold (c.far.takeWhile fun q => q.id ≠ r.id) r.kind then .next s
    else .next (sendFar k r.id s)

/-! ### The instructions (R273, R277, R281, R283) -/

/-- The table of the executing core's task. -/
def State.myTable (s : State) : SMap DW := ((s.taskOf s.ictx.core).map (·.table)).getD []

def State.myTag (s : State) : W := s.cur.task.getD 0

/-- TLOAD and TSTORE (R268, R272 to R275). -/
def tileForm (store : Bool) (f : FmtDA) (s : State) : Out :=
  exchangeOnly s fun s =>
    if !s.guard f.gn f.g then .next s
    else
      let k := s.ictx.core
      let a := (s.rs 0 f.a).toNat
      match s.farDesc a 16 64 with
      | .error c => .next (s.trap c)
      | .ok ws =>
        let d := TileDesc.ofWords ws
        let ring := s.ringTail d.dq
        let table := s.myTable
        let e := entryOf table d.faddr
        let tagged := store && d.guard != 0
        let data := d.rows != 0
        let ranges := (if data then [(⟨d.faddr, d.span, !store, store, false⟩ : Range)] else []) ++
          (if tagged then [(⟨d.guard, 64, false, false, true⟩ : Range)] else [])
        let ringTo := d.dring && !store
        if ringTo && !ring.ok then .next (s.trap cRingDesc)
        else if ringTo && ring.full then .next (s.trap cRingFull)
        else if d.bad store ring.slotsz (d.spoff + (if ringTo then ring.slotAt ring.tail else 0)) (entKey e) then
          .next (s.trap cFarDesc)
        else
          match segCause table ranges with
          | some c => .next (s.trap c)
          | none =>
            if store && data && entDup e && !tagged then .next (s.trap cDupUnguarded)
            else
              let base := d.spoff + (if ringTo then ring.slotAt ring.tail else 0)
              let ps := pieces (d.inside base)
              let r := FarReq.start s.cur.nextId (if store then .tstore else .tload) s.myTag (s.clkOf k) a ws
              let r := { r with ent := e, gent := entryOf table d.guard, loc := base, pieces := ps,
                                slot := if ringTo then some ⟨s.cur.cur, d.dq.toNat, ring.tail⟩ else none,
                                out := if store then [] else d.outside base, srcLeft := if store then sourceLines ps else [] }
              if store then
                let bytes := d.farOrder ((d.inside base).map fun x => (x.1, s.cur.sp.byte x.2.1))
                .next (s.outFar (5 * 64 + 0x11) f.d r (packWords (ws.take 12)) (d.rows * d.cols) bytes (fun s => if data then s.markDirty k [d.faddr] else s) sendFar)
              else
                .next (s.acceptFar f.d r
                  (fun s => if ringTo then s.upd fun c => c.advTail d.dq.toNat ring else s) sendFar)

/-- TLOAD (R273). -/
def execTload (f : FmtDA) (s : State) : Out := tileForm false f s

/-- TSTORE (R273). -/
def execTstore (f : FmtDA) (s : State) : Out := tileForm true f s

/-- A guard form's descriptor: address, exclusive, and whether its map forbids it (R277). -/
def guardDesc (ws : List W) (sub : Nat) : Nat × Bool × Bool :=
  let w (i : Nat) : W := ws.getD i 0
  let x := (w 2).getLsbD 0
  (farAddr (w 0) (w 1), x,
   !farHiOk (w 1) || (w 0).toNat % 64 != 0 || (w 2).toNat / 2 != 0 || w 6 != 0 || w 7 != 0 ||
     (sub == 1 && !x) || (sub == 2 && x))

/-- GACQ and GREL (R277): outbound operations, sent in the order of R280. -/
def guardForm (release : Bool) (sub : Nat) (gn : Bool) (g : BitVec 4) (d a : BitVec 6) (b : W) (s : State) : Out :=
  exchangeOnly s fun s =>
    if !s.guard gn g then .next s
    else
      let k := s.ictx.core
      let o := (s.rs 0 a).toNat
      match s.farDesc o 8 32 with
      | .error c => .next (s.trap c)
      | .ok ws =>
        let x := guardDesc ws sub
        let table := s.myTable
        if x.2.2 then .next (s.trap cFarDesc)
        else
          match segCause table [⟨x.1, 64, false, false, true⟩] with
          | some c => .next (s.trap c)
          | none =>
            let r := FarReq.start s.cur.nextId (if release then .grel else .gacq) s.myTag (s.clkOf k) o ws
            let r := { r with gent := entryOf table x.1, opnd := b }
            .next (s.outFar (5 * 64 + (if release then 0x14 else 0x13) + 1024 * sub) d r (packWords (ws.take 3 ++ [b])) 64 []
              id sendFar)

/-- GACQ (R277). -/
def execGacq (f : FmtDA) (s : State) : Out := guardForm false 0 f.gn f.g f.d f.a 0 s

/-- GACQ.X (R277). -/
def execGacqX (f : FmtDA) (s : State) : Out := guardForm false 1 f.gn f.g f.d f.a 0 s

/-- GACQ.S (R277). -/
def execGacqS (f : FmtDA) (s : State) : Out := guardForm false 2 f.gn f.g f.d f.a 0 s

/-- GREL (R277). -/
def execGrel (f : FmtDAB) (s : State) : Out := guardForm true 0 f.gn f.g f.d f.a (s.rs 1 f.b) s

/-- GREL.X (R277). -/
def execGrelX (f : FmtDAB) (s : State) : Out := guardForm true 1 f.gn f.g f.d f.a (s.rs 1 f.b) s

/-- GREL.S (R277). -/
def execGrelS (f : FmtDAB) (s : State) : Out := guardForm true 2 f.gn f.g f.d f.a (s.rs 1 f.b) s

/-- The far atomics (R281). -/
def farAtomic (kind : FarKind) (sub : Nat) (f : FmtDA) (s : State) : Out :=
  exchangeOnly s fun s =>
    if !s.guard f.gn f.g then .next s
    else
      let k := s.ictx.core
      let o := (s.rs 0 f.a).toNat
      match s.farDesc o 12 16 with
      | .error c => .next (s.trap c)
      | .ok ws =>
        let w (i : Nat) : W := ws.getD i 0
        let va := farAddr (w 0) (w 1)
        let table := s.myTable
        if !farHiOk (w 1) || va % 8 != 0 || w 9 != 0 || w 10 != 0 || w 11 != 0 then .next (s.trap cFarDesc)
        else
          match segCause table [⟨va, 8, true, true, true⟩] with
          | some c => .next (s.trap c)
          | none =>
            if entDup (entryOf table va) then .next (s.trap cDupUnguarded)
            else
              let r := FarReq.start s.cur.nextId kind s.myTag (s.clkOf k) o ws
              let r := { r with ent := entryOf table va }
              let bytes := (((ws.drop 2).take 4).map fun w => bytesOfNat 4 w.toNat).flatten
              .next (s.outFar (5 * 64 + 0x15 + 1024 * sub) f.d r (packWords (ws.take 6)) 8 bytes (fun s => s.markDirty k [va]) sendFar)

/-- FADD (R281). -/
def execFadd (f : FmtDA) (s : State) : Out := farAtomic .fadd 0 f s

/-- FCAS (R281). -/
def execFcas (f : FmtDA) (s : State) : Out := farAtomic .fcas 1 f s

/-- FSWAP (R281). -/
def execFswap (f : FmtDA) (s : State) : Out := farAtomic .fswap 2 f s

/-- FSTAT (R283). -/
def execFstat (f : FmtD) (s : State) : Out :=
  if s.guard f.gn f.g then .next (s.give f.d (BitVec.ofNat 32 s.cur.farHeld)) else .next s

/-! ### Tile transfers (R274, R275, R279, R289, R290) -/

def FarReq.modPiece (r : FarReq) (j : Nat) (f : Piece → Piece) : FarReq :=
  { r with pieces := match r.pieces[j]? with
      | none => r.pieces
      | some p => r.pieces.set j (f p) }

/-- Every piece has been written. -/
def FarReq.piecesDone (r : FarReq) : Bool := r.pieces.all fun p => p.stage == 2

/-- The failing lines of a request, and the tile index and address of the first. -/
def FarReq.badLines (r : FarReq) : List Piece := r.pieces.filter (·.bad)

def FarReq.firstBad (r : FarReq) : Option Piece :=
  r.badLines.foldl (fun a p => match a with
    | none => some p
    | some q => if p.idx < q.idx then some p else some q) none

/-- What follows when the last piece of a request has been written. -/
def State.piecesEnd (s : State) (k id : Nat) : State :=
  match (s.core k).farReq id with
  | none => s
  | some r =>
    if !r.piecesDone then s
    else if r.kind = .tload then s.scheduleCore k (s.clkOf k + 1) ⟨.tileTransferComplete, k, id, 0, 3, true⟩
    else if (TileDesc.ofWords r.words).guard = 0 then s.farMessage k r doneMsg true
    else if entDup r.ent && !r.pieces.isEmpty then
      let t := s.clkOf k + 1 + Config.farGo s.fresh
      s.tick.scheduleCore k t (evI .dupCopyAck k id)
    else s.farMessage k r countMsg false

/-- A piece of a tile form at far memory; a store's line that an uncorrectable flit has spoilt is left as it was and poisoned
(R290, R338). -/
def State.pieceAtMemory (s : State) (k : Nat) (r : FarReq) (j : Nat) (p : Piece) : State :=
  if r.kind = .tload then
    let s := match s.readLine (pkgOf k) r.ent (halfOf k) p.line with
      | none => s.modFar k r.id fun r => r.modPiece j fun p => { p with bad := true, stage := 1 }
      | some l => s.modFar k r.id fun r => r.modPiece j fun (p : Piece) =>
          { p with data := p.at_.map (fun (x : Nat × Nat × Nat) => l.getD x.1 0), stage := 1 }
    s.farMessage k r j true
  else if p.bad then
    ((s.poisonLine r.ent p.line).modFar k r.id fun r => r.modPiece j fun p => { p with stage := 2 }).piecesEnd k r.id
  else
    let w : List (Nat × Byte) := (p.at_.zip p.data).map fun x => (x.1.1, x.2)
    let o := s.storeLine (pkgOf k) r.ent (halfOf k) p.line w
    let s := if o.2 then o.1.poisonLine r.ent p.line else o.1
    (s.modFar k r.id fun r => r.modPiece j fun p => { p with bad := o.2, stage := 2 }).piecesEnd k r.id

/-- A source line of a store is read: the bytes it holds now, and the pieces that lack no line have their data (R275). -/
def FarReq.readSource (r : FarReq) (sp : Memory) (l : Nat) : FarReq :=
  let src := if r.orphan then r.src else r.src.setBytes (64 * l) (sp.bytes (64 * l) 64)
  let left := r.srcLeft.filter (· != l)
  { r with
    srcLeft := left, src := src,
    pieces := r.pieces.map fun p =>
      if p.stage = 0 ∧ (p.at_.all fun x => !left.contains (x.2.1 / 64)) = true then
        { p with data := p.at_.map (fun (x : Nat × Nat × Nat) => src.byte x.2.1), stage := 1 }
      else p }

/-- The pieces that a read of a source line lets go. -/
def FarReq.freed (r : FarReq) (l : Nat) : List Nat :=
  let left := r.srcLeft.filter (· != l)
  (List.range r.pieces.length).filter fun j => match r.pieces[j]? with
    | none => false
    | some p => p.stage == 0 && p.at_.all fun x => !left.contains (x.2.1 / 64)

/-- The completion of a tile form: DELIV, FIRST and STATUS (R274, R279, R290). -/
def State.tileComplete (s : State) (k : Nat) (r : FarReq) : State :=
  let d := TileDesc.ofWords r.words
  let n := r.badLines.length
  let held := r.code ≠ 4
  let r := { r with
    code := if !held then 4 else if r.code = 2 ∨ 0 < n then 2 else 1
    count := if held then sat24 (n + r.count) else 0
    out := r.out ++ (if r.kind = .tload then
      (r.badLines.map fun p => (p.at_.filter fun x => d.wins x.2.2).map fun x => (x.2.1, d.fillByte x.2.2)).flatten else []) }
  let deliv := if held then ((r.pieces.filter fun p => !p.bad && p.stage == 2).map fun p => p.at_.length).sum else 0
  let first := if held then (r.firstBad.map (·.idx)).getD 0xFFFFFFFF else 0xFFFFFFFF
  s.endFar k r (r.field 13 4 deliv ++ r.field 14 4 first)

/-- TILE_TRANSFER_COMPLETE (R274, R275): a line of a store's source is read (w = 0, j the line); a piece of the transfer is
moved and written; and after the last the form completes. -/
def execTileTransferComplete (s : State) : Out :=
  let k := s.ev.k
  let j := s.ev.j
  let y := s.clkOf k
  let c := s.core k
  match c.farReq s.ev.i with
  | none => .next s
  | some r =>
    if s.ev.b then
      .next (s.tileComplete k r)
    else if s.ev.w = 0 then
      let s := s.modFar k r.id fun r => r.readSource c.sp j
      .next ((r.freed j).foldl (fun s i => s.farMessage k r i false) s)
    else
      match r.pieces[j]? with
      | none => .next s
      | some p =>
        if s.ev.w = 1 then
          if c.farBlocked r.id p.line then .next (s.scheduleCore k (y + 1) s.ev) else .next (s.pieceAtMemory k r j p)
        else
          let s := s.modFar k r.id fun r => r.modPiece j fun p => { p with stage := 2 }
          let s := if r.orphan || p.bad then s
            else
              let d := TileDesc.ofWords r.words
              s.modCore k fun c => c.writeArrival
                (((p.at_.zip p.data).filter fun x => d.wins x.1.2.2).map fun x => (x.1.2.1, x.2))
          .next (s.piecesEnd k r.id)

/-- TAGGED_STORE_AT_GUARD (R279): the store is checked and performed or refused, after the core's earlier forms at the guard
(R285); once performed, its arrival is counted. -/
def execTaggedStoreAtGuard (s : State) : Out :=
  let k := s.ev.k
  match (s.core k).farReq s.ev.i with
  | none => .next s
  | some r =>
    let va := (TileDesc.ofWords r.words).guard
    let g := s.readGuard (pkgOf k) r.gent (halfOf k) va
    if s.ev.b then
      let s := match g with
        | none => s
        | some g =>
          s.writeGuard (pkgOf k) r.gent (halfOf k) va (g.arrive r.badLines.length ((r.firstBad.map Piece.line).getD 0))
      .next (s.farMessage k r doneMsg true)
    else if (s.core k).farBlocked r.id va then .next (s.scheduleCore k (s.clkOf k + 1) s.ev)
    else if (g.map fun g => g.heldBy (coreId k)).getD false then
      .next (if r.piecesDone then s.piecesEnd k r.id else s.launchPieces k r)
    else
      .next ((s.modFar k r.id fun r => { r with code := 4, pieces := [] }).farMessage k r doneMsg true)

/-- The second copy of a piece: a line that fails there is left, marked in every copy, and counts as failing (R289, R290). -/
def State.secondCopy (s : State) (k : Nat) (r : FarReq) (j : Nat) (p : Piece) : State :=
  if p.bad then s
  else
    let o := s.storeLine (pkgOf k) r.ent (halfOf k + 1) p.line ((p.at_.zip p.data).map fun x => (x.1.1, x.2))
    if o.2 then (o.1.poisonLine r.ent p.line).modFar k r.id fun r => r.modPiece j fun p => { p with bad := true } else o.1

/-- DUP_COPY_ACK (R289): the other die writes its copy and acknowledges it; only then may a later overlapping form of the core
go on (R285). -/
def execDupCopyAck (s : State) : Out :=
  let k := s.ev.k
  match (s.core k).farReq s.ev.i with
  | none => .next s
  | some r =>
    let s := ((List.range r.pieces.length).zip r.pieces).foldl (fun s x => s.secondCopy k r x.1 x.2) s
    let s := s.modFar k r.id fun r => { r with stage := .performed }
    .next (s.farMessage k r countMsg false)

/-! ### Guards and atomics at their memory (R278, R279, R282) -/

/-- A request has been performed; its reply sets out. -/
def State.performed (s : State) (k id : Nat) (f : FarReq → FarReq) : State :=
  let s := s.modFar k id fun r => { f r with stage := .performed }
  match (s.core k).farReq id with
  | none => s
  | some r => s.farMessage k r ctlMsg true

/-- The completion half of an event. -/
def State.completeWith (s : State) (k id : Nat) (fields : FarReq → List (Nat × Byte)) : State :=
  match (s.core k).farReq id with
  | none => s
  | some r => s.endFar k r (fields r)

/-- A guard form at its guard, after the core's earlier forms there (R285), or its completion; a guard that stays as it is is
not written. -/
def guardEvent (act : Guard → FarReq → Nat → GuardOut) (s : State) : Out :=
  let k := s.ev.k
  match (s.core k).farReq s.ev.i with
  | none => .next s
  | some r =>
    if s.ev.b then
      .next (s.completeWith k r.id fun r =>
        if r.kind = .gacq ∧ (r.code = 1 ∨ r.code = 2) then r.field 4 8 r.firstp else [])
    else
      let va := farAddr (r.words.getD 0 0) (r.words.getD 1 0)
      if (s.core k).farBlocked r.id va then .next (s.scheduleCore k (s.clkOf k + 1) s.ev)
      else
        let g := (s.readGuard (pkgOf k) r.gent (halfOf k) va).getD Guard.unread
        let o := act g r k
        let s := if o.guard = g then s else s.writeGuard (pkgOf k) r.gent (halfOf k) va o.guard
        .next (s.performed k r.id fun r => { r with code := o.code, mis := o.mis, count := o.count, firstp := o.firstp })

/-- GACQ_AT_GUARD (R278). -/
def execGacqAtGuard (s : State) : Out :=
  guardEvent (fun g r k => g.acquire ((r.words.getD 2 0).getLsbD 0) (coreId k)) s

/-- GREL_AT_GUARD (R279). -/
def execGrelAtGuard (s : State) : Out :=
  guardEvent (fun g r k => g.release ((r.words.getD 2 0).getLsbD 0) (coreId k) r.opnd) s

/-- The value an atomic leaves (R282). -/
def farAtomicNew (kind : FarKind) (old opnd cmp : Nat) : Nat :=
  match kind with
  | .fadd => (old + opnd) % 2 ^ 64
  | .fswap => opnd
  | _ => if old = cmp then opnd else old

/-- ATOMIC_AT_MEMORY (R282). -/
def execAtomicAtMemory (s : State) : Out :=
  let k := s.ev.k
  let c := s.core k
  match c.farReq s.ev.i with
  | none => .next s
  | some r =>
    if s.ev.b then .next (s.completeWith k r.id fun r => r.field 6 8 r.old.toNat)
    else
      let w (i : Nat) : Nat := (r.words.getD i 0).toNat
      let va := farAddr (r.words.getD 0 0) (r.words.getD 1 0)
      if c.farBlocked r.id (va / 64 * 64) then .next (s.scheduleCore k (s.clkOf k + 1) s.ev)
      else
        match s.readLine (pkgOf k) r.ent (halfOf k) va with
        | none => .next (s.performed k r.id fun r => { r with code := 2, count := 1, old := 0 })
        | some l =>
          let old := natOfBytes ((l.drop (va % 64)).take 8)
          let new := farAtomicNew r.kind old (w 2 + w 3 * 2 ^ 32) (w 4 + w 5 * 2 ^ 32)
          let l := l.take (va % 64) ++ bytesOfNat 8 new ++ l.drop (va % 64 + 8)
          let s := s.writeLine (pkgOf k) r.ent (halfOf k) va l
          .next (s.performed k r.id fun r => { r with code := 1, old := BitVec.ofNat 64 old })

/-! ### Remote requests (R345) -/

/-- A message of a request is lost (R290, R299, R345): a line of a store or a load fails; a tagged store whose word to its guard is
lost fails with all its lines, and its check and its arrival take place all the same (R290); any other message leaves its form
POISONED with COUNT 1 more, and a store that has moved its lines keeps them.  `mark`: the line of a store is left poisoned at
its destination. -/
def State.loseMessage (s : State) (k : Nat) (r : FarReq) (j : Nat) (mark : Bool) : State :=
  let t := s.clkOf k + 1
  if r.kind = .tloadz then
    (s.modFar k r.id fun r => r.modPiece j fun p => { p with bad := true }).scheduleCore k t (r.arrival k j true)
  else if r.kind = .tstore ∧ j = ctlMsg then
    (s.modFar k r.id fun r => { r with pieces := r.pieces.map fun p => { p with bad := true, stage := 2 } }).scheduleCore k t
      (r.arrival k j false)
  else if r.kind = .tstore ∧ j = countMsg then s.scheduleCore k t (r.arrival k j false)
  else if (r.kind = .tload ∨ r.kind = .tstore) ∧ j < ctlMsg then
    let s := match mark && r.kind == .tstore, r.pieces[j]? with
      | true, some p => s.poisonLine r.ent p.line
      | _, _ => s
    (s.modFar k r.id fun r => r.modPiece j fun p => { p with bad := true, stage := 2 }).piecesEnd k r.id
  else
    let s := s.modFar k r.id fun r => { r with code := 2, count := 1, stage := .performed, pieces := if j = doneMsg then r.pieces else [] }
    match r.kind with
    | .tstore => s.scheduleCore k t ⟨.tileTransferComplete, k, r.id, 0, 3, true⟩
    | _ => s.scheduleCore k t (r.arrival k j true)

/-- REMOTE_MEMORY_HOP (R339, R345): a request or reply is handed to its first port (w = 0), or has made w hops: it is lost
where its link is down or its flit uncorrectable, goes on through the next port, or is there.  A request waits while a
whole-device checkpoint is copied (R320).  A store's line in an uncorrectable flit goes on as one that fails at its destination
(R290, R338); one lost on a link that is down does not (R345). -/
def execRemoteMemoryHop (s : State) : Out :=
  let k := s.ev.k
  match (s.core k).farReq s.ev.i with
  | none => .next s
  | some r =>
    let j := s.ev.j
    let here := pkgOf k
    let there := r.target j
    let src := if s.ev.b then there else here
    let path := if s.ev.b then s.path there here else s.path here there
    let go (s : State) (pkg f : Nat) : State := s.queueRemote pkg (path.getD s.ev.w 0) f { s.ev with w := s.ev.w + 1 }
    if s.ev.w = 0 then
      .next (if !s.ev.b && s.mustFollow k r j then s.scheduleFab (s.fab + 1) s.ev else go s src s.fab)
    else
      let sender := (path.take (s.ev.w - 1)).foldl s.portTo src
      let port := path.getD (s.ev.w - 1) 0
      let receiver := s.portTo sender port
      let last := s.ev.w == path.length
      if !s.ev.b && last && (s.pkg receiver).copying.isSome then .next (s.scheduleFab (s.fab + 1) s.ev)
      else if s.nullPort sender port then .next (s.loseMessage k r j false)
      else
        let spoil := ((s.pkg receiver).port (oppositePort port)).spoil
        let line := r.kind == .tstore && decide (j < ctlMsg)
        if spoil && !line then .next (s.loseMessage k r j false)
        else
          let s := if spoil then s.modFar k r.id fun r => r.modPiece j fun p => { p with bad := true } else s
          .next (if last then s.scheduleCore k (s.clkOf k + 1) (r.arrival k j s.ev.b) else go s receiver (s.fab + 1))

/-- The entry whose memory a message of a request goes to or comes from; none where the message crosses nothing. -/
def FarReq.memoryOf (r : FarReq) (j : Nat) : Option DW :=
  if j = doneMsg then
    (if r.kind ≠ .tstore ∨ (r.tagged = false ∧ r.pieces = []) then none else some (if r.tagged then r.gent else r.ent))
  else if r.kind = .tloadz ∧ j = 0 then some r.sent
  else some (if r.kind = .gacq ∨ r.kind = .grel ∨ ctlMsg ≤ j ∧ r.kind = .tstore then r.gent else r.ent)

/-- A request's memory lies on the other die of its package: the bridge carries its messages (R299). -/
def FarReq.crosses (r : FarReq) (k j : Nat) : Bool :=
  match r.memoryOf j with
  | none => false
  | some e => !entTier e && !entDup e && entStack e / 4 != halfOf k

/-- An event stands on the agenda. -/
def State.awaits (s : State) (e : Ev) : Bool := s.agenda.any fun d => d.ev == e

/-- A message of a tile form, guard form, atomic or command fails: a store's line at its memory, wherever that is, or any message
on the bridge of its package (R290, R299). -/
def State.failRequest (s : State) (k : Nat) (r : FarReq) (j : Nat) : State :=
  let go := r.arrival k j false
  let back := r.arrival k j true
  if r.kind = .tstore ∧ j < ctlMsg ∧ s.awaits go = true then (s.unschedule (· == go)).loseMessage k r j true
  else if r.target j = pkgOf k ∧ r.crosses k j = true ∧ (s.awaits go || s.awaits back) = true then
    (s.unschedule fun e => e == go || e == back).loseMessage k r j false
  else s

/-- The line of a duplicated segment that the bridge carries to its second copy fails: it is left as it is there, poisoned in
every copy, and counts as failing (R289, R290, R299). -/
def State.failCopy (s : State) (k : Nat) (r : FarReq) (j : Nat) : State :=
  match r.pieces[j]? with
  | none => s
  | some p => (s.poisonLine r.ent p.line).modFar k r.id fun r => r.modPiece j fun p => { p with bad := true }

end Sys2Proof.Machine
end

