-- ==== Sys2Proof/Machine/NearMem.lean ====
section
/-! DEFINITION. Near-memory commands and the fence: descriptors, the unit of a stack, its line steps and completions
(16_package_memory.md R300 to R306). -/

namespace Sys2Proof.Machine

/-! ### Descriptors (R301) -/

structure NmDesc where
  dst : Nat
  src : Nat
  nlines : Nat
  p0 : W
  p1 : W
  guard : Nat
  rsvd : Bool
deriving DecidableEq, Repr

def NmDesc.ofWords (ws : List W) : NmDesc :=
  let w (i : Nat) : W := ws.getD i 0
  { dst := farAddr (w 0) (w 1), src := farAddr (w 2) (w 3), nlines := (w 4).toNat % 2 ^ 24 + 1, p0 := w 5, p1 := w 6,
    guard := farAddr (w 7) (w 8),
    rsvd := !farHiOk (w 1) || !farHiOk (w 3) || decide (2 ^ 24 ≤ (w 4).toNat) || !farHiOk (w 8) || w 14 != 0 || w 15 != 0 }

/-- Two ranges of n bytes overlap. -/
def rangesMeet (a b n : Nat) : Bool := decide (a < b + n) && decide (b < a + n)

/-- The fields that a form's map forbids (R301). -/
def NmDesc.bad (d : NmDesc) (kind : FarKind) : Bool :=
  let n := 64 * d.nlines
  d.rsvd || d.dst % 64 != 0 || d.src % 64 != 0 || d.guard % 64 != 0 ||
  (kind == .nmzero && d.src != 0) ||
  (kind != .nmsadd && kind != .nmsgd && d.p0 != 0) || (kind != .nmsgd && d.p1 != 0) ||
  ((kind == .nmsadd || kind == .nmsgd) && d.dst != d.src && rangesMeet d.dst d.src n) ||
  (kind == .nmcopy && rangesMeet d.dst d.src n)

/-- The checked ranges and the permissions they need (R302). -/
def NmDesc.ranges (d : NmDesc) (kind : FarKind) : List Range :=
  let n := 64 * d.nlines
  [(⟨d.dst, n, kind == .nmsgd || kind == .nmcmp, kind != .nmcmp, true⟩ : Range)] ++
  (if kind = .nmzero then [] else [(⟨d.src, n, true, false, false⟩ : Range)]) ++
  (if d.guard = 0 then [] else [(⟨d.guard, 64, false, false, true⟩ : Range)])

/-- NM_PLACE (R300). -/
def NmDesc.misplaced (d : NmDesc) (kind : FarKind) (table : SMap DW) : Bool :=
  let e := entryOf table d.dst
  let x := entryOf table d.src
  entTier e || entDup e ||
  (kind != .nmzero && (entTier x || entDup x || entPkg e != entPkg x || entStack e != entStack x))

/-! ### The instructions (R302, R306) -/

/-- A near-memory command. -/
def nmForm (kind : FarKind) (sub : Nat) (f : FmtDA) (s : State) : Out :=
  exchangeOnly s fun s =>
    if !s.guard f.gn f.g then .next s
    else
      let k := s.ictx.core
      let a := (s.rs 0 f.a).toNat
      match s.farDesc a 16 64 with
      | .error c => .next (s.trap c)
      | .ok ws =>
        let d := NmDesc.ofWords ws
        let table := s.myTable
        if d.bad kind then .next (s.trap cFarDesc)
        else
          match segCause table (d.ranges kind) with
          | some c => .next (s.trap c)
          | none =>
            if d.misplaced kind table then .next (s.trap cNmPlace)
            else
              let r := FarReq.start s.cur.nextId kind s.myTag (s.clkOf k) a ws
              let r := { r with ent := entryOf table d.dst, sent := entryOf table d.src, gent := entryOf table d.guard }
              .next (s.outFar (5 * 64 + 0x16 + 1024 * sub) f.d r (packWords (ws.take 9)) (64 * d.nlines) []
                (fun s => if kind = .nmcmp then s else s.markDirty k [d.dst]) sendFar)

/-- NMSADD (R302). -/
def execNmsadd (f : FmtDA) (s : State) : Out := nmForm .nmsadd 0 f s

/-- NMSGD (R302). -/
def execNmsgd (f : FmtDA) (s : State) : Out := nmForm .nmsgd 1 f s

/-- NMZERO (R302). -/
def execNmzero (f : FmtDA) (s : State) : Out := nmForm .nmzero 2 f s

/-- NMCOPY (R302). -/
def execNmcopy (f : FmtDA) (s : State) : Out := nmForm .nmcopy 3 f s

/-- NMCMP (R302). -/
def execNmcmp (f : FmtDA) (s : State) : Out := nmForm .nmcmp 4 f s

/-- NMFENCE (R306): it waits for the commands accepted before it and does not travel. -/
def execNmfence (f : FmtDA) (s : State) : Out :=
  exchangeOnly s fun s =>
    if !s.guard f.gn f.g then .next s
    else
      let k := s.ictx.core
      let a := (s.rs 0 f.a).toNat
      match s.farDesc a 4 16 with
      | .error c => .next (s.trap c)
      | .ok ws =>
        let waits := (s.cur.far.filter fun q => !q.orphan && q.kind.isNm).map (·.id)
        let r := FarReq.start s.cur.nextId .nmfence s.myTag (s.clkOf k) a ws
        let r := { r with waits := waits, ncmd := waits.length }
        .next (s.outFar (5 * 64 + 0x17) f.d r 0 0 []
          (fun s => s.scheduleCore k (s.clkOf k + 2) (evI .nmfenceComplete k r.id)) sendFar)

/-- NMFENCE_COMPLETE (R306). -/
def execNmfenceComplete (s : State) : Out :=
  let k := s.ev.k
  let c := s.core k
  match c.farReq s.ev.i with
  | none => .next s
  | some r =>
    if c.statusPending r.id then .next (s.scheduleCore k (s.clkOf k + 1) s.ev)
    else if !r.waits.isEmpty then .next s
    else
      let r := { r with code := if r.code = 2 then 2 else 1 }
      .next (s.endFar k r (r.field 1 4 r.ncmd ++ r.field 2 8 0))

/-! ### The unit of a stack (R303 to R305) -/

def FarReq.stack (r : FarReq) : Nat := entStack r.ent

/-- The command at the head of a stack's queue begins: a tagged one is checked at its guard first. -/
def State.nmBegin (s : State) (pkg stack : Nat) : State :=
  match sget [] (s.pkg pkg).nmu stack with
  | [] => s
  | (k, id) :: _ =>
    match (s.core k).farReq id with
    | none => s
    | some r =>
      let d := NmDesc.ofWords r.words
      let ok := d.guard == 0 ||
        ((s.readGuard (pkgOf k) r.gent (halfOf k) d.guard).map fun g => g.heldBy (coreId k)).getD false
      let t := s.clkOf k + 1 + Config.farGo s.fresh
      if ok then s.tick.scheduleCore k t (evI .nmLineStep k id)
      else
        (s.modFar k id fun r => { r with code := 4 }).tick.scheduleCore k t (evB .nmCommandComplete k id false)

/-- The commands of a package's cores leave the units of every package; where they were first, the next begins (R305). -/
def State.dropCommands (s : State) (pkg : Nat) : State :=
  (skeys s.pkgs).foldl (fun s p =>
    (List.range 8).foldl (fun s stack =>
      let q := sget [] (s.pkg p).nmu stack
      let rest := q.filter fun x => pkgOf x.1 ≠ pkg
      if rest = q then s
      else
        let s := s.modPkg p fun x => { x with nmu := sset [] x.nmu stack rest }
        match rest with
        | [] => s
        | (k, id) :: _ =>
          if rest.head? = q.head? then s else s.scheduleCore k (s.clkOf k + 1) (evI .nmCommandAtNmu k id)) s) s

/-- NM_COMMAND_AT_NMU (R285, R303, R305): a core's commands to one stack keep their order, and a tagged one waits for the core's
earlier forms at its guard; a command that has become the first of its queue begins. -/
def execNmCommandAtNmu (s : State) : Out :=
  let k := s.ev.k
  let c := s.core k
  match c.farReq s.ev.i with
  | none => .next s
  | some r =>
    let earlier := c.far.any fun q =>
      decide (q.id < r.id) && q.kind.isNm && q.stage == .sent && entPkg q.ent == entPkg r.ent && q.stack == r.stack
    let pkg := entPkg r.ent
    let guard := (NmDesc.ofWords r.words).guard
    if r.stage = .queued then .next (s.nmBegin pkg r.stack)
    else if earlier || (guard != 0 && c.farBlocked r.id guard) then .next (s.scheduleCore k (s.clkOf k + 1) s.ev)
    else
      let s := s.modFar k r.id fun r => { r with stage := .queued }
      let q := sget [] (s.pkg pkg).nmu r.stack
      let s := s.modPkg pkg fun p => { p with nmu := sset [] p.nmu r.stack (q ++ [(k, r.id)]) }
      .next (if q.isEmpty then s.nmBegin pkg r.stack else s)

/-- The FP32 results of a line, and how many are infinite or NaN (R303). -/
def nmArith (kind : FarKind) (p0 p1 : W) (d x : List Byte) : List Byte × Nat :=
  let fp (w : W) : XVal := fp32.decode w.toNat
  let r := (List.range 16).map fun e =>
    let a := fp (wordAt d e)
    let b := fp (wordAt x e)
    let v := match kind with
      | .nmsadd => XVal.add false a (XVal.mul (fp p0) b)
      | _ => XVal.add false (XVal.add false a (XVal.mul (fp p0) b).negate) (XVal.mul (XVal.mul (fp p0) (fp p1)) a).negate
    (fp32.encode .rne false 0 v).1
  ((r.map fun n => bytesOfNat 4 n).flatten, (r.filter fun n => decide (n / 2 ^ 23 % 256 = 255)).length)

/-- One line of a command (R303). -/
def State.nmLine (s : State) (k : Nat) (r : FarReq) : State :=
  let d := NmDesc.ofWords r.words
  let l := r.line
  let dva := d.dst + 64 * l
  let sva := d.src + 64 * l
  let dl := s.readLine (pkgOf k) r.ent (halfOf k) dva
  let sl := s.readLine (pkgOf k) r.sent (halfOf k) sva
  let fails := match r.kind with
    | .nmzero => false
    | .nmcopy => sl.isNone
    | _ => dl.isNone || sl.isNone
  let next (f : FarReq → FarReq) (s : State) : State := s.modFar k r.id fun r => { f r with line := l + 1 }
  if fails then
    let s := if r.kind = .nmcmp then s else s.poisonLine r.ent dva
    next (fun r => { r with count := r.count + 1, first := some (r.first.getD l) }) s
  else
    let put (bs : List Byte) : State := s.writeLine (pkgOf k) r.ent (halfOf k) dva bs
    let x := sl.getD []
    match r.kind with
    | .nmzero => next (fun r => { r with deliv := r.deliv + 1 }) (put (List.replicate 64 0))
    | .nmcopy => next (fun r => { r with deliv := r.deliv + 1 }) (put x)
    | .nmcmp =>
      let differ := dl.getD [] != x
      next (fun r => { r with deliv := r.deliv + 1, nfin := if differ then r.nfin + 1 else r.nfin,
                              firstD := if differ then some (r.firstD.getD l) else r.firstD }) s
    | _ =>
      let y := nmArith r.kind d.p0 d.p1 (dl.getD []) x
      next (fun r => { r with deliv := r.deliv + 1, nfin := r.nfin + y.2 }) (put y.1)

/-- NM_LINE_STEP (R303, R305): one line, indivisibly; the next follows. -/
def execNmLineStep (s : State) : Out :=
  let k := s.ev.k
  let c := s.core k
  match c.farReq s.ev.i with
  | none => .next s
  | some r =>
    let d := NmDesc.ofWords r.words
    let y := s.clkOf k
    if c.farBlocked r.id (d.dst + 64 * r.line) || (r.kind != .nmzero && c.farBlocked r.id (d.src + 64 * r.line)) then
      .next (s.scheduleCore k (y + 1) s.ev)
    else
      let s := s.nmLine k r
      if r.line + 1 < d.nlines then
        let t := y + 1 + Config.farGo s.fresh
        .next (s.tick.scheduleCore k t (evI .nmLineStep k r.id))
      else .next (s.scheduleCore k y (evB .nmCommandComplete k r.id false))

/-- NM_COMMAND_COMPLETE (R304): at the unit the command is counted at its guard and the next begins; at the core it
writes its results. -/
def execNmCommandComplete (s : State) : Out :=
  let k := s.ev.k
  match (s.core k).farReq s.ev.i with
  | none => .next s
  | some r =>
    let d := NmDesc.ofWords r.words
    if s.ev.b then
      .next (s.completeWith k r.id fun r =>
        r.field 10 4 r.deliv ++ r.field 11 4 (r.first.getD 0xFFFFFFFF) ++ r.field 12 4 r.nfin ++
        r.field 13 4 (if r.kind = .nmcmp then r.firstD.getD 0xFFFFFFFF else 0))
    else
      let pkg := entPkg r.ent
      let s := if d.guard = 0 ∨ r.code = 4 then s
        else
          match s.readGuard (pkgOf k) r.gent (halfOf k) d.guard with
          | none => s
          | some g => s.writeGuard (pkgOf k) r.gent (halfOf k) d.guard (g.arrive r.count (d.dst + 64 * r.first.getD 0))
      let s := s.modPkg pkg fun p => { p with nmu := smod [] p.nmu r.stack fun q => q.drop 1 }
      let s := s.performed k r.id fun r => { r with code := if r.code = 4 then 4 else if r.count = 0 then 1 else 2 }
      .next (s.nmBegin pkg r.stack)

end Sys2Proof.Machine
end

