-- ==== Sys2Proof/Machine/Bramble.lean ====
section
/-! DEFINITION. The Bramble store: its forms, the directory, copy-on-write and the pools (16_package_memory.md R307 to
R311). -/

namespace Sys2Proof.Machine

/-! ### Descriptors (R308) -/

structure BkDesc where
  key : Nat
  key2 : Nat
  dring : Bool
  dq : BitVec 3
  spoff : Nat
  len : Nat
  boff : Nat
  rsvd : Bool
deriving DecidableEq, Repr

/-- A key as one number: sequence, layer, block number. -/
def bkKey (seq w : W) : Nat := seq.toNat * 2 ^ 24 + w.toNat / 2 ^ 24 * 2 ^ 16 + w.toNat % 2 ^ 16

def BkDesc.ofWords (ws : List W) : BkDesc :=
  let w (i : Nat) : W := ws.getD i 0
  let f (i lo n : Nat) : Nat := ((w i).extractLsb' lo n).toNat
  { key := bkKey (w 0) (w 1), key2 := bkKey (w 2) (w 3), dring := (w 4).getLsbD 31, dq := (w 4).extractLsb' 28 3,
    spoff := f 4 0 23, len := f 5 0 17, boff := f 6 0 16,
    rsvd := f 1 16 8 != 0 || f 3 16 8 != 0 || f 4 23 5 != 0 || f 5 17 15 != 0 || f 6 16 16 != 0 || w 7 != 0 ||
      (List.range 5).any fun i => w (11 + i) != 0 }

/-- The fields that a form's map forbids (R272, R308); `slotsz` is the ring slot's size, `loc` where the bytes lie. -/
def BkDesc.bad (d : BkDesc) (kind : FarKind) (ws : List W) (slotsz loc : Nat) : Bool :=
  let data := kind == .bkload || kind == .bkstore
  d.rsvd || (kind != .bkshare && (ws.getD 2 0 != 0 || ws.getD 3 0 != 0)) || (kind != .bkload && d.dring) ||
  (if data then
    decide (d.len < 64) || decide (65536 < d.len) || d.len % 64 != 0 || d.boff % 64 != 0 ||
    decide (65536 < d.boff + d.len) ||
    (d.dring && decide (slotsz < d.spoff + d.len)) || !rangeOk loc (loc + d.len - 1 : Nat)
   else d.len != 0 || d.boff != 0)

/-- The pieces of a block access: one line each (R309). -/
def BkDesc.lines (d : BkDesc) (base : Nat) : List Piece :=
  pieces ((List.range d.len).map fun i => (d.boff + i, base + i, i))

/-! ### The instructions (R309) -/

/-- A Bramble form. -/
def bkForm (kind : FarKind) (op sub : Nat) (f : FmtDA) (s : State) : Out :=
  exchangeOnly s fun s =>
    if !s.guard f.gn f.g then .next s
    else
      let k := s.ictx.core
      let a := (s.rs 0 f.a).toNat
      match s.farDesc a 16 64 with
      | .error c => .next (s.trap c)
      | .ok ws =>
        let d := BkDesc.ofWords ws
        let ring := s.ringTail d.dq
        let ringTo := d.dring && kind == .bkload
        if ringTo && !ring.ok then .next (s.trap cRingDesc)
        else if ringTo && ring.full then .next (s.trap cRingFull)
        else if d.bad kind ws ring.slotsz (d.spoff + (if ringTo then ring.slotAt ring.tail else 0)) then .next (s.trap cFarDesc)
        else if !((s.taskOf k).map fun t => t.desc.bk).getD false then .next (s.trap cBkDenied)
        else
          let base := d.spoff + (if ringTo then ring.slotAt ring.tail else 0)
          let r := FarReq.start s.cur.nextId kind s.myTag (s.clkOf k) a ws
          let ps := if kind = .bkload ∨ kind = .bkstore then d.lines base else []
          let r := { r with loc := base, slot := if ringTo then some ⟨s.cur.cur, d.dq.toNat, ring.tail⟩ else none, pieces := ps,
                            srcLeft := if kind = .bkstore then sourceLines ps else [] }
          if kind = .bkload ∨ kind = .bkxlat then
            .next (s.acceptFar f.d r (fun s => if ringTo then s.upd fun c => c.advTail d.dq.toNat ring else s) sendFar)
          else
            let bytes := if kind = .bkstore then s.cur.sp.bytes base d.len else []
            .next (s.outFar (5 * 64 + op + 1024 * sub) f.d r (packWords (ws.take 8)) d.len bytes id sendFar)

/-- BKALLOC (R309). -/
def execBkalloc (f : FmtDA) (s : State) : Out := bkForm .bkalloc 0x18 0 f s

/-- BKXLAT (R309). -/
def execBkxlat (f : FmtDA) (s : State) : Out := bkForm .bkxlat 0x18 1 f s

/-- BKSHARE (R309). -/
def execBkshare (f : FmtDA) (s : State) : Out := bkForm .bkshare 0x18 2 f s

/-- BKFREE (R309). -/
def execBkfree (f : FmtDA) (s : State) : Out := bkForm .bkfree 0x18 3 f s

/-- BKLOAD (R309). -/
def execBkload (f : FmtDA) (s : State) : Out := bkForm .bkload 0x19 0 f s

/-- BKSTORE (R309, R310). -/
def execBkstore (f : FmtDA) (s : State) : Out := bkForm .bkstore 0x1A 0 f s

/-! ### The directory (R307, R310, R311) -/

/-- A block's number from its stack and index. -/
def bkBlock (stack index : Nat) : Nat := stack * 2 ^ 24 + index

def Bramble.ref (b : Bramble) (n : Nat) : Nat := sget 0 b.refs n

/-- The indices of a stack that are taken: referenced, or waiting for their accesses; rising. -/
def Bramble.taken (b : Bramble) (stack : Nat) : List Nat :=
  let z := b.zombie.filter fun n => n / 2 ^ 24 == stack
  skeys (z.foldl (fun m n => sset false m (n % 2 ^ 24) true)
    ((srange b.refs (bkBlock stack 0) (bkBlock (stack + 1) 0)).map fun x => (x.1 % 2 ^ 24, true)))

/-- The free blocks of a stack. -/
def Bramble.free (b : Bramble) (stack : Nat) : Nat := sget 0 b.pool stack - (b.taken stack).length

/-- The n-th index from 0 that a rising list of taken indices leaves free. -/
def nthFree : List Nat → Nat → Nat
  | [], n => n
  | u :: r, n => if u ≤ n then nthFree r (n + 1) else n

/-- A free block of a stack; which of them is open (R309). -/
def Bramble.pick (b : Bramble) (stack fresh : Nat) : Nat :=
  bkBlock stack (nthFree (b.taken stack) (Config.pickBlock fresh % b.free stack))

/-- The stack with the most free blocks among some, the lowest on a tie; none if no block is free. -/
def Bramble.widest (b : Bramble) (ns : List Nat) : Option Nat :=
  ns.foldl (fun a n => match a with
    | none => if b.free n = 0 then none else some n
    | some m => if b.free m < b.free n then some n else some m) none

/-- A block filled with zeros, or with another block's lines and marks. -/
def Bramble.fill (b : Bramble) (n : Nat) (src : Option Nat) : Bramble :=
  let lo := n * 65536
  let shift (a : Nat) (m : Nat) : Nat := lo + (m - a)
  { b with
    data := ssetAll 0#8 (sclear b.data lo (lo + 65536)) (match src with
      | none => []
      | some q => (srange b.data (q * 65536) (q * 65536 + 65536)).map fun x => (shift (q * 65536) x.1, x.2))
    poison := ssetAll false (sclear b.poison (n * 1024) (n * 1024 + 1024)) (match src with
      | none => []
      | some q => (srange b.poison (q * 1024) (q * 1024 + 1024)).map fun x => (n * 1024 + (x.1 - q * 1024), x.2)) }

/-- A block loses a reference; at none it waits for its accesses (R311). -/
def Bramble.drop (b : Bramble) (n : Nat) : Bramble :=
  let m := b.ref n - 1
  { b with refs := sset 0 b.refs n m, zombie := if m = 0 then b.zombie ++ [n] else b.zombie }

/-- What a directory operation answers: OUTCOME, REFS, the key's block after it, and a block that may return. -/
structure BkOut where
  store : Bramble
  outcome : Nat
  refs : Nat
  blk : Option Nat
  gone : Option Nat
deriving DecidableEq, Repr

/-- A form at the directory (R309, R310); `half` is the issuing die within its package. -/
def Bramble.act (b : Bramble) (kind : FarKind) (d : BkDesc) (half fresh : Nat) : BkOut :=
  let here := sget none b.keys d.key
  match kind, here with
  | .bkalloc, some n => ⟨b, 2, b.ref n, some n, none⟩
  | .bkalloc, none =>
    let near := (List.range 4).map fun i => half * 4 + i
    match (b.widest near).orElse (fun _ => b.widest (List.range 8)) with
    | none => ⟨b, 3, 0, none, none⟩
    | some st =>
      if 4194304 ≤ b.keys.length then ⟨b, 3, 0, none, none⟩
      else
        let n := b.pick st fresh
        let b := b.fill n none
        ⟨{ b with keys := sset none b.keys d.key (some n), refs := sset 0 b.refs n 1 }, 0, 1, some n, none⟩
  | _, none => ⟨b, 1, 0, none, none⟩
  | .bkshare, some n =>
    if (sget none b.keys d.key2).isSome then ⟨b, 2, b.ref n, some n, none⟩
    else if 65535 ≤ b.ref n ∨ 4194304 ≤ b.keys.length then ⟨b, 3, b.ref n, some n, none⟩
    else ⟨{ b with keys := sset none b.keys d.key2 (some n), refs := sset 0 b.refs n (b.ref n + 1) }, 0, b.ref n + 1,
           some n, none⟩
  | .bkfree, some n =>
    let b := { b with keys := sset none b.keys d.key none }
    ⟨b.drop n, 0, 0, none, if b.ref n = 1 then some n else none⟩
  | .bkstore, some n =>
    if b.ref n ≤ 1 then ⟨b, 0, b.ref n, some n, none⟩
    else
      let st := n / 2 ^ 24
      if b.free st = 0 then ⟨b, 3, b.ref n, some n, none⟩
      else
        let m := b.pick st fresh
        let b := (b.fill m (some n)).drop n
        ⟨{ b with keys := sset none b.keys d.key (some m), refs := sset 0 b.refs m 1 }, 4, 1, some m, none⟩
  | _, some n => ⟨b, 0, b.ref n, some n, none⟩

/-- A translated access begins or ends (R311). -/
def Bramble.use (b : Bramble) (n : Nat) (up : Bool) : Bramble :=
  { b with uses := smod 0 b.uses n fun u => if up then u + 1 else u - 1 }

/-- A Bramble form's completion is on its way. -/
def State.bkEnd (s : State) (k id : Nat) : State :=
  let t := s.clkOf k + 1 + Config.farBack s.fresh
  s.tick.scheduleCore k t ⟨.brambleComplete, k, id, 0, 3, true⟩

/-- The Bramble forms. -/
def FarKind.isBk (k : FarKind) : Bool := [FarKind.bkalloc, .bkxlat, .bkshare, .bkfree, .bkload, .bkstore].contains k

/-- An earlier Bramble form of the core has a line of the same block still to move there (R311: in issue order). -/
def Core.blockBusy (c : Core) (r : FarReq) (line : Nat) : Bool :=
  c.far.any fun q => decide (q.id < r.id) && q.kind.isBk && q.blk == r.blk &&
    q.pieces.any fun p => p.line == line && decide (p.stage < (if q.kind = .bkload then 1 else 2))

/-- An earlier Bramble form of the core has not been at the directory (R311: in issue order). -/
def Core.directoryBusy (c : Core) (r : FarReq) : Bool :=
  c.far.any fun q => decide (q.id < r.id) && q.kind.isBk && (q.stage == .sent || q.stage == .held)

/-- An earlier BKSTORE of the core has lines still to write to a block: a copy made now would lack them (R310, R311). -/
def Core.storesTo (c : Core) (r : FarReq) (blk : Option Nat) : Bool :=
  c.far.any fun q => decide (q.id < r.id) && q.kind == .bkstore && q.blk == blk && !q.piecesDone

/-- The lines of a translated block access set out: a load's to the block, a store's once the lines of its source have been
read, each at one time (R275, R309). -/
def State.launchLines (s : State) (k : Nat) (r : FarReq) : State :=
  if r.kind = .bkload then
    (List.range r.pieces.length).foldl (fun s j =>
      let t := s.clkOf k + 1 + Config.farGo s.fresh
      s.tick.scheduleCore k t ⟨.brambleComplete, k, r.id, j, 1, false⟩) s
  else
    r.srcLeft.foldl (fun s l =>
      let t := s.clkOf k + 1 + Config.sourceReadDelay s.fresh
      s.tick.scheduleCore k t ⟨.brambleComplete, k, r.id, l, 0, false⟩) s

/-- BRAMBLE_DIRECTORY_OP (R309 to R311): the form takes effect at the directory after the core's earlier Bramble forms, a copy
on write after its earlier stores to the block. -/
def execBrambleDirectoryOp (s : State) : Out :=
  let k := s.ev.k
  let c := s.core k
  match c.farReq s.ev.i with
  | none => .next s
  | some r =>
    let d := BkDesc.ofWords r.words
    let pkg := pkgOf k
    let b := (s.pkg pkg).bramble
    let o := b.act r.kind d (halfOf k) s.fresh
    if c.directoryBusy r || (o.outcome == 4 && c.storesTo r (sget none b.keys d.key)) then
      .next (s.scheduleCore k (s.clkOf k + 1) s.ev)
    else
      let moves := (r.kind == .bkload || r.kind == .bkstore) && o.outcome != 1 && o.outcome != 3
      let store := match moves, o.blk with
        | true, some n => o.store.use n true
        | _, _ => o.store
      let s := s.tick.modPkg pkg fun p => { p with bramble := store }
      let zeros := if r.kind = .bkload ∧ !moves then (List.range d.len).map fun i => (r.loc + i, (0 : Byte)) else []
      let s := s.modFar k r.id fun r =>
        { r with stage := .queued, outcome := o.outcome, refs := o.refs, blk := o.blk, out := zeros,
                 pieces := if moves then r.pieces else [], srcLeft := if moves then r.srcLeft else [] }
      let s := match o.gone with
        | none => s
        | some n => s.scheduleCore k (s.clkOf k) (evI .blockReturnToPool k n)
      .next (if moves then s.launchLines k r else s.bkEnd k r.id)

/-- BLOCK_RETURN_TO_POOL (R311): a block without references and without accesses under way is free again. -/
def execBlockReturnToPool (s : State) : Out :=
  let n := s.ev.i
  .next (s.modPkg (pkgOf s.ev.k) fun p =>
    if sget 0 p.bramble.uses n = 0 ∧ p.bramble.ref n = 0 then
      { p with bramble := { p.bramble with zombie := p.bramble.zombie.filter (· != n) } }
    else p)

/-- A line of a block access: read or written at the block. -/
def State.bkLine (s : State) (k : Nat) (r : FarReq) (j : Nat) (p : Piece) : State :=
  let n := r.blk.getD 0
  let a := n * 65536 + p.line
  let b := (s.pkg (pkgOf k)).bramble
  let t := s.clkOf k + 1 + Config.farBack s.fresh
  if r.kind = .bkload then
    let bad := sget false b.poison (a / 64)
    let s := s.modFar k r.id fun r => r.modPiece j fun p =>
      { p with bad := bad, data := if bad then List.replicate 64 0 else b.data.bytes a 64, stage := 1 }
    s.tick.scheduleCore k t ⟨.brambleComplete, k, r.id, j, 2, false⟩
  else
    let s := s.modPkg (pkgOf k) fun q =>
      { q with bramble := { q.bramble with data := q.bramble.data.setBytes a p.data, poison := sset false q.bramble.poison (a / 64) false } }
    s.modFar k r.id fun r => r.modPiece j fun p => { p with stage := 2 }

/-- After a piece of a block access: the completion, once all have been written. -/
def State.bkCheck (s : State) (k id : Nat) : State :=
  match (s.core k).farReq id with
  | none => s
  | some r => if r.piecesDone then s.bkEnd k id else s

/-- A translated access of a request is over: its block may return to its pool (R311). -/
def State.endUse (s : State) (k : Nat) (r : FarReq) : State :=
  match r.pieces.isEmpty, r.blk with
  | false, some n =>
    let s := s.modPkg (pkgOf k) fun p => { p with bramble := p.bramble.use n false }
    if (s.pkg (pkgOf k)).bramble.zombie.contains n then s.scheduleCore k (s.clkOf k) (evI .blockReturnToPool k n) else s
  | _, _ => s

/-- The request as it completes: OK, or POISONED with its failing lines (R309). -/
def FarReq.bkDone (r : FarReq) : FarReq :=
  { r with code := if r.badLines.length = 0 then 1 else 2, count := r.badLines.length }

/-- The result words of a Bramble form: OUTCOME with REFS, and STACK with INDEX where the key has a block (R308, R309). -/
def FarReq.bkFields (r : FarReq) : List (Nat × Byte) :=
  r.field 9 4 (r.outcome * 2 ^ 24 + r.refs) ++ (match r.blk with
    | none => []
    | some n => r.field 10 4 n)

/-- BRAMBLE_COMPLETE (R309): a line of a store's source is read (w = 0, j the line), a line of a block access moves (w = 1) and
comes back (w = 2), and after the last the form completes. -/
def execBrambleComplete (s : State) : Out :=
  let k := s.ev.k
  let j := s.ev.j
  let c := s.core k
  match c.farReq s.ev.i with
  | none => .next s
  | some r =>
    if s.ev.b then .next ((s.endUse k r).endFar k r.bkDone r.bkFields)
    else if s.ev.w = 0 then
      let s := s.modFar k r.id fun r => r.readSource c.sp j
      .next ((r.freed j).foldl (fun s i =>
        let t := s.clkOf k + 1 + Config.farGo s.fresh
        s.tick.scheduleCore k t ⟨.brambleComplete, k, r.id, i, 1, false⟩) s)
    else
      match r.pieces[j]? with
      | none => .next s
      | some p =>
        if s.ev.w = 1 ∧ c.blockBusy r p.line = true then .next (s.scheduleCore k (s.clkOf k + 1) s.ev)
        else if s.ev.w = 1 then
          let s := s.bkLine k r j p
          .next (if r.kind = .bkstore then s.bkCheck k r.id else s)
        else
          let s := s.modFar k r.id fun r => r.modPiece j fun p => { p with stage := 2 }
          let s := if r.orphan then s
            else s.modCore k fun c => c.writeArrival ((p.at_.zip p.data).map fun x => (x.1.2.1, x.2))
          .next (s.bkCheck k r.id)

/-! ### Errors on the way (R299, R309) -/

/-- A line of a block access fails, a store's at its memory wherever that is, and any line on the bridge to a block of the other
die's stacks: a store's is left as it was and poisoned, and a load's delivers zeros (R290, R299, R309). -/
def State.failBlockLine (s : State) (k : Nat) (r : FarReq) (j : Nat) : State :=
  let go : Ev := ⟨.brambleComplete, k, r.id, j, 1, false⟩
  let back : Ev := ⟨.brambleComplete, k, r.id, j, 2, false⟩
  match r.blk, r.pieces[j]? with
  | some n, some p =>
    if (n / 2 ^ 26 = halfOf k ∧ r.kind ≠ .bkstore) ∨ (s.awaits go || s.awaits back) = false then s
    else
      let s := s.unschedule fun e => e == go || e == back
      let fails (stage : Nat) (data : List Byte) (s : State) : State :=
        s.modFar k r.id fun r => r.modPiece j fun p => { p with bad := true, data := data, stage := stage }
      if r.kind = .bkstore then
        ((fails 2 p.data s).modPkg (pkgOf k) fun q => { q with bramble :=
          { q.bramble with poison := sset false q.bramble.poison ((n * 65536 + p.line) / 64) true } }).bkCheck k r.id
      else (fails 1 (List.replicate 64 0) s).scheduleCore k (s.clkOf k + 1) back
  | _, _ => s

/-- A message of a request under way fails: at the memory of a store, or on a bridge (R289, R290, R299). -/
def State.failMessage (s : State) (k id j : Nat) : State :=
  match (s.core k).farReq id with
  | none => s
  | some r =>
    if r.kind.isBk then s.failBlockLine k r j
    else if j < ctlMsg ∧ s.awaits (evI .dupCopyAck k id) = true then s.failCopy k r j
    else s.failRequest k r j

end Sys2Proof.Machine
end

