-- ==== Sys2Proof/Machine/Sloe.lean ====
section
/-! DEFINITION. Sloe tensors: the directory entry, the canonical code of a tile, and TLOADZ (16_package_memory.md R312
to R316). -/

namespace Sys2Proof.Machine

/-! ### The descriptor (R315) -/

structure SloeDesc where
  dir : Nat
  data : Nat
  tile : Nat
  ntiles : Nat
  dring : Bool
  dq : BitVec 3
  spoff : Nat
  bwoff : Nat
  fmt : Nat
  rsvd : Bool
deriving DecidableEq, Repr

def SloeDesc.ofWords (ws : List W) : SloeDesc :=
  let w (i : Nat) : W := ws.getD i 0
  let f (i lo n : Nat) : Nat := ((w i).extractLsb' lo n).toNat
  { dir := farAddr (w 0) (w 1), data := farAddr (w 2) (w 3), tile := (w 4).toNat, ntiles := (w 5).toNat,
    dring := (w 6).getLsbD 31, dq := (w 6).extractLsb' 28 3, spoff := f 6 0 23, bwoff := f 7 0 23, fmt := f 8 0 5,
    rsvd := !farHiOk (w 1) || !farHiOk (w 3) || f 6 23 5 != 0 || f 7 23 9 != 0 || f 8 5 27 != 0 || w 12 != 0 || w 13 != 0 ||
      w 14 != 0 || w 15 != 0 }

/-- A B4 tile. -/
def SloeDesc.b4 (d : SloeDesc) : Bool := decide (6 ≤ d.fmt) && decide (d.fmt ≤ 9)

/-- The address of the directory entry. -/
def SloeDesc.entryVa (d : SloeDesc) : Nat := d.dir + 8 * d.tile

/-- The cases of FAR_DESC; `loc` and `bw` are the destinations of the codes and of the block words. -/
def SloeDesc.bad (d : SloeDesc) (r : Ring) (loc bw : Nat) : Bool :=
  d.rsvd || d.dir % 8 != 0 || !(d.fmt == 2 || d.b4) || decide (d.ntiles ≤ d.tile) ||
  (if d.b4 && !d.dring then d.bwoff % 2 != 0 else d.bwoff != 0) ||
  !rangeOk loc (loc + 8191 : Nat) ||
  (d.b4 && (!rangeOk bw (bw + 2047 : Nat) || overlap loc (loc + 8191 : Nat) bw (bw + 2047 : Nat))) ||
  (d.dring && (r.fmt != d.fmt || decide (r.slotsz < d.spoff + 8192)))

/-- TLOADZ (R315). -/
def execTloadz (f : FmtDA) (s : State) : Out :=
  exchangeOnly s fun s =>
    if !s.guard f.gn f.g then .next s
    else
      let k := s.ictx.core
      let a := (s.rs 0 f.a).toNat
      match s.farDesc a 16 64 with
      | .error c => .next (s.trap c)
      | .ok ws =>
        let d := SloeDesc.ofWords ws
        let ring := s.ringTail d.dq
        let loc := if d.dring then ring.slotAt ring.tail + d.spoff else d.spoff
        let bw := if d.dring then ring.bwAt ring.tail + 2 * (d.spoff / 8) else d.bwoff
        if d.dring && !ring.ok then .next (s.trap cRingDesc)
        else if d.dring && ring.full then .next (s.trap cRingFull)
        else if d.bad ring loc bw then .next (s.trap cFarDesc)
        else
          let table := s.myTable
          match segCause table [⟨d.entryVa, 8, true, false, false⟩, ⟨d.data, 1, true, false, false⟩] with
          | some c => .next (s.trap c)
          | none =>
            let r := FarReq.start s.cur.nextId .tloadz s.myTag (s.clkOf k) a ws
            let r := { r with ent := entryOf table d.data, sent := entryOf table d.entryVa, loc := loc, bw := bw,
                              pieces := [⟨d.entryVa / 64 * 64, [], 0, [], false, 0⟩],
                              slot := if d.dring then some ⟨s.cur.cur, d.dq.toNat, ring.tail⟩ else none }
            .next (s.acceptFar f.d r
              (fun s => if d.dring then s.upd fun c => c.advTail d.dq.toNat ring else s) sendFar)

/-! ### The canonical code (R313) -/

/-- The code lengths of the sixteen symbols. -/
def sloeLens (t : List Byte) : List Nat :=
  (List.range 16).map fun s => (t.getD (16 + s / 2) 0).toNat / (if s % 2 = 0 then 1 else 16) % 16

/-- The symbols of a length, rising. -/
def symbolsOf (lens : List Nat) (n : Nat) : List Nat := (List.range 16).filter fun s => lens.getD s 0 == n

/-- The first code of length n + 1. -/
def firstCode (lens : List Nat) : Nat → Nat
  | 0 => 0
  | n + 1 => (firstCode lens n + (symbolsOf lens (n + 1)).length) * 2

/-- The code table by length from 1: the first code and the symbols. -/
def codeTable (lens : List Nat) : List (Nat × List Nat) :=
  (List.range 12).map fun n => (firstCode lens n, symbolsOf lens (n + 1))

/-- The greatest length present. -/
def maxLen (lens : List Nat) : Nat := lens.foldl Nat.max 0

/-- What a symbol's decoding finds. -/
inductive SymOut where
  | sym (n : Nat) (rest : List Bool)
  | short
  | badCode
deriving DecidableEq, Repr

/-- One symbol from a bit stream: `code` holds the bits read, the table the lengths still to try. -/
def oneSymbol : List (Nat × List Nat) → Nat → List Bool → SymOut
  | [], _, _ => .badCode
  | _ :: _, _, [] => .short
  | (first, syms) :: t, code, b :: bits =>
    let code := 2 * code + b.toNat
    if code < first then oneSymbol t code bits
    else
      match syms[code - first]? with
      | some x => .sym x bits
      | none => oneSymbol t code bits

/-- n symbols of a row, and the bits left over; or the reason 10 or 11. -/
def rowSymbols (t : List (Nat × List Nat)) : Nat → List Bool → Except Nat (List Nat × Nat)
  | 0, bits => .ok ([], bits.length)
  | n + 1, bits =>
    match oneSymbol t 0 bits with
    | .short => .error 10
    | .badCode => .error 11
    | .sym x rest =>
      match rowSymbols t n rest with
      | .error e => .error e
      | .ok (xs, left) => .ok (x :: xs, left)

/-- The bits of bytes, bit 7 first. -/
def streamBits (bs : List Byte) : List Bool :=
  (bs.map fun b => (List.range 8).map fun i => b.getLsbD (7 - i)).flatten

/-- A row of the tile, or its reason (R314). -/
def sloeRow (lens : List Nat) (bs : List Byte) : Except Nat (List Nat) :=
  match rowSymbols ((codeTable lens).take (maxLen lens)) 128 (streamBits bs) with
  | .error e => .error e
  | .ok (xs, left) => if 7 < left then .error 12 else .ok xs

/-- A tile's codes and block-word bytes, or the reason and row of its first failure. -/
abbrev SloeOut := Except (Nat × Option Nat) (List Byte × List Byte)

/-- The 16-bit row offset i. -/
def sloeOff (t : List Byte) (i : Nat) : Nat := natOfBytes ((t.drop (24 + 2 * i)).take 2)

/-- The first row whose offset is wrong (R314, reason 9). -/
def badOffset (t : List Byte) (area : Nat) : Option Nat :=
  (List.range 128).find? fun i =>
    let o := sloeOff t i
    (i == 0 && o != 0) || (i != 0 && decide (o < sloeOff t (i - 1))) || decide (area < o)

/-- The rows from i on. -/
def sloeRows (t : List Byte) (lens : List Nat) (area : Nat) : Nat → Nat → Except (Nat × Option Nat) (List Nat)
  | 0, _ => .ok []
  | n + 1, i =>
    let o := sloeOff t i
    let e := if i = 127 then area else sloeOff t (i + 1)
    match sloeRow lens ((t.drop (280 + o)).take (e - o)) with
    | .error r => .error (r, some i)
    | .ok xs =>
      match sloeRows t lens area n (i + 1) with
      | .error r => .error r
      | .ok ys => .ok (xs ++ ys)

/-- A compressed tile of LEN bytes (R313, R314). -/
def sloeTile (fmt : Nat) (b4 : Bool) (t : List Byte) : SloeOut :=
  let w (i : Nat) : Nat := (wordAt t i).toNat
  let lens := sloeLens t
  let bwoff := w 3
  let tend := if b4 then bwoff else t.length
  if w 0 ≠ 0x534C4F45 then .error (4, none)
  else if w 1 ≠ fmt then .error (5, none)
  else if w 2 ≠ t.length ∨ (if b4 then bwoff + 2048 ≠ t.length ∨ bwoff < 280 else bwoff ≠ 0) ∨ t.length < 280 then
    .error (6, none)
  else if lens.any fun n => decide (12 < n) then .error (7, none)
  else if 4096 < ((lens.filter (· != 0)).map fun n => 2 ^ (12 - n)).sum then .error (8, none)
  else
    match badOffset t (tend - 280) with
    | some i => .error (9, some i)
    | none =>
      match sloeRows t lens (tend - 280) 128 0 with
      | .error r => .error r
      | .ok codes => .ok (packBytes 2 codes, if b4 then t.drop bwoff else [])

/-! ### The tile at its memory (R312, R314, R316) -/

/-- The bytes of an all-equal block-word array. -/
def equalWords (w : Nat) : List Byte := ((List.range 1024).map fun _ => bytesOfNat 2 w).flatten

/-- The directory entry that the first line of a request holds; none where the line is poisoned. -/
def FarReq.sloeEntry (r : FarReq) : Option Nat :=
  match r.pieces with
  | [] => none
  | p :: _ =>
    if p.bad then none else some (natOfBytes ((p.data.drop ((SloeDesc.ofWords r.words).entryVa % 64)).take 8))

/-- What a directory entry says of its tile (R312, R314): its outcome at once, or the address and length of the tile's bytes. -/
def FarReq.sloePlan (r : FarReq) : Except SloeOut (Nat × Nat) :=
  let d := SloeDesc.ofWords r.words
  match r.sloeEntry with
  | none => .error (.error (3, none))
  | some e =>
    let off := bitsOf e 0 40
    let len := bitsOf e 40 20
    let raw := bitsOf e 60 1 == 1
    let zero := bitsOf e 61 1 == 1
    if bitsOf e 62 2 ≠ 0 ∨ (raw && zero) = true then .error (.error (1, none))
    else if zero then
      .error (.ok (List.replicate 8192 0, if d.b4 then equalWords ((BlkTy.ofFmt d.fmt).tcode * 2 ^ 14 + 0x00FF) else []))
    else if entBytes r.ent < d.data % 2 ^ 30 + off + len then .error (.error (2, none))
    else .ok (d.data + off, len)

/-- The lines of a tile's bytes. -/
def sloeLines (va len : Nat) : List Piece :=
  if len = 0 then []
  else (List.range ((va + len - 1) / 64 - va / 64 + 1)).map fun i => ⟨(va / 64 + i) * 64, [], 0, [], false, 0⟩

/-- What a TLOADZ finds in the lines it has read: the destination's bytes, and the tile bytes read. -/
def FarReq.sloeRead (r : FarReq) : SloeOut × Nat :=
  let d := SloeDesc.ofWords r.words
  let lines := r.pieces.drop 1
  match r.sloePlan with
  | .error o => (o, 0)
  | .ok (va, len) =>
    if lines.any (·.bad) then (.error (3, none), 0)
    else
      let bs := ((lines.map (·.data)).flatten.drop (va % 64)).take len
      if (r.sloeEntry.map fun e => bitsOf e 60 1) = some 1 then
        if len ≠ (if d.b4 then 10240 else 8192) then (.error (6, none), len)
        else (.ok (bs.take 8192, bs.drop 8192), len)
      else (sloeTile d.fmt d.b4 bs, len)

/-- The request once its tile is decoded, or found malformed (R314, R316). -/
def FarReq.sloeDone (r : FarReq) : FarReq :=
  let d := SloeDesc.ofWords r.words
  let nan := equalWords ((BlkTy.ofFmt d.fmt).tcode * 2 ^ 14 + 0x3F00)
  let o := r.sloeRead
  match o.1 with
  | .ok (codes, bws) =>
    { r with stage := .performed, code := 1, count := 0, deliv := o.2, out := placed r.loc codes ++ placed r.bw bws }
  | .error (reason, row) =>
    { r with stage := .performed, code := 2, count := 128, deliv := o.2, reason := reason, row := row,
             out := placed r.loc (List.replicate 8192 0) ++ placed r.bw (if d.b4 then nan else []) }

/-- The lines of the tile that a directory entry asks for, while only the entry has come. -/
def FarReq.sloeMore (r : FarReq) : List Piece :=
  match r.pieces, r.sloePlan with
  | [_], .ok (va, len) => sloeLines va len
  | _, _ => []

/-- After a line of a TLOADZ has come: the lines of the tile set out once its entry is there, and after the last of them the form
ends (R312, R345). -/
def State.sloeCheck (s : State) (k id : Nat) : State :=
  match (s.core k).farReq id with
  | none => s
  | some r =>
    if !r.piecesDone then s
    else if r.sloeMore.isEmpty then
      (s.modFar k id FarReq.sloeDone).scheduleCore k (s.clkOf k + 1) (evB .tloadzComplete k id true)
    else
      (List.range r.sloeMore.length).foldl (fun s i => s.farMessage k r (i + 1) false)
        (s.modFar k id fun r => { r with pieces := r.pieces ++ r.sloeMore })

/-- A line of a TLOADZ is read at its memory, and its reply sets out. -/
def State.sloeLine (s : State) (k : Nat) (r : FarReq) (j : Nat) (p : Piece) : State :=
  let l := s.readLine (pkgOf k) (if j = 0 then r.sent else r.ent) (halfOf k) p.line
  (s.modFar k r.id fun r => r.modPiece j fun p => { p with bad := l.isNone, data := l.getD [], stage := 1 }).farMessage k r j true

/-- TLOADZ_COMPLETE (R285, R314, R316, R345): a line is read at its memory (w = 1, j the line, 0 that of the directory entry),
after the core's earlier forms there, and comes back (w = 2); and after the last the form completes. -/
def execTloadzComplete (s : State) : Out :=
  let k := s.ev.k
  let j := s.ev.j
  match (s.core k).farReq s.ev.i with
  | none => .next s
  | some r =>
    if s.ev.b then
      .next (s.completeWith k r.id fun r =>
        let row := match r.row with
          | none => 0
          | some i => 128 + i
        r.field 11 4 r.deliv ++ r.field 10 4 (r.reason * 2 ^ 24 + row))
    else
      match r.pieces[j]? with
      | none => .next s
      | some p =>
        if s.ev.w = 1 then
          if (s.core k).farBlocked r.id p.line then .next (s.scheduleCore k (s.clkOf k + 1) s.ev)
          else .next (s.sloeLine k r j p)
        else .next ((s.modFar k r.id fun r => r.modPiece j fun p => { p with stage := 2 }).sloeCheck k r.id)

end Sys2Proof.Machine
end

