-- ==== Sys2Proof/Machine/Image.lean ====
section
/-! DEFINITION. Context images: their layout, their checks, writing them at a boundary, and launching a core from one
or fresh (03_core_state.md R60; 09_core_faults.md R217 to R219; 11_column.md R223; 12_die_supersteps.md R263). -/

namespace Sys2Proof.Machine

/-! ### The words of an image (R217, R218) -/

/-- The size of an image without its ranges. -/
def imageFixed : Nat := 0x340000

/-- The ranges an image of the core holds: those of the image it was launched from, none where that image declared none, and
the whole scratchpad for a core launched fresh. -/
def Core.imageRanges (c : Core) : List (Nat × Nat) := c.ranges

/-- The length of an image of the core. -/
def Core.imageLen (c : Core) : Nat := imageFixed + ((c.imageRanges.map (·.2)).sum)

/-- Word i of the header. -/
def Core.headerWord (c : Core) (exchange : Bool) (i : Nat) : W :=
  match i with
  | 0 => 0x4B574349
  | 1 => 0x00010512
  | 2 => c.pc.zeroExtend 32
  | 3 => if exchange then 1 else 0
  | 4 => BitVec.ofNat 32 c.imageRanges.length
  | 5 => BitVec.ofNat 32 c.imageLen
  | i =>
    if 8 ≤ i ∧ i < 40 then
      match c.imageRanges[(i - 8) / 2]? with
      | none => 0
      | some r => BitVec.ofNat 32 (if i % 2 = 0 then r.1 else r.2)
    else 0

/-- The scalar region: word i from 0x100. -/
def Bank.scalarWord (b : Bank) (i : Nat) : W :=
  if i < 48 then sget 0 b.s i else if i < 56 then sget 0 b.sk (i - 48) else if i < 62 then sget 0 b.sn (i - 56) else 0

/-- Half h of a vector predicate, vp0 as it reads. -/
def Bank.vpWord (b : Bank) (unit : Bool) (n h : Nat) : W := (b.readVP unit n).extractLsb' (32 * h) 32

/-- The control region: word i from 0x200; base registers and predicates by physical number. -/
def Bank.controlWord (b : Bank) (icycle : W) (mcmask : BitVec 4) (i : Nat) : W :=
  if i < 32 then (sget 0 b.q (i / 4)).extractLsb' (32 * (i % 4)) 32
  else if i < 48 then b.vpWord false ((i - 32) / 2) (i % 2)
  else if i < 64 then b.vpWord true ((i - 48) / 2) (i % 2)
  else if i < 72 then (sget 0 b.b (i - 64)).zeroExtend 32
  else
    match i with
    | 72 => b.loop.trip
    | 73 => b.loop.pass
    | 74 => b.loop.idx
    | 75 => b.loop.lstat
    | 76 => b.loop.body.zeroExtend 32
    | 77 => b.loop.lpc.zeroExtend 32
    | 78 => b.loop.res
    | 79 => b.loop.rem
    | 88 => (b.p ||| 1#16).zeroExtend 32
    | 89 => b.round.zeroExtend 32
    | 90 => b.srSeed
    | 91 => b.rotReg
    | 92 => mcmask.zeroExtend 32
    | 93 => icycle
    | i => if 80 ≤ i ∧ i < 88 then sget 0 b.loop.linc (i - 80) else 0

/-- The lane region: word i from 0x400. -/
def Bank.laneWord (b : Bank) (i : Nat) : W :=
  if i < 32 then BitVec.ofNat 32 (natOfBytes ((List.range 4).map fun j => (sget 0 b.flags (4 * i + j)).zeroExtend 8))
  else if i < 160 then sget 0 b.gen (i - 32)
  else 0

/-- The vector region: word i from 0x800. -/
def Bank.vectorWord (b : Bank) (i : Nat) : W :=
  let r := i / 64
  lane (if r < 48 then sget 0 b.v0 r else if r < 96 then sget 0 b.v1 (r - 48)
    else if r < 104 then sget 0 b.vk (r - 96) else sget 0 b.vn (r - 104)) (i % 64)

/-- The register regions together: word i from 0x100. -/
def Bank.registerWord (b : Bank) (icycle : W) (mcmask : BitVec 4) (i : Nat) : W :=
  if i < 64 then b.scalarWord i
  else if i < 192 then b.controlWord icycle mcmask (i - 64)
  else if i < 448 then b.laneWord (i - 192)
  else b.vectorWord (i - 448)

/-- A named barrier's word (R73). -/
def Bar.word (b : Bar) : W := BitVec.ofNat 32 (packFields [(1, b.gen.toNat), (19, 0), (4, b.arr.toNat), (4, 0), (4, b.part.toNat)])

/-- The barrier that a word of R73 holds. -/
def Bar.ofWord (w : W) : Bar := ⟨w.getLsbD 31, w.extractLsb' 8 4, w.extractLsb' 0 4⟩

/-- The region of barriers, copy registers, release maps and tile control words: word i from 0x7600. -/
def Core.miscWord (c : Core) (i : Nat) : W :=
  if i < 32 then (sget Bar.reset c.bars i).word
  else if i < 48 then c.seq.staging.extractLsb' (32 * (i - 32)) 32
  else if 64 ≤ i ∧ i < 88 then c.tileWord (i - 64)
  else
    match i with
    | 48 => BitVec.ofNat 32 c.seq.ticket
    | 49 => BitVec.ofNat 32 c.seq.lastDone
    | 50 => c.bank0.relS.extractLsb' 0 32
    | 51 => (c.bank0.relS.extractLsb' 32 16).zeroExtend 32
    | 52 => c.bank0.relV0.extractLsb' 0 32
    | 53 => (c.bank0.relV0.extractLsb' 32 16).zeroExtend 32
    | 54 => c.bank0.relV1.extractLsb' 0 32
    | 55 => (c.bank0.relV1.extractLsb' 32 16).zeroExtend 32
    | 56 => c.mstat
    | _ => 0

/-- The scratchpad byte at position o of the concatenated ranges. -/
def rangeByte (sp : Memory) : List (Nat × Nat) → Nat → Byte
  | [], _ => 0
  | (a, n) :: r, o => if o < n then sp.byte (a + o) else rangeByte sp r (o - n)

/-- Word i of the image of a core (R217). -/
def Core.imageWord (c : Core) (exchange : Bool) (mcmask : BitVec 4) (i : Nat) : W :=
  if i < 0x40 then c.headerWord exchange i
  else if i < 0x1D80 then c.bank0.registerWord c.icycle mcmask (i - 0x40)
  else if i < 0x1E00 then c.miscWord (i - 0x1D80)
  else if i < 0x2000 then 0
  else if i < 0xA000 then
    let j := i - 0x2000
    planeEntry (c.planeRow (c.physOf (decide (0x4000 ≤ j))) (j / 128 % 128)) (j % 128)
  else if i < 0xE000 then sget 0 c.stat (i - 0xA000)
  else if i < 0x10000 then 0
  else if i < 0xD0000 then (sget 0 c.tiles ((i - 0x10000) / 256)).extractLsb' (32 * (i % 256)) 32
  else BitVec.ofNat 32 (natOfBytes ((List.range 4).map fun j => rangeByte c.sp c.imageRanges (4 * (i - 0xD0000) + j)))

/-! ### Reading an image (R218, R219) -/

/-- The ranges of an image's header. -/
def headerRanges (rd : Nat → W) : List (Nat × Nat) :=
  (List.range ((rd 4).toNat % 32)).map fun k => ((rd (8 + 2 * k)).toNat, (rd (9 + 2 * k)).toNat)

def rangesApart : List (Nat × Nat) → Bool
  | [] => true
  | (a, n) :: r => (r.all fun x => decide (a + n ≤ x.1) || decide (x.1 + x.2 ≤ a)) && rangesApart r

/-- The checks of an image's header: false where the die controller refuses it. -/
def headerOk (rd : Nat → W) : Bool :=
  let rs := headerRanges rd
  rd 0 == 0x4B574349 && rd 1 == 0x00010512 && decide ((rd 2).toNat < 2 ^ 26) && decide ((rd 3).toNat < 2) &&
  decide ((rd 4).toNat ≤ 16) &&
  (rs.all fun x => x.1 % 128 == 0 && x.2 % 128 == 0 && decide (x.1 + x.2 ≤ 0x400000)) && rangesApart rs &&
  (rd 5).toNat == imageFixed + (rs.map (·.2)).sum && rd 6 == 0 && rd 7 == 0 &&
  (List.range 24).all fun i => rd (40 + i) == 0

/-- Registers n from 0 whose values f gives. -/
def fill {α : Type} [DecidableEq α] (d : α) (n : Nat) (f : Nat → α) : SMap α :=
  ssetAll d [] ((List.range n).map fun i => (i, f i))

/-- A vector register from 64 words. -/
def readVec (rd : Nat → W) (i : Nat) : VReg := ofLanes fun l => rd (i + l)

/-- Two words as one. -/
def two (lo hi : W) : BitVec 64 := hi ++ lo

/-- Bank 0 as the register regions of an image give it. -/
def Bank.ofImage (rd : Nat → W) : Bank :=
  let c (i : Nat) : W := rd (0x80 + i)
  { s := fill 0 48 fun n => rd (0x40 + n), sk := fill 0 8 fun n => rd (0x70 + n), sn := fill 0 6 fun n => rd (0x78 + n),
    v0 := fill 0 48 fun n => readVec rd (0x200 + 64 * n), v1 := fill 0 48 fun n => readVec rd (0xE00 + 64 * n),
    vk := fill 0 8 fun n => readVec rd (0x1A00 + 64 * n), vn := fill 0 6 fun n => readVec rd (0x1C00 + 64 * n),
    p := (c 88).extractLsb' 0 16 &&& 0xFFFE#16,
    vp0 := sset 0 (fill 0 8 fun n => two (c (32 + 2 * n)) (c (33 + 2 * n))) 0 0,
    vp1 := sset 0 (fill 0 8 fun n => two (c (48 + 2 * n)) (c (49 + 2 * n))) 0 0,
    b := fill 0 8 fun n => (c (64 + n)).extractLsb' 0 23,
    q := fill 0 8 fun n => (c (4 * n + 3) ++ c (4 * n + 2) ++ c (4 * n + 1) ++ c (4 * n)) &&& ringMask,
    flags := fill 0 128 fun n => (rd (0x100 + n / 4)).extractLsb' (8 * (n % 4)) 5,
    gen := fill 0 128 fun n => rd (0x120 + n),
    relS := (two (rd 0x1DB2) (rd 0x1DB3)).extractLsb' 0 48, relV0 := (two (rd 0x1DB4) (rd 0x1DB5)).extractLsb' 0 48,
    relV1 := (two (rd 0x1DB6) (rd 0x1DB7)).extractLsb' 0 48,
    round := (c 89).extractLsb' 0 3, srSeed := c 90, brb := (c 91).extractLsb' 0 3, prb := (c 91).extractLsb' 4 3,
    loop := (List.range 16).foldl (fun l n => l.write (0x20 + n) (c (72 + n))) LoopRegs.reset }

/-- The tile control that a word holds. -/
def TileCtl.ofWord (w : W) : TileCtl := ⟨w.getLsbD 10, w.getLsbD 9, w.getLsbD 8, w.extractLsb' 0 8⟩

/-- The scratchpad that an image's ranges give. -/
def imageSp (rd : Nat → W) : Memory :=
  ((headerRanges rd).foldl (fun (am : Nat × Memory) r =>
    (am.1 + r.2, am.2.setBytes r.1 ((List.range r.2).map fun i =>
      (rd ((imageFixed + am.1 + i) / 4)).extractLsb' (8 * ((am.1 + i) % 4)) 8))) (0, [])).2

/-- The core loaded from an image (R219). -/
def Core.loadImage (c : Core) (rd : Nat → W) : Core :=
  { c with
    bank0 := .ofImage rd, pc := (rd 2).extractLsb' 0 26 &&& 0x3FFFFFC#26, icycle := rd (0x80 + 93),
    bars := fill Bar.reset 32 fun n => .ofWord (rd (0x1D80 + n)),
    seq := { staging := BitVec.ofNat 512 (packWords ((List.range 16).map fun i => rd (0x1DA0 + i))),
             loaded := (List.range 16).any fun i => rd (0x1DA0 + i) != 0, ticket := (rd 0x1DB0).toNat % 2 ^ 24,
             lastDone := (rd 0x1DB1).toNat % 2 ^ 24, queue := [] },
    act := (rd 0x1DB8).getLsbD 0, pfmt0 := (rd 0x1DB8).extractLsb' 4 4, pfmt1 := (rd 0x1DB8).extractLsb' 8 4,
    tctl := fill TileCtl.reset 24 fun t => .ofWord (rd (0x1DC0 + t)),
    wp0 := 0, wp1 := 1,
    planes := fill noneRow 256 fun i => BitVec.ofNat 4096 (packWords ((List.range 128).map fun j => rd (0x2000 + 128 * i + j))),
    stat := fill 0 16384 fun n => rd (0xA000 + n),
    tiles := fill 0 3072 fun n => BitVec.ofNat 8192 (packWords ((List.range 256).map fun j => rd (0x10000 + 256 * n + j))),
    sp := imageSp rd, ranges := headerRanges rd }

/-! ### Launching a core (R60, R133, R219, R223, R263) -/

/-- A core emptied for a launch: what belongs to the hardware stays. -/
def Core.clean (c : Core) (tag coord : W) (stage : Nat) : Core :=
  { Core.reset with
    task := some tag, run := .launched, coord := coord, stage := BitVec.ofNat 16 stage, imem := sclear c.imem 0 0x3C000,
    corr := c.corr, debugPend := c.debugPend, rowOff := c.rowOff, retired := c.retired, nextId := c.nextId,
    portFrom := c.portFrom, far := c.far,
    creditsUsed := c.creditsUsed }

/-- A fresh launch (R60, R133, R217, R220): the generators are seeded, every barrier has all four layers, the scratchpad
holds the data image from offset 0, and images of the core hold the whole scratchpad. -/
def Core.fresh (c : Core) (seed : W) (pc : PC) (data : List Byte) : Core :=
  { c with bank0 := Bank.reset.reseed seed, pc := pc, bars := fill Bar.reset 32 fun _ => ⟨false, 0, 0xF⟩,
           sp := Memory.setBytes [] 0 (data.take 0x400000), ranges := [(0, 0x400000)] }

/-- The first code page in place: the page of the first bundle in frame 0 (R220; log 12). -/
def Core.withPage (c : Core) (page : Nat) (bytes : List Byte) : Core :=
  { c with codeMap := sset 0 [] 0 (BitVec.ofNat 32 (2 ^ 31 + page)), imem := c.imem.setBytes 0 bytes }

/-! ### Images and code in the task's far space (R217, R331) -/

/-- A word of a task's far space; one that a poisoned or absent line keeps from being read is open. -/
def State.taskWord (s : State) (die : Nat) (table : SMap DW) (va : Nat) : W :=
  (s.readFarWord (die / 2) table (die % 2) va).getD (Config.unpredictable s.fresh (va / 4) 0)

/-- n bytes of a code page: beyond the code image they are zero. -/
def State.codePage (s : State) (die : Nat) (t : TaskDesc) (table : SMap DW) (page : Nat) : List Byte :=
  ((List.range 1024).map fun i =>
    let o := 4096 * page + 4 * i
    if o < t.codeSize then bytesOfNat 4 (s.taskWord die table (t.code + o)).toNat else List.replicate 4 0).flatten

/-- A task's entries as the die controller uses them for its images: one that a restore has made invalid bars far forms, but not
the images, which the restore has rewritten (R321). -/
def imageTable (table : SMap DW) : SMap DW := table.map fun x => (x.1, x.2 ||| (1#64 <<< 63))

/-- The image of core i of a task. -/
def TaskDesc.imageAt (t : TaskDesc) (i : Nat) : Nat := t.imgBase + i * t.imgStride

/-- The reader of the image of core i of a task. -/
def State.imageReader (s : State) (die : Nat) (t : TaskDesc) (table : SMap DW) (i : Nat) : Nat → W := fun n =>
  s.taskWord die (imageTable table) (t.imageAt i + 4 * n)

/-- The column's saved state (R223). -/
def State.saveColumn (s : State) (col : Nat) : ColImage :=
  let x := s.col col
  { banks := x.banks, tvmap := x.tvmap, vbSlots := x.vbSlotsNext.getD x.vbSlots, vbBank := x.vbBankNext.getD x.vbBank,
    mcmask := x.mcmask, status := (coresOfCol col).map fun k => (s.core k).bankStatus }

/-- A barrier event under way in the column of a core, in the core's copy (R134). -/
def Core.settle (c : Core) (k : Nat) (e : Ev) : Core :=
  match e.event with
  | .arrivalPropagate => if colOf e.k = colOf k then c.modBar e.i fun b => b.arrived (layerOf e.k) else c
  | .barrierComplete => if e.k = colOf k then c.modBar e.i Bar.completed else c
  | _ => c

/-- A core as its image records it: a barrier that completes after the boundary has completed in it, since the task's barrier
state persists (R133, R134; log 15). -/
def State.settled (s : State) (k : Nat) : Core := s.agenda.foldl (fun c d => c.settle k d.ev) (s.core k)

/-- The images of a resident task are written, with its columns' state, its budget and kind (R217, R223, R259). -/
def State.writeImages (s : State) (die : Nat) (t : Task) : State :=
  let ks := s.taskCores die t
  let s' := ((List.range ks.length).zip ks).foldl (fun s x =>
    let c := s.settled x.2
    let m := (s.col (colOf x.2)).mcmask
    s.writeFar (die / 2) (imageTable t.table) (die % 2) (t.desc.imageAt x.1) c.imageLen fun j =>
      (c.imageWord t.exchange m (j / 4)).extractLsb' (8 * (j % 4)) 8) s
  s'.modDie die fun d => d.modTask t.desc.tag fun u =>
    { u with imaged := true, cols := (s.taskCols die t).map s.saveColumn, imgBudget := t.budget, imgExchange := t.exchange,
             sinceImage := 0 }

/-- COORD of a core of a gang (R75, R262). -/
def coordWord (ldie x y z : Nat) : W := BitVec.ofNat 32 (ldie * 2 ^ 16 + x * 2 ^ 5 + y * 2 ^ 2 + z)

/-- The program that the outside has loaded for a stage of a task, if any. -/
def Pkg.program (p : Pkg) (tag : W) (stage : Nat) : Option Program :=
  (p.programs.find? fun x => x.1 == 65536 * tag.toNat + stage).map (·.2)

/-- The offset where a stage's code starts: 0 for stage 0 (R263; log 12); free where the outside loaded no program. -/
def stageStart (p : Option Program) (tag : W) (stage : Nat) : PC :=
  if stage = 0 then 0 else (p.map (·.entry)).getD (BitVec.ofNat 26 (Config.stageEntry tag.toNat stage * 4))

/-- The data image of a stage (R220; log 47): free where the outside loaded no program. -/
def stageData (p : Option Program) (tag : W) (stage : Nat) : List Byte :=
  (p.map (·.data)).getD (Config.dataImage tag.toNat stage)

/-- A column takes the state of a task: saved, from the images' lowest layer, or from the descriptor (R223, R331). -/
def State.launchColumn (s : State) (col : Nat) (t : Task) (img : Option ColImage) (mask : BitVec 4) : State :=
  match img with
  | some i =>
    let s := s.modCol col fun x =>
      { x with banks := i.banks, bankBad := [], tvmap := i.tvmap, vbSlots := i.vbSlots, vbBank := i.vbBank, vbSlotsNext := none,
               vbBankNext := none, mcmask := i.mcmask }
    ((coresOfCol col).zip i.status).foldl (fun s x => s.modCore x.1 fun c => { c with bankStatus := x.2 }) s
  | none => s.modCol col fun x =>
    { x with banks := [], bankBad := [], tvmap := 0xE4, vbSlots := t.desc.vbSlots, vbBank := t.desc.vbBank,
             vbSlotsNext := none, vbBankNext := none, mcmask := mask }

/-- Core i of a task, in (y, x, z) order, is launched on its key: from its image or fresh. -/
def State.launchCore (s : State) (die : Nat) (t : Task) (i k : Nat) : State :=
  let d := t.desc
  let g := i / 4
  let stage := d.stages.getD (8 * (g / d.nx) + g % d.nx) 0
  let c := (s.core k).clean d.tag (coordWord d.ldie (g % d.nx) (g / d.nx) (i % 4)) stage
  let c := if t.imaged || d.img then c.loadImage (s.imageReader die d t.table i)
    else
      let p := (s.pkg (die / 2)).program d.tag stage
      c.fresh d.seed (stageStart p d.tag stage) (stageData p d.tag stage)
  let page := c.pc.toNat / 4096
  s.setCore k (c.withPage page (s.codePage die d t.table page))

/-- MCMASK that the image of a column's lowest layer holds. -/
def State.imageMask (s : State) (die : Nat) (t : Task) (g : Nat) : BitVec 4 :=
  (s.imageReader die t.desc t.table (4 * g) 220).extractLsb' 0 4

/-- A placed task is launched on its cores and columns (R219, R223, R259). -/
def State.launchTask (s : State) (die : Nat) (t : Task) : State :=
  let cols := s.taskCols die t
  let ks := s.taskCores die t
  let s := ((List.range ks.length).zip ks).foldl (fun s x => s.launchCore die t x.1 x.2) s
  let s := ((List.range cols.length).zip cols).foldl (fun s x =>
    s.launchColumn x.2 t (if t.imaged then t.cols[x.1]? else none)
      (if t.desc.img then s.imageMask die t x.1 else t.desc.mcmask)) s
  s.tick

end Sys2Proof.Machine
end

