-- ==== Sys2Proof/Machine/Faults.lean ====
section
/-! DEFINITION. Checkpoints, rollback, entering and leaving the handler, data errors with their double rerun, and code
page loads (05_core_scalar_branch.md R122; 09_core_faults.md R201 to R216). -/

namespace Sys2Proof.Machine

/-! ### Committing a checkpoint (R206, R207) -/

/-- A pending entry that a checkpoint records: bank 0's, but for what lands by itself. -/
def Pend.recorded (e : Pend) : Bool :=
  !e.owner &&
  match e.kind with
  | .mcast _ _ => false
  | .status _ _ => false
  | _ => true

/-- The checkpoint of bank 0's state (R206). -/
def Core.snapshot (c : Core) : Ckpt :=
  { bank := c.bank0, tctl := c.tctl, pfmt0 := c.pfmt0, pfmt1 := c.pfmt1, act := c.act, wp0 := c.wp0, wp1 := c.wp1,
    icycle := c.icycle, pend := c.pend.filter Pend.recorded, dwell := c.dwell, pc := c.pc, seq := c.seq, after := c.run,
    fence := c.fence, fenceOps := c.fenceOps }

/-- The records of an interval emptied (R207). -/
def Core.emptyLogs (c : Core) : Core :=
  { c with undo := [], undoStat := [], preimg := [], undoCount := 0, accTiles := [], planeLoads := 0, outLog := [],
           outPos := 0, barLog := [], barPos := 0, taken := [], drainRec := [] }

/-- A core that ends with a HALT has halted once its checkpoint commits (R137). -/
def Run.committed (r : Run) (h : Bool) : Run :=
  match r with
  | .halt _ => .halt h
  | r => r

/-- A checkpoint commits; with `h` it is the one that a HALT ends with, and the core has halted (R137). -/
def Core.commit (c : Core) (h : Bool) : Core :=
  let c := { c with run := c.run.committed h }
  { c.emptyLogs with ckpt := some c.snapshot, rerun := none }

/-! ### The signature at a run's end (R214) -/

/-- The 64-bit words of the register regions, a released register as zeros. -/
def Core.registerWords (c : Core) (mcmask : BitVec 4) : List (BitVec 64) :=
  let b := c.bank0
  let free {α : Type} (m : SMap α) (rel : BitVec 48) : SMap α := m.filter fun x => !rel.getLsbD x.1
  let b := { b with s := free b.s b.relS, v0 := free b.v0 b.relV0, v1 := free b.v1 b.relV1 }
  (List.range 3744).map fun i =>
    b.registerWord c.icycle mcmask (2 * i + 1) ++ b.registerWord c.icycle mcmask (2 * i)

/-- The words of a changed accumulator row. -/
def Core.rowWords (c : Core) (row : Nat) : List (BitVec 64) :=
  BitVec.ofNat 64 (row / 128 * 65536 + row % 128) ::
    (List.range 128).map fun j => (sget 0 c.tiles row).extractLsb' (64 * j) 64

/-- The words absorbed at a run's end. -/
def Core.endWords (c : Core) (mcmask : BitVec 4) : List (BitVec 64) :=
  ((skeys c.preimg).map c.rowWords).flatten ++ ((List.range 24).map fun t => (c.tileWord t).zeroExtend 64) ++
    c.registerWords mcmask

/-- The core as a run's end leaves it: how the run ended joins the record. -/
def Core.endRun (c : Core) (mcmask : BitVec 4) (e : RunEnd) : Core :=
  match c.rerun with
  | none => c
  | some r =>
    let this := (e, r.cycles, (c.endWords mcmask).foldl absorb r.sig)
    { c with rerun := some { r with cycles := 0, sig := 0, ends := r.ends ++ [this] } }

/-- A data error of the cycle has begun its drain (R213). -/
def Run.failing : Run → Bool
  | .drain _ .dataError => true
  | _ => false

/-- CHECKPOINT_COMMIT (R58, R137, R206, R207, R213): a bundle's checkpoint commits, or a HALT's once its work is done; in a
rerun it ends the run. A data error of the same cycle is one of the interval that would end, which then does not commit. `w`
is 1 where the commit has waited for the bundle's own M-slot work (R58), and then stands at the start of its cycle. -/
def execCheckpointCommit (s : State) : Out :=
  let k := s.ev.k
  let y := s.clkOf k
  let c := s.core k
  if c.cur || c.run.failing then .next s
  else
    match c.rerun with
    | none => .next (s.setCore k (c.commit s.ev.b))
    | some r =>
      let c := c.endRun (s.col (colOf k)).mcmask .commit
      if r.ends.isEmpty then .next (s.setCore k { c with run := .drain (if s.ev.w = 1 then y else y + 1) .rerunB })
      else .next ((s.setCore k c).atOnce (evB .rerunCompare k 0 s.ev.b))

/-! ### Rollback (R203, R204) -/

/-- The matrix drain record (R203). -/
def Core.drainRecord (c : Core) : List DrainRec :=
  (c.streams.filter fun x => !x.retired).map fun x => ⟨x.tile, x.slot.q, x.mode, x.begun⟩

/-- The cycles that rollback takes. -/
def Core.rollbackTime (c : Core) : Nat :=
  let u := c.undo.length + 4 * c.undoStat.length + 32 * (c.taken.filter fun x => decide (x.1 < 8)).length
  32 + ceilDiv u 256 + c.preimg.length

/-- The flits taken in the interval go back to the fronts of their FIFOs (R256). -/
def Core.untake (c : Core) : Core :=
  { c with fifo := c.taken.foldr (fun x m => smod [] m x.1 fun l => x.2 :: l) c.fifo, taken := [] }

/-- The state of the last checkpoint restored (R196, R204, R209, R210). -/
def Core.restoreFrom (c : Core) (k : Ckpt) : Core :=
  let c := c.untake
  { c with
    bank0 := k.bank, tctl := k.tctl, pfmt0 := k.pfmt0, pfmt1 := k.pfmt1, act := k.act, wp0 := k.wp0, wp1 := k.wp1,
    icycle := k.icycle,
    sp := c.undo.foldl (fun m x => match x.2 with
      | none => m
      | some b => m.setByte x.1 b) c.sp,
    stat := c.undoStat.foldl (fun m x => match x.2 with
      | none => m
      | some w => sset 0 m x.1 w) c.stat,
    tiles := c.preimg.foldl (fun m x => match x.2 with
      | none => m
      | some r => sset 0 m x.1 r) c.tiles,
    undo := [], undoStat := [], preimg := [], undoCount := 0, accTiles := [], planeLoads := 0, outPos := 0, barPos := 0,
    streams := [], loads := [], tileOps := [], drains := [], arr := .reset,
    seq := { k.seq with queue := k.seq.queue.map Copy.rewind }, seqHold := true, portBusy := false, dwell := 0,
    fence := none, fenceOps := 0, ckpWait := false,
    pend := c.pend.filter fun e => match e.kind with
      | .mcast _ _ => true
      | _ => false }

/-- The events of a core that rollback ends. -/
def rollbackEvents : List Instr :=
  [.streamVectorBegin, .lineSumAdd, .streamRetire, .planeRowWrite, .planeLoadComplete, .tileOpComplete, .drainRowWrite,
   .drainComplete, .copyStart, .copyBeat, .copyComplete, .copyRestart, .busBeat, .busCopyRequest, .wbfenceRelease,
   .loopBack, .checkpointCommit, .phaseArrival]

/-- ROLLBACK (R204): at the end of the drain the last checkpoint is restored; what follows after the time it takes
depends on why. -/
def execRollback (s : State) : Out :=
  let k := s.ev.k
  let y := s.clkOf k
  let c := s.core k
  match c.run, c.ckpt with
  | .drain _ why, some ck =>
    let u := y + c.rollbackTime
    let rec_ := c.drainRecord
    let mask := (s.col (colOf k)).mcmask
    let c' := match why with
      | .trap t => c.endRun mask (.trap t)
      | .dataError => { c with rerun := some ⟨0, 0, false, []⟩ }
      | .rerunB => { c with rerun := c.rerun.map fun (r : Rerun) => { r with cycles := 0, sig := 0 } }
    let c' := { c'.restoreFrom ck with drainRec := rec_, run := .rollback u why }
    let s := (s.setCore k c').unschedule fun e => e.k == k && rollbackEvents.contains e.event
    match why, c'.rerun with
    | .trap _, none => .next (s.scheduleCore k (u - 1) (evK .serviceHandlerEntry k))
    | .trap _, some r =>
      if r.ends.length < 2 then .next (s.scheduleCore k (u - 1) (evK .bank0Resume k))
      else .next (s.scheduleCore k y (evK .rerunCompare k))
    | _, _ => .next (s.scheduleCore k (u - 1) (evK .bank0Resume k))
  | _, _ => .next s

/-- SERVICE_HANDLER_ENTRY (R205): bank 1 issues its first bundle in the next cycle. -/
def execServiceHandlerEntry (s : State) : Out :=
  .next (s.modCore s.ev.k fun c =>
    match c.run with
    | .rollback _ (.trap t) => c.enterHandler t ((c.ckpt.map (·.pc)).getD 0)
    | _ => c)

/-- BANK0_RESUME (R122, R206, R213): bank 0 resumes from the checkpoint in the next cycle; a rerun waits while the column's
bus is blocked (R241). -/
def execBank0Resume (s : State) : Out :=
  let k := s.ev.k
  let c := s.core k
  match c.run with
  | .rftRun pc => .next (s.setCore k ((c.leaveHandler pc).waitOver (layerOf k)))
  | .rollback _ _ =>
    if (s.col (colOf k)).blocked then .next (s.scheduleCore k (s.clkOf k + 1) s.ev)
    else .next (s.setCore k ((c.leaveHandler ((c.ckpt.map (·.pc)).getD 0)).waitOver (layerOf k)))
  | _ => .next s

/-! ### Data errors (R201, R205, R213) -/

/-- A double rerun between its runs, or before the first of them (R213). -/
def Core.betweenRuns (c : Core) : Bool :=
  c.rerun.isSome && match c.run with
    | .drain _ .rerunB => true
    | .rollback _ _ => true
    | _ => false

/-- DATA_ERROR (R201, R205, R213, R241): the interval is rolled back and run twice, a trap that drains or rolls back being
discarded; one in a run of the rerun keeps the runs from committing, and one before or between them is in neither (R213).
One in a result of bank 1 retires the core, whose task is held.
DEDUCED: one of a transfer of bank 0 that bank 1 meets ends the service at once, as it does a drain (log 17). -/
def execDataError (s : State) : Out :=
  let k := s.ev.k
  let c := s.core k
  if c.task.isNone || c.ckpt.isNone then .next s
  else if c.cur && !s.ev.b then .next ((s.handlerFault k 0 c.pc).markRetired k (c.task.getD 0))
  else if c.betweenRuns then .next s
  else if c.rerun.isSome then .next (s.setCore k { c with rerun := c.rerun.map fun r => { r with disagree := true } })
  else
    match c.run with
    | .drain t (.trap _) => .next (s.setCore k { c with run := .drain t .dataError })
    | .drain _ _ => .next s
    | .rollback u (.trap _) =>
      let s := s.unschedule (· == evK .serviceHandlerEntry k)
      .next ((s.setCore k { c with run := .rollback u .dataError, rerun := some ⟨0, 0, false, []⟩ }).scheduleCore k (u - 1)
        (evK .bank0Resume k))
    | .rollback _ _ => .next s
    | .stopped => .next s
    | .idle => .next s
    | _ => .next (s.setCore k { c with run := .drain (s.clkOf k + 1) .dataError })

/-- Both runs of a data error end alike (R213). -/
def sameEnds (a b : RunEnd × Nat × BitVec 64) : Bool := decide (a = b)

/-- RERUN_COMPARE (R213). -/
def execRerunCompare (s : State) : Out :=
  let k := s.ev.k
  let c := s.core k
  match c.rerun with
  | none => .next s
  | some r =>
    match r.ends with
    | [a, b] =>
      if !sameEnds a b then .next (s.retireCore k)
      else
        match a.1 with
        | .commit => if r.disagree then .next (s.retireCore k) else .next (s.setCore k (c.commit s.ev.b))
        | .trap _ =>
          match c.run with
          | .rollback u _ =>
            .next ((s.setCore k { c with rerun := none }).scheduleCore k (u - 1) (evK .serviceHandlerEntry k))
          | _ => .next s
    | _ => .next s

/-! ### Code page loads (R212) -/

/-- CPLD (R212): in bank 1 only; the frame leaves the map and the page is on its way. -/
def execCpld (f : FmtDAB) (s : State) : Out :=
  bank1Only s fun s =>
    if !s.guard f.gn f.g then .next s
    else
      let k := s.ictx.core
      let c := s.cur
      let page := (s.rs 0 f.a).toNat
      let frame := (s.rs 1 f.b).toNat
      let size := ((s.taskOf k).map fun t => t.desc.codeSize).getD 0
      let held := c.codeMap.any fun x => x.1 != frame && entryHolds x.2 page
      if 0x3FFF < page ∨ 59 < frame ∨ size ≤ page * 4096 then .next (s.give f.d 2)
      else if held then .next (s.give f.d 3)
      else if c.loading.contains frame then .next (s.give f.d 1)
      else
        let s := s.upd fun c => { c with codeMap := sset 0 c.codeMap frame (BitVec.ofNat 32 page), loading := c.loading ++ [frame] }
        let t := s.clkOf k + 1 + Config.pageLoadTime s.fresh
        .next ((s.give f.d 0).tick.scheduleCore k t ⟨.cpldComplete, k, frame, 0, page, false⟩)

/-- CPLD_COMPLETE (R212): the page stands in its frame, and the entry is valid in the next cycle. -/
def execCpldComplete (s : State) : Out :=
  let k := s.ev.k
  let frame := s.ev.i
  match s.taskOf k with
  | none => .next s
  | some t =>
    let bytes := s.codePage (dieOf k) t.desc t.table s.ev.w
    .next (s.tick.modCore k fun c =>
      { c with imem := c.imem.setBytes (4096 * frame) bytes, loading := c.loading.filter (· != frame),
               codeMap := sset 0 c.codeMap frame (BitVec.ofNat 32 (2 ^ 31 + s.ev.w)) })

end Sys2Proof.Machine
end

