-- ==== Sys2Proof/Machine/Mesh.lean ====
section
/-! DEFINITION. The mesh: ports, inbound FIFOs with their interlock, XSEND, XRECV, XFWD and the flits' departure and
arrival (12_die_supersteps.md R252 to R256). -/

namespace Sys2Proof.Machine

/-! ### Ports and flits (R252, R254) -/

/-- Flit i of a vector register. -/
def flitOf (v : VReg) (i : Nat) : BitVec 256 := v.extractLsb' (256 * i) 256

/-- The flits FL to FL + NF of a register. -/
def flitsOf (v : VReg) (fl nf : BitVec 3) : List (BitVec 256) :=
  (List.range (nf.toNat + 1)).map fun i => flitOf v (fl.toNat + i)

/-- The bytes of flits, in order. -/
def flitBytes (fs : List (BitVec 256)) : List Byte := (fs.map fun f => bytesOfNat 32 f.toNat).flatten

/-- The register that holds flits from flit FL on, and the lanes they fill. -/
def flitsReg (fl : Nat) (fs : List (BitVec 256)) : VReg × BitVec 64 :=
  (BitVec.ofNat 2048 (natOfBytes (List.replicate (32 * fl) 0 ++ flitBytes fs)),
   maskOf fun l => decide (8 * fl ≤ l) && decide (l < 8 * (fl + fs.length)))

/-- The neighbour's port that a port leads to: N, E, S, W are 0 to 3. -/
def facing (port : Nat) : Nat := (port + 2) % 4

/-- The core that a port leads to; none at a null port (R252). -/
def State.meshPeer (s : State) (k port : Nat) : Option Nat :=
  match s.taskOf k with
  | none => none
  | some t =>
    match t.place with
    | .queued => none
    | .resident sites =>
      let w := (s.core k).coord
      let x := (w.extractLsb' 5 3).toNat
      let y := (w.extractLsb' 2 3).toNat
      let core (x y : Nat) : Option Nat := (sites[y * t.desc.nx + x]?).map fun c => coreIn (dieOf k * 128 + c) (layerOf k)
      match port with
      | 0 => if y = 0 then none else core x (y - 1)
      | 1 => if x + 1 < t.desc.nx then core (x + 1) y else none
      | 2 => if y + 1 < t.desc.ny then core x (y + 1) else none
      | _ => if x = 0 then none else core (x - 1) y

/-! ### The FIFO interlock (R253) -/

def Core.fifoOf (c : Core) (port : Nat) : List Flit := sget [] c.fifo port

/-- The FIFO of a port holds n flits that can be taken at a time. -/
def Core.canTake (c : Core) (port n now : Nat) : Bool :=
  let l := (c.fifoOf port).take n
  l.length == n && l.all fun f => decide (f.from_ ≤ now)

/-- A port's FIFO has room for n more flits in a clock cycle. -/
def Core.hasRoom (c : Core) (port n y : Nat) : Bool :=
  decide ((c.fifoOf port).length + sget 0 c.inflight port +
    ((sget [] c.freeing port).filter fun f => decide (y < f)).length + n ≤ 16)

/-- The next outbound operation of the core is a re-execution (R256). -/
def Core.resending (c : Core) : Bool := !c.cur && decide (c.outPos < c.outLog.length)

/-- A send of n flits out of a port waits. -/
def State.sendWaits (s : State) (k port n : Nat) : Bool :=
  match s.meshPeer k port with
  | none => false
  | some p => !(s.core k).resending && !(s.core p).hasRoom (facing port) n (s.clkOf k)

/-- A receive of n flits from a port waits. -/
def State.takeWaits (s : State) (k port n : Nat) : Bool :=
  (s.meshPeer k port).isSome && !(s.core k).canTake port n (s.clkOf k)

/-! ### Taking and sending -/

/-- The oldest n flits of a port taken; bank 0's are held for a rollback and counted (R255, R256). -/
def Core.take (c : Core) (port n : Nat) : Core :=
  let l := c.fifoOf port
  let c := { c with fifo := sset [] c.fifo port (l.drop n) }
  if c.cur then c else { c with taken := c.taken ++ (l.take n).map fun f => (port, { f with credit := none }) }

/-- Mesh flits taken: their entries are free two cycles later. -/
def Core.takeMesh (c : Core) (port n y : Nat) : Core :=
  let c := c.countUndo (32 * n)
  let old := (sget [] c.freeing port).filter fun f => decide (y < f)
  { c.take port n with freeing := sset [] c.freeing port (old ++ List.replicate n (y + 2)) }

/-- Flits sent out of a mesh port, one a cycle after its previous departures (R253). -/
def State.sendMesh (s : State) (k port : Nat) (fs : List (BitVec 256)) : State :=
  match s.meshPeer k port with
  | none => s
  | some p =>
    let y := s.clkOf k
    let d := Nat.max (y + 1) (sget 0 (s.core k).outNext port)
    let s := s.modCore k fun c =>
      { c with out := smod [] c.out port fun l => l ++ ((List.range fs.length).zip fs).map fun x => ⟨d + x.1, [x.2]⟩,
               outNext := sset 0 c.outNext port (d + fs.length) }
    let s := s.modCore p fun c => { c with inflight := smod 0 c.inflight (facing port) fun n => n + fs.length }
    (List.range fs.length).foldl (fun s i => s.scheduleCore k (d + i) ⟨.meshFlitDepart, k, port, p, 0, false⟩) s

/-! ### The instructions (R255) -/

/-- The flits received go on their way to a register: latency 2, nothing enters vn0. -/
def State.receive (s : State) (un : Bool) (d : BitVec 6) (fl : BitVec 3) (fs : List (BitVec 256)) : State :=
  if fs.isEmpty then s
  else
    let r := flitsReg fl.toNat fs
    s.upd fun c => c.send 2 (.vload un d r.2 r.1)

/-- XSEND (R255); while the interlock holds it, it does nothing. -/
def execXsend (f : FmtX) (s : State) : Out :=
  exchangeOnly s fun s =>
    let k := s.ictx.core
    let p := f.port.toNat
    let n := f.nf.toNat + 1
    if !s.guard f.gn f.g || s.sendWaits k p n then .next s
    else
      let fs := flitsOf (s.rv f.un 0 f.v) f.fl f.nf
      .next (s.outOp (6 * 64 + 1) p (32 * n) (flitBytes fs) 0 (fun s => s.sendMesh k p fs) fun _ s => s)

/-- XRECV (R255). -/
def execXrecv (f : FmtX) (s : State) : Out :=
  exchangeOnly s fun s =>
    let k := s.ictx.core
    let p := f.port.toNat
    let n := f.nf.toNat + 1
    if !s.guard f.gn f.g || s.takeWaits k p n then .next s
    else if (s.meshPeer k p).isNone then .next s
    else if s.cur.undoOver (32 * n) then .next (s.trap cCkpBudget)
    else
      let fs := ((s.cur.fifoOf p).take n).map (·.data)
      .next ((s.upd fun c => c.takeMesh p n (s.clkOf k)).receive f.un f.v f.fl fs)

/-- XFWD (R255): a null inbound port gives no flits. -/
def execXfwd (f : FmtXFwd) (s : State) : Out :=
  exchangeOnly s fun s =>
    let k := s.ictx.core
    let p := f.port.toNat
    let q := f.port2.toNat
    let n := if (s.meshPeer k p).isSome then f.nf.toNat + 1 else 0
    if !s.guard f.gn f.g || s.takeWaits k p n || s.sendWaits k q n then .next s
    else if s.cur.undoOver (32 * n) || s.cur.outOver then .next (s.trap cCkpBudget)
    else
      let fs := ((s.cur.fifoOf p).take n).map (·.data)
      let s := if n = 0 then s else s.upd fun c => c.takeMesh p n (s.clkOf k)
      .next (s.outOp (6 * 64 + 3) (p * 4 + q) (32 * n) (flitBytes fs) 0 (fun s => s.sendMesh k q fs) fun _ s => s)

/-! ### The flits' way (R253) -/

/-- MESH_FLIT_DEPART: the flit is on the link, and is written in the next cycle. -/
def execMeshFlitDepart (s : State) : Out :=
  let k := s.ev.k
  .next (s.scheduleCore k (s.clkOf k + 1) ⟨.meshFlitArrive, s.ev.j, facing s.ev.i, k, s.ev.i, false⟩)

/-- MESH_FLIT_ARRIVE: the flit is written into the inbound FIFO and can be taken two cycles later. -/
def execMeshFlitArrive (s : State) : Out :=
  let k := s.ev.k
  let from_ := s.ev.j
  match sget [] (s.core from_).out s.ev.w with
  | [] => .next s
  | o :: rest =>
    let y := s.clkOf k
    let s := s.modCore from_ fun c => { c with out := sset [] c.out s.ev.w rest }
    .next (s.modCore k fun c =>
      { c with fifo := smod [] c.fifo s.ev.i fun l => l ++ o.data.map fun (d : BitVec 256) => ⟨d, false, y + 2, none⟩,
               inflight := smod 0 c.inflight s.ev.i fun n => n - 1 })

end Sys2Proof.Machine
end

