-- ==== Sys2Proof/Machine/Fabric.lean ====
section
/-! DEFINITION. The fabric: FSEND and FRECV with their credits, link flits and their slots, links that fail and are
trained, and the messages of the Medlar channel (19_fabric.md R336 to R347). -/

namespace Sys2Proof.Machine

/-! ### Collective descriptors and windows (R351, R354) -/

/-- The fields of a collective descriptor, extents as counts. -/
structure CollDesc where
  ctag : W
  box : W
  x0 : Nat
  y0 : Nat
  z0 : Nat
  nx : Nat
  ny : Nat
  nz : Nat
  in_ : Nat
  out : Nat
  n : Nat
  ofmt : Nat
  ifmt : Nat
  win : Bool
  wout : Bool
  mode : BitVec 3
  ote : Int
  ite : Int
  sexp : Int
  root : Nat
  rsvd : Bool
deriving DecidableEq, Repr

def CollDesc.ofWords (ws : List W) : CollDesc :=
  let w (i : Nat) : W := ws.getD i 0
  let f (i lo n : Nat) : Nat := ((w i).extractLsb' lo n).toNat
  { ctag := w 0, box := w 1, x0 := f 1 22 5, y0 := f 1 18 4, z0 := f 1 14 4, nx := f 1 9 5 + 1, ny := f 1 5 4 + 1,
    nz := f 1 1 4 + 1, in_ := f 2 0 23, out := f 3 0 23, n := f 4 0 21, ofmt := f 5 27 5, ifmt := f 5 22 5,
    win := (w 5).getLsbD 21, wout := (w 5).getLsbD 20, mode := (w 5).extractLsb' 16 3, ote := sextNat 8 (f 5 8 8),
    ite := sextNat 8 (f 5 0 8), sexp := sextNat 16 (f 6 0 16), root := f 7 0 13,
    rsvd := f 1 27 5 != 0 || (w 1).getLsbD 0 || f 2 23 9 != 0 || f 3 23 9 != 0 || f 4 21 11 != 0 || (w 5).getLsbD 19 ||
      f 6 16 16 != 0 || f 7 13 19 != 0 || w 14 != 0 || w 15 != 0 }

/-- The number of participants. -/
def CollDesc.count (d : CollDesc) : Nat := d.nx * d.ny * d.nz

/-- The link flits of the largest stream. -/
def CollDesc.flits (d : CollDesc) (k : CollKind) : Nat :=
  match k with
  | .ag => ceilDiv (d.count * d.n) 256
  | .bc => ceilDiv d.n 256
  | _ => ceilDiv d.n 32

/-- span(f) of R354. -/
def spanOf (f : Nat) : Nat := 16 * ((f - 1) / 12) + (f - 1) % 12 + 1

/-- T: the length of the window (R354). -/
def CollDesc.window (d : CollDesc) (k : CollKind) : Nat :=
  2 * (d.nx - 1 + (d.ny - 1) + (d.nz - 1)) * Config.hop + spanOf (d.flits k) + 64

/-! ### The box, its ranks and its paths (R351, R354, R360) -/

/-- A place in the box: offsets along X, Y and Z. -/
structure Place where
  i : Nat
  j : Nat
  k : Nat
deriving DecidableEq, Repr

def CollDesc.place (d : CollDesc) (r : Nat) : Place := ⟨r % d.nx, r / d.nx % d.ny, r / (d.nx * d.ny)⟩

/-- The package of a rank. -/
def State.rankPkg (s : State) (d : CollDesc) (r : Nat) : Nat :=
  let p := d.place r
  mkPkg ((d.x0 + p.i) % s.dx) ((d.y0 + p.j) % s.dy) ((d.z0 + p.k) % s.dz)

/-- The participants in rank order. -/
def State.boxPkgs (s : State) (d : CollDesc) : List Nat := (List.range d.count).map (s.rankPkg d)

/-- The rank of a package; none outside the box. -/
def State.rankOf (s : State) (d : CollDesc) (pkg : Nat) : Option Nat :=
  let off (n a b : Nat) : Nat := (b + n - a % n) % n
  let i := off s.dx d.x0 (pkgX pkg)
  let j := off s.dy d.y0 (pkgY pkg)
  let k := off s.dz d.z0 (pkgZ pkg)
  if i < d.nx ∧ j < d.ny ∧ k < d.nz then some (i + d.nx * (j + d.ny * k)) else none

/-- A place lies on the way from another to the origin: X, then Y, then Z (R354). -/
def onInward (q r : Place) : Bool :=
  (q.j == r.j && q.k == r.k && decide (q.i ≤ r.i)) || (q.i == 0 && q.k == r.k && decide (q.j ≤ r.j)) ||
  (q.i == 0 && q.j == 0 && decide (q.k ≤ r.k))

/-- A place lies on the return path from the origin to another: X, then Y, then Z (R360). -/
def onReturn (q r : Place) : Bool :=
  (q.j == 0 && q.k == 0 && decide (q.i ≤ r.i)) || (q.i == r.i && q.k == 0 && decide (q.j ≤ r.j)) ||
  (q.i == r.i && q.j == r.j && decide (q.k ≤ r.k))

/-- A link that carries flits of a collective from one place to the next: on the way in, or on the return path. -/
def inwardEdge (a b : Place) : Bool :=
  (a.j == b.j && a.k == b.k && b.i + 1 == a.i) || (a.i == 0 && b.i == 0 && a.k == b.k && b.j + 1 == a.j) ||
  (a.i == 0 && b.i == 0 && a.j == 0 && b.j == 0 && b.k + 1 == a.k)

def returnEdge (a b : Place) : Bool :=
  (a.j == 0 && b.j == 0 && a.k == 0 && b.k == 0 && a.i + 1 == b.i) || (a.i == b.i && a.k == 0 && b.k == 0 && a.j + 1 == b.j) ||
  (a.i == b.i && a.j == b.j && a.k + 1 == b.k)

/-- The flits of a collective, from one of an index on, that no longer come over a port of a participant (R340, R360): those
on the way in come through a positive port, those of the return path through a negative one. -/
def State.cutFlits (s : State) (pkg port first : Nat) (c : PkgColl) : PkgColl :=
  let d := CollDesc.ofWords c.words
  match s.rankOf d pkg, s.rankOf d (s.portTo pkg port) with
  | some r, some q =>
    let l := (List.range (d.flits c.kind)).filter fun f => decide (first ≤ f)
    let back := port % 2 == 1
    let on := if back then returnEdge (d.place q) (d.place r) else inwardEdge (d.place q) (d.place r)
    if on then { c with lost := c.lost ++ l.map fun f => (f, port) } else c
  | _, _ => c

/-- The window of a collective that runs is open. -/
def PkgColl.inWindow (c : PkgColl) (f : Nat) : Bool :=
  c.running &&
  match c.grant with
  | none => false
  | some g => decide (g.start ≤ f) && decide (f < g.start + (CollDesc.ofWords c.words).window c.kind)

/-- A window is open at a package in a fabric cycle. -/
def Pkg.inWindow (p : Pkg) (f : Nat) : Bool := p.colls.any fun c => c.inWindow f

/-! ### FSEND and FRECV (R341 to R344) -/

def Pkg.modPort (p : Pkg) (n : Nat) (f : Port → Port) : Pkg := { p with ports := smod Port.reset p.ports n f }

/-- The credits of a port cover n more register flits. -/
def Core.hasCredit (c : Core) (port n : Nat) : Bool := decide (sget 0 c.creditsUsed port + n ≤ 64)

/-- A send of n flits to a fabric port waits (R344). -/
def State.fsendWaits (s : State) (k port n : Nat) : Bool :=
  !s.nullPort (pkgOf k) port && !(s.core k).resending && !(s.core k).hasCredit port n

/-- A receive of n flits from a fabric port waits. -/
def State.frecvWaits (s : State) (k port n : Nat) : Bool :=
  !s.nullPort (pkgOf k) port && !(s.core k).canTake (8 + port) n s.fab

/-- A link flit takes its place in a port's queue: by the cycle it was handed over in, then by core (R343). -/
def insertFlit (x : LinkFlit) : List LinkFlit → List LinkFlit
  | [] => [x]
  | y :: r => if x.handed < y.handed ∨ (x.handed = y.handed ∧ x.core < y.core) then x :: y :: r else y :: insertFlit x r

/-- The next departure of a port is looked for in a fabric cycle, if none is looked for before. -/
def State.departAt (s : State) (pkg port f : Nat) : State :=
  let e := evI .fabricFlitDepart pkg port
  if s.agenda.any fun d => d.ev == e then s else s.scheduleFab f e

/-- Flits handed to a port, their credits spent. -/
def State.sendFabric (s : State) (k port : Nat) (fs : List (BitVec 256)) : State :=
  let pkg := pkgOf k
  if s.nullPort pkg port then s
  else
    let c := s.core k
    let x : LinkFlit := { handed := s.fab + 1, core := k, tag := c.task.getD 0, coord := c.coord, flits := fs }
    let s := s.modCore k fun c => { c with creditsUsed := smod 0 c.creditsUsed port fun n => n + fs.length }
    let s := s.modPkg pkg fun p => p.modPort port fun q => { q with queue := insertFlit x q.queue }
    s.departAt pkg port (s.fab + 1)

/-- FSEND (R343, R344); while the interlock holds it, it does nothing. -/
def execFsend (f : FmtX) (s : State) : Out :=
  exchangeOnly s fun s =>
    let k := s.ictx.core
    let p := f.port.toNat
    let n := f.nf.toNat + 1
    if !s.guard f.gn f.g || s.fsendWaits k p n then .next s
    else
      let fs := flitsOf (s.rv f.un 0 f.v) f.fl f.nf
      .next (s.outOp (6 * 64 + 4) p (32 * n) (flitBytes fs) 0 (fun s => s.sendFabric k p fs) fun _ s => s)

/-- FRECV (R343, R344). -/
def execFrecv (f : FmtX) (s : State) : Out :=
  exchangeOnly s fun s =>
    let k := s.ictx.core
    let p := f.port.toNat
    let n := f.nf.toNat + 1
    if !s.guard f.gn f.g || s.frecvWaits k p n || s.nullPort (pkgOf k) p then .next s
    else
      let l := (s.cur.fifoOf (8 + p)).take n
      let s := s.repay p l
      .next ((s.upd fun c => c.take (8 + p) n).receive f.un f.v f.fl (l.map (·.data)))

/-! ### Link flits (R338 to R341) -/

/-- The credits of a discarded link flit return (R344). -/
def State.repayLink (s : State) (port : Nat) (x : LinkFlit) : State :=
  s.repay (oppositePort port) (x.flits.map fun (d : BitVec 256) => ⟨d, false, 0, some x.core⟩)

/-- FABRIC_FLIT_DEPART: the head of a port's queue departs in the first free data slot (R343). -/
def execFabricFlitDepart (s : State) : Out :=
  let k := s.ev.k
  let i := s.ev.i
  let f := s.fab
  let p := s.pkg k
  match (p.port i).queue with
  | [] => .next s
  | x :: rest =>
    if 12 ≤ f % 16 ∨ f < x.handed ∨ p.inWindow f = true then .next (s.departAt k i (f + 1))
    else
      let s := s.modPkg k fun p => p.modPort i fun q => { q with queue := rest }
      let s := if rest.isEmpty then s else s.departAt k i (f + 1)
      if s.nullPort k i then .next (s.repayLink i x)
      else
        let x := { x with handed := f + Config.hop }
        let s := s.modPkg k fun p => p.modPort i fun q => { q with wire := q.wire ++ [x] }
        .next (s.scheduleFab (f + Config.hop) (evI .fabricFlitArrive k i))

/-- The layer and gang coordinates in COORD. -/
def sameCoord (a b : W) : Bool := a.extractLsb' 0 8 == b.extractLsb' 0 8

/-- The core a link flit goes to: the same task, die and coordinates on a package (R341). -/
def State.flitTarget (s : State) (pkg : Nat) (x : LinkFlit) : Option Nat :=
  let die := pkg * 2 + halfOf x.core
  match (s.die die).task x.tag with
  | none => none
  | some t => (s.taskCores die t).find? fun k => sameCoord (s.core k).coord x.coord

/-- A register flit as delivered: the payload of an uncorrectable flit is lost, and its value is open (R338). -/
def delivered (s : State) (spoil : Bool) (i : Nat) (d : BitVec 256) : BitVec 256 :=
  if spoil then BitVec.ofNat 256 (packWords ((List.range 8).map fun l => Config.unpredictable s.fresh (131072 + i) l)) else d

/-- FABRIC_FLIT_ARRIVE: a link flit's register flits enter the FIFO of the core it is for (R341, R343). -/
def execFabricFlitArrive (s : State) : Out :=
  let k := s.ev.k
  let i := s.ev.i
  match ((s.pkg k).port i).wire with
  | [] => .next s
  | x :: rest =>
    let there := s.portTo k i
    let o := oppositePort i
    let s := s.modPkg k fun p => p.modPort i fun q => { q with wire := rest }
    if s.nullPort k i then .next (s.repayLink i x)
    else
      match s.flitTarget there x with
      | none => .next (s.repayLink i x)
      | some r =>
        let spoil := ((s.pkg there).port o).spoil
        let fs : List Flit := ((List.range x.flits.length).zip x.flits).map fun y =>
          ⟨delivered s spoil y.1 y.2, spoil, s.fab + 3, some x.core⟩
        .next (s.tick.modCore r fun c => { c with fifo := smod [] c.fifo (8 + o) fun l => l ++ fs })

/-- CREDIT_RETURN (R344). -/
def execCreditReturn (s : State) : Out :=
  .next (s.modCore s.ev.k fun c => { c with creditsUsed := smod 0 c.creditsUsed s.ev.i fun n => n - 1 })

/-- No link flit of a core is queued or on a link (R344). -/
def State.fabricSent (s : State) (k : Nat) : Bool :=
  (s.pkg (pkgOf k)).ports.all fun p => (p.2.queue ++ p.2.wire).all fun x => x.core != k

/-! ### Messages of the Medlar channel (R347) -/

/-- The package that a package sends its requests and reports to: the primary of the highest term it has seen (R361). -/
def State.leaderOf (s : State) (pkg : Nat) : Nat := (s.pkg pkg).medlar.leader

/-- Every link of the path between two packages is up, and both run. -/
def State.reaches (s : State) (a b : Nat) : Bool :=
  (s.pkg a).ready && (s.pkg b).ready &&
  ((s.path a b).foldl (fun (x : Nat × Bool) p => (s.portTo x.1 p, x.2 && !s.nullPort x.1 p)) (a, true)).2

def State.msg (s : State) (id : Nat) : Option Msg := s.msgs.find? fun m => m.id = id

/-- The message is a grant of one package to another. -/
def Msg.isGrant (m : Msg) (src dst : Nat) : Bool :=
  match m.body with
  | .grant _ _ _ _ => m.src == src && m.dst == dst
  | _ => false

/-- The cycle by which the grants sent to a package have set out: the next one follows them, as grants go in CSN order (R350). -/
def State.grantsOut (s : State) (src dst : Nat) : Nat :=
  s.agenda.foldl (fun t d =>
    if d.ev.event == .channelMessageReceive && d.ev.j == 0 && !d.ev.b && ((s.msg d.ev.i).map fun m => m.isGrant src dst).getD false
    then Nat.max t d.at_ else t) 0

/-- A message sets out; it is sent again until it is acknowledged. -/
def State.sendMsg (s : State) (src dst : Nat) (body : MsgBody) : State :=
  let id := s.msgId
  let m : Msg := { id := id, src := src, dst := dst, body := body, seen := false }
  let t := s.fab + 1 + Config.medlarTransit s.fresh
  let t := if m.isGrant src dst then Nat.max t (s.grantsOut src dst) else t
  let s := { s with msgs := s.msgs ++ [m], msgId := id + 1 }
  ((s.tick.scheduleFab t (evB .channelMessageReceive dst id false)).scheduleFab (s.fab + 3200)
    (evI .channelRetransmit src id))

/-- The event that a message causes where it arrives. -/
def Msg.event (m : Msg) : Ev :=
  match m.body with
  | .request _ _ _ => ⟨.collRequestAtPrimary, m.dst, m.id, m.src, 0, false⟩
  | .ended _ _ _ _ => ⟨.collRequestAtPrimary, m.dst, m.id, m.src, 1, false⟩
  | .link _ _ _ => ⟨.collRequestAtPrimary, m.dst, m.id, m.src, 2, false⟩
  | .grant _ _ _ _ => ⟨.grantReceived, m.dst, m.id, 0, 0, false⟩
  | .cancel _ _ _ _ _ => ⟨.cancelAtPrimary, m.dst, m.id, m.src, 0, false⟩
  | .cancelled _ _ _ => ⟨.cancelAtPrimary, m.dst, m.id, 0, 2, true⟩
  | .beat t => ⟨.heartbeat, m.dst, m.src, 0, t, true⟩
  | .collect t => ⟨.collectRequest, m.dst, m.src, 0, t, false⟩
  | .report _ _ _ _ _ _ => ⟨.numberingResume, m.dst, m.id, 0, 0, true⟩

/-- The first fabric cycle at or after one whose slot carries the Medlar channel: slot 15 of an even frame (R339). -/
def channelSlot (f : Nat) : Nat := f + (47 - f % 32) % 32

/-- The nonce of the next flit of a port's channels (R347). -/
def State.nonce (s : State) (pkg port : Nat) : BitVec 96 :=
  Config.linkIdentity pkg port ++ BitVec.ofNat 64 ((s.pkg pkg).port port).chanCount

/-- A message takes its place at a port: one flit in each slot of the channel, counted there (R339, R347; log 21). -/
def State.queueChannel (s : State) (pkg port f : Nat) (e : Ev) : State :=
  let d := channelSlot (Nat.max f ((s.pkg pkg).port port).chanNext)
  (s.modPkg pkg fun p => p.modPort port fun q =>
    { q with chanNext := d + 1, chanCount := (q.chanCount + 1) % 2 ^ 64 }).scheduleFab (d + Config.hop) e

/-- The flit that a package has just received over a port of its neighbour is lost: the link is down, the flit
uncorrectable, or its authentication fails (R338, R340, R347). -/
def State.channelLost (s : State) (sender port : Nat) : Bool :=
  let x := (s.pkg (s.portTo sender port)).port (oppositePort port)
  s.nullPort sender port || x.spoil || x.unauth

/-- CHANNEL_MESSAGE_RECEIVE (R338, R339, R347): a message or an acknowledgement that has made j hops is lost, or goes on to
the next; where it is for, a message is acknowledged, duplicates without another effect, and an acknowledgement ends it. -/
def execChannelMessageReceive (s : State) : Out :=
  match s.msg s.ev.i with
  | none => .next s
  | some m =>
    let src := if s.ev.b then m.dst else m.src
    let dst := if s.ev.b then m.src else m.dst
    let path := s.path src dst
    let h := s.ev.j
    let node := (path.take h).foldl s.portTo src
    if h ≠ 0 ∧ s.channelLost ((path.take (h - 1)).foldl s.portTo src) (path.getD (h - 1) 0) = true then .next s
    else if (h = 0 ∨ h = path.length) ∧ (s.pkg node).ready = false then .next s
    else if h < path.length then
      let q := path.getD h 0
      if s.nullPort node q then .next s
      else .next (s.queueChannel node q (if h = 0 then s.fab else s.fab + 1) { s.ev with j := h + 1 })
    else if s.ev.b then .next { s with msgs := s.msgs.filter fun (x : Msg) => x.id ≠ m.id }
    else
      let t := s.fab + 1 + Config.medlarTransit s.fresh
      let s := s.tick.scheduleFab t (evB .channelMessageReceive m.src m.id true)
      if m.seen then .next s
      else
        let s := { s with msgs := s.msgs.map fun (x : Msg) => if x.id = m.id then { x with seen := true } else x }
        .next (s.scheduleFab s.fab m.event)

/-- CHANNEL_RETRANSMIT (R347): a message not acknowledged within 2 µs is sent again. -/
def execChannelRetransmit (s : State) : Out :=
  match s.msg s.ev.i with
  | none => .next s
  | some m =>
    let t := s.fab + 1 + Config.medlarTransit s.fresh
    .next ((s.tick.scheduleFab t (evB .channelMessageReceive m.dst m.id false)).scheduleFab (s.fab + 3200) s.ev)

/-! ### Links (R338, R340, R347) -/

/-- A package that reports a link to the sequencer. -/
def State.reportLink (s : State) (pkg port : Nat) (up : Bool) : State := s.sendMsg pkg (s.leaderOf pkg) (.link pkg port up)

/-- A port goes down: what is queued at it is discarded, and flits of a collective in its window are missing from one of an
open index on (R340, R360). -/
def State.portDown (s : State) (pkg port : Nat) : State :=
  let q := ((s.pkg pkg).port port).queue
  let n := (Config.unpredictable s.fresh 393216 0).toNat
  let cut (c : PkgColl) : PkgColl :=
    if c.inWindow s.fab then s.cutFlits pkg port (n % ((CollDesc.ofWords c.words).flits c.kind + 1)) c else c
  let s := s.tick.modPkg pkg fun p =>
    { p.modPort port fun x => { x with up := false, queue := [], bad := 0 } with colls := p.colls.map cut }
  q.foldl (fun s x => s.repayLink port x) s

/-- LINK_DOWN (R340): both ends of the link, and both packages report it. -/
def execLinkDown (s : State) : Out :=
  let k := s.ev.k
  let i := s.ev.i
  let o := s.portTo k i
  let s := (s.portDown k i).portDown o (oppositePort i)
  .next ((s.reportLink k i false).reportLink o (oppositePort i) false)

/-- The key of the link at a port (R347). -/
def State.linkKey (s : State) (pkg port training : Nat) : BitVec 256 :=
  let o := s.portTo pkg port
  Config.shake256 (Config.podSecret ++ bytesOfNat 2 (Nat.min pkg o) ++ bytesOfNat 2 (Nat.max pkg o) ++ bytesOfNat 4 training)

/-- LINK_TRAINING (R340, R347): the link is up under its next training count, with a new key. -/
def execLinkTraining (s : State) : Out :=
  let k := s.ev.k
  let i := s.ev.i
  let o := s.portTo k i
  let train (s : State) (p n : Nat) : State := s.modPkg p fun p => p.modPort n fun x =>
    { x with up := true, training := x.training + 1, key := s.linkKey k i (x.training + 1), chanCount := 0, bad := 0 }
  let s := train (train s k i) o (oppositePort i)
  .next ((s.reportLink k i true).reportLink o (oppositePort i) true)

/-- A collective's flit that failed on its way: its index in the stream, and the port; flits on the way in come over a positive
port, those of the return path over a negative one (R360). -/
def Pkg.loseFlit (p : Pkg) (port f code : Nat) : Pkg :=
  if code = 0 ∨ code % 2 = port % 2 then p
  else { p with colls := p.colls.map fun c => if c.inWindow f then { c with lost := c.lost ++ [((code - 1) / 2, port)] } else c }

/-- LINK_FLIT_DELIVERY (R338, R340, R347): an uncorrectable flit, or one of a channel whose authentication fails (j = 1) and
is dropped and counted, at a port; w names a flit of a running collective, 1 + 2·index, one more on the return path. -/
def execLinkFlitDelivery (s : State) : Out :=
  let k := s.ev.k
  let i := s.ev.i
  if s.ev.b then .next (s.modPkg k fun p => p.modPort i fun q => { q with bad := 0 })
  else if s.ev.j = 1 then .next (s.modPkg k fun p => p.modPort i fun q =>
    { q with dropped := q.dropped + 1, unauth := true })
  else
    let n := ((s.pkg k).port i).bad + 1
    let s := s.modPkg k fun p => (p.modPort i fun q => { q with bad := n, spoil := true }).loseFlit i s.fab s.ev.w
    .next (if 1024 ≤ n then s.scheduleFab s.fab (evI .linkDown k i) else s)

end Sys2Proof.Machine
end

