-- ==== Sys2Proof/Machine/Coll.lean ====
section
/-! DEFINITION. Collectives: their instructions, the wire sums and their delivery, the Medlar sequencer's numbering and
grants, cancels and failover (19_fabric.md R348 to R361). -/

namespace Sys2Proof.Machine

/-! ### The box and its ranks (R351) -/

/-- The kind that a SUB field names (R352). -/
def CollKind.ofSub (n : Nat) : CollKind :=
  match n with
  | 0 => .ar
  | 1 => .rs
  | 2 => .ag
  | _ => .bc

def CollKind.sub : CollKind → Nat
  | .ar => 0 | .rs => 1 | .ag => 2 | .bc => 3

/-- A wire sum is formed. -/
def CollKind.sums (k : CollKind) : Bool := k == .ar || k == .rs

/-- COLL_GROUP (R352). -/
def State.badGroup (s : State) (d : CollDesc) (pkg : Nat) : Bool :=
  decide (s.dx < d.nx) || decide (s.dy < d.ny) || decide (s.dz < d.nz) || (s.rankOf d pkg).isNone

/-! ### The instructions (R352) -/

/-- The bytes of n elements on a side. -/
def sideBytes (wire : Bool) (fmt n : Nat) : Nat := if wire then 8 * n else ceilDiv (n * storedBits fmt) 8

/-- The bytes of IN that a participant of a rank reads. -/
def CollDesc.inBytes (d : CollDesc) (k : CollKind) (rank : Nat) : Nat :=
  if k.sums then sideBytes d.win d.ifmt d.n else if k = .bc ∧ rank ≠ d.root then 0 else d.n

/-- The elements of OUT of a reduction. -/
def CollDesc.outElems (d : CollDesc) (k : CollKind) : Nat := if k = .rs then d.n / d.count else d.n

def CollDesc.outBytes (d : CollDesc) (k : CollKind) : Nat :=
  match k with
  | .ag => d.count * d.n
  | .bc => d.n
  | k => sideBytes d.wout d.ofmt (d.outElems k)

/-- A reduction's format code (R352). -/
def collFmt (f : Nat) : Bool := decide (f ≤ 2) || (decide (10 ≤ f) && decide (f ≤ 17))

/-- A count of elements that the format's packing allows. -/
def collGroup (wire : Bool) (f n : Nat) : Bool := wire || f == 0 || (if f = 1 then n % 4 == 0 else if f = 2 then n % 2 == 0 else true)

/-- The cases of FAR_DESC (R352); `rank` is the issuing package's. -/
def CollDesc.bad (d : CollDesc) (k : CollKind) (w5 w6 : W) (rank : Nat) : Bool :=
  let nin := d.inBytes k rank
  let nout := d.outBytes k
  d.rsvd || d.n == 0 || decide (1048576 < d.n) || decide (d.sexp < -512) || decide (511 < d.sexp) ||
  (k.sums && (decide (3 < d.mode.toNat) || !collFmt d.ifmt || !collFmt d.ofmt ||
    (d.win && (d.ifmt != 0 || d.ite != 0)) || (d.wout && (d.ofmt != 0 || d.ote != 0)) ||
    !collGroup d.win d.ifmt d.n || !collGroup d.wout d.ofmt d.n)) ||
  (k == .rs && d.n % d.count != 0) || (!k.sums && (w5 != 0 || w6 != 0)) ||
  decide (d.count ≤ d.root) || (k != .bc && d.root != 0) ||
  (nin != 0 && !rangeOk d.in_ (d.in_ + nin - 1 : Nat)) || !rangeOk d.out (d.out + nout - 1 : Nat) ||
  (nin != 0 && overlap d.in_ (d.in_ + nin - 1 : Nat) d.out (d.out + nout - 1 : Nat) &&
    !(k == .ar && d.in_ == d.out && nin == nout))

/-- A collective form: a core with 256 outstanding accepts one more, which ends BUSY (R352). -/
def collForm (k : CollKind) (f : FmtDA) (s : State) : Out :=
  exchangeOnly s fun s =>
    if !s.guard f.gn f.g then .next s
    else
      let core := s.ictx.core
      let a := (s.rs 0 f.a).toNat
      match s.farDesc a 16 64 with
      | .error c => .next (s.trap c)
      | .ok ws =>
        let d := CollDesc.ofWords ws
        if d.bad k (ws.getD 5 0) (ws.getD 6 0) ((s.rankOf d (pkgOf core)).getD 0) then .next (s.trap cFarDesc)
        else if s.badGroup d (pkgOf core) then .next (s.trap cCollGroup)
        else
          let busy := decide (256 ≤ s.cur.colls)
          let r := FarReq.start s.cur.nextId .coll s.myTag (s.clkOf core) a ws
          let r := { r with opnd := BitVec.ofNat 32 k.sub, outcome := if busy then 5 else 0 }
          .next (s.outFar (5 * 64 + 0x20 + 1024 * k.sub) f.d r (packWords (ws.take 8)) (d.outBytes k) []
            (fun s => if busy then s else s.upd fun c => { c with colls := c.colls + 1 }) sendFar)

/-- COLL.AR (R352). -/
def execCollAr (f : FmtDA) (s : State) : Out := collForm .ar f s

/-- COLL.RS (R352). -/
def execCollRs (f : FmtDA) (s : State) : Out := collForm .rs f s

/-- COLL.AG (R352). -/
def execCollAg (f : FmtDA) (s : State) : Out := collForm .ag f s

/-- COLL.BC (R352). -/
def execCollBc (f : FmtDA) (s : State) : Out := collForm .bc f s

/-- CCANCEL (R358). -/
def execCcancel (f : FmtDA) (s : State) : Out :=
  exchangeOnly s fun s =>
    if !s.guard f.gn f.g then .next s
    else
      let k := s.ictx.core
      let a := (s.rs 0 f.a).toNat
      match s.farDesc a 4 16 with
      | .error c => .next (s.trap c)
      | .ok ws =>
        let d := CollDesc.ofWords (ws.take 2)
        if d.rsvd then .next (s.trap cFarDesc)
        else if s.badGroup d (pkgOf k) then .next (s.trap cCollGroup)
        else
          let r := FarReq.start s.cur.nextId .ccancel s.myTag (s.clkOf k) a ws
          .next (s.outFar (5 * 64 + 0x21) f.d r (packWords (ws.take 2)) 0 [] id sendFar)

/-- The word of CSTAT (R359). -/
def State.cstatWord (s : State) (k : Nat) : W :=
  let pkg := pkgOf k
  let m := (s.pkg pkg).medlar
  let ok := match m.lastBeat with
    | none => false
    | some f => decide (s.fab ≤ f + 64000)
  let links := (List.range 6).foldl (fun a p => if s.nullPort pkg p then a else a + 2 ^ p) 0
  BitVec.ofNat 32 (packFields [(1, ok.toNat), (9, 0), (6, links), (7, 0), (9, (s.core k).colls)])

/-- CSTAT (R359). -/
def execCstat (f : FmtD) (s : State) : Out :=
  if s.guard f.gn f.g then .next (s.give f.d (s.cstatWord s.ictx.core)) else .next s

/-! ### Wire words (R355, R356) -/

/-- NANW. -/
def nanw : Int := -9223372036854775808

def wireMax : Int := 562949953421311

/-- Clipped to the range of a contribution. -/
def wireClip (w : Int) (f : Flags) : Int × Flags :=
  if wireMax < w then (wireMax, f.or Flags.ovfOnly) else if w < -wireMax then (-wireMax, f.or Flags.ovfOnly) else (w, f)

/-- to_wire of an element's bits. -/
def CollDesc.toWire (d : CollDesc) (bits : Nat) : Int × Flags :=
  if d.win then
    let w := sextNat 64 bits
    if w = nanw then (nanw, Flags.none) else wireClip w Flags.none
  else
    match (decodeElem d.ifmt d.ite bits).scale (-d.sexp) with
    | .nan => (nanw, Flags.nanNfin)
    | .inf _ => (nanw, Flags.nanNfin)
    | .zero _ => (0, Flags.none)
    | .fin neg m e st =>
      let r := roundAt .rne 0 neg m e st 0
      wireClip (if neg then -(r.1 : Int) else r.1) (if r.2 then Flags.inxOnly else Flags.none)

/-- wadd. -/
def wadd (a b : Int) : Int := if a = nanw ∨ b = nanw then nanw else a + b

/-- from_wire: the bits of an output element; NANW sets NAN and NFIN in every format (R356). -/
def CollDesc.fromWire (d : CollDesc) (w : Int) : Nat × Flags :=
  if d.wout then ((w % (2 ^ 64 : Nat)).toNat, Flags.none)
  else
    let v := if w = nanw then XVal.nan else (XVal.ofInt w).scale d.sexp
    let r := encodeElem d.ofmt d.ote (RMode.ofCode d.mode 0) false 0 v
    (r.1, if w = nanw then Flags.nanNfin else r.2)

/-- The bits of an element on a side. -/
def sideBits (wire : Bool) (fmt : Nat) : Nat := if wire then 64 else storedBits fmt

/-- Element e of packed bytes. -/
def elemAt (b : Nat) (bs : List Byte) (e : Nat) : Nat :=
  natOfBytes ((bs.drop (b * e / 8)).take (b / 8 + 2)) / 2 ^ (b * e % 8) % 2 ^ b

/-! ### A collective that runs (R353, R357, R360) -/

/-- The collective of a package with an id. -/
def Pkg.coll (p : Pkg) (id : Nat) : Option PkgColl := p.colls.find? fun c => c.id = id

def State.modColl (s : State) (pkg id : Nat) (f : PkgColl → PkgColl) : State :=
  s.modPkg pkg fun p => { p with colls := p.colls.map fun c => if c.id = id then f c else c }

/-- The part of a package in the collective with a number; none where it does not run. -/
def Pkg.runs (p : Pkg) (csn : W) : Option PkgColl :=
  p.colls.find? fun c => c.running && (match c.grant with
    | none => false
    | some g => g.csn == csn)

/-- The bytes of a flit's worth of input (R357). -/
def CollDesc.perFlit (d : CollDesc) (kind : CollKind) : Nat := if kind.sums then sideBytes d.win d.ifmt 32 else 256

/-- The unit of a participant reads flit f's worth of its input (R357). -/
def State.readInput (s : State) (pkg : Nat) (c : PkgColl) (f : Nat) : State :=
  let d := CollDesc.ofWords c.words
  let at_ := f * d.perFlit c.kind
  let n := Nat.min (d.perFlit c.kind) (c.input.length - at_)
  let new := (s.core c.core).sp.bytes (d.in_ + at_) n
  s.modColl pkg c.id fun c => { c with input := c.input.take at_ ++ new ++ c.input.drop (at_ + n) }

/-- The package runs the grant from now on: each flit's worth of input is read in a cycle of the window that leaves the time
to carry it, OUT is written by the window's end and the collective completes in the die cycle after (R354, R357); flits over a
link that is down are missing (R360). -/
def State.startColl (s : State) (pkg : Nat) (c : PkgColl) (g : Grant) : State :=
  let d := CollDesc.ofWords c.words
  let rank := (s.rankOf d pkg).getD 0
  let bytes := (s.core c.core).sp.bytes d.in_ (d.inBytes c.kind rank)
  let cut (c : PkgColl) : PkgColl :=
    (List.range 6).foldl (fun c p => if s.nullPort pkg p then s.cutFlits pkg p 0 c else c) c
  let s := s.modColl pkg c.id fun c => cut { c with running := true, input := bytes }
  let s := (List.range (ceilDiv bytes.length (d.perFlit c.kind))).foldl (fun s f =>
    let t := g.start + Config.collRead s.fresh % (d.window c.kind - 32)
    s.tick.scheduleFab t (evJ .collectiveStart pkg c.id (f + 1))) s
  let die := dieOf c.core
  let y := (s.die die).clkFrom (g.start + d.window c.kind + 1)
  (s.schedule (.die die) (y - 1) ⟨.collectiveComplete, c.core, c.far, c.id, 0, false⟩).schedule (.die die) y
    ⟨.collectiveComplete, c.core, c.far, c.id, 1, false⟩

/-- COLLECTIVE_START (R350, R357, R358): the package runs the grant from its START on, unless it is void; or its unit reads a
flit's worth of input (j = 1 + its index). -/
def execCollectiveStart (s : State) : Out :=
  let pkg := s.ev.k
  match (s.pkg pkg).coll s.ev.i with
  | none => .next s
  | some c =>
    match c.grant with
    | none => .next s
    | some g =>
      if g.void_.isSome then .next s
      else .next (if s.ev.j = 0 then s.startColl pkg c g else s.readInput pkg c (s.ev.j - 1))

/-- What the participants of a collective bring: in rank order, the bytes and the flits lost; none where one does not
run. -/
abbrev Parts := List (Option (List Byte × List (Nat × Nat)))

def State.parts (s : State) (d : CollDesc) (csn : W) : Parts :=
  (s.boxPkgs d).map fun p => ((s.pkg p).runs csn).map fun c => (c.input, c.lost)

def Parts.absent (ps : Parts) (r : Nat) : Bool := (ps.getD r none).isNone

/-- A flit that should have come to a rank over a port is lost. -/
def Parts.lostAt (ps : Parts) (r idx port : Nat) : Bool :=
  match ps.getD r none with
  | none => false
  | some x => x.2.contains (idx, port)

/-- What a place brings on its way to the origin reaches another place over a positive port: along X, then Y, then Z (R354). -/
def cameOver (port : Nat) (r q : Place) : Bool :=
  match port with
  | 0 => q.j == r.j && q.k == r.k && decide (r.i < q.i)
  | 2 => r.i == 0 && q.k == r.k && decide (r.j < q.j)
  | 4 => r.i == 0 && r.j == 0 && decide (r.k < q.k)
  | _ => false

/-- The port that the return path reaches a place over; the origin needs none (R360). -/
def returnPort (p : Place) : Option Nat :=
  if 0 < p.k then some 5 else if 0 < p.j then some 3 else if 0 < p.i then some 1 else none

/-- The return path brings flit idx to a rank damaged or not at all. -/
def CollDesc.badReturn (d : CollDesc) (ps : Parts) (idx r : Nat) : Bool :=
  (List.range d.count).any fun q =>
    onReturn (d.place q) (d.place r) &&
      (((returnPort (d.place q)).map (ps.lostAt q idx)).getD false || (q != r && ps.absent q))

/-- A flit idx that carries what rank q brings is lost on the way to the origin. -/
def CollDesc.lostInward (d : CollDesc) (ps : Parts) (idx q : Nat) : Bool :=
  (List.range d.count).any fun r => [0, 2, 4].any fun port => cameOver port (d.place r) (d.place q) && ps.lostAt r idx port

/-- Flit idx of a reduction or a broadcast is poisoned at a rank (R360). -/
def CollDesc.badFlit (d : CollDesc) (kind : CollKind) (ps : Parts) (idx r : Nat) : Bool :=
  let rs := List.range d.count
  d.badReturn ps idx r ||
  (if kind = .bc then d.lostInward ps idx d.root || rs.any fun q => onInward (d.place q) (d.place d.root) && ps.absent q
   else rs.any fun q => d.lostInward ps idx q || ps.absent q)

/-- The bytes of rank q in flit idx of a gather are poisoned at another rank. -/
def CollDesc.badGather (d : CollDesc) (ps : Parts) (idx q r : Nat) : Bool :=
  q != r && (d.badReturn ps idx r || d.lostInward ps idx q ||
    (List.range d.count).any fun p => onInward (d.place p) (d.place q) && ps.absent p)

/-- The wire word of an element summed over the participants, and the flags of their conversions. -/
def CollDesc.sumAt (d : CollDesc) (ps : Parts) (e : Nat) : Int :=
  ps.foldl (fun a p => match p with
    | none => a
    | some x => wadd a (d.toWire (elemAt (sideBits d.win d.ifmt) x.1 e)).1) 0

/-- The flags of every input conversion. -/
def CollDesc.inFlags (d : CollDesc) (ps : Parts) : Flags :=
  ps.foldl (fun f p => match p with
    | none => f
    | some x => (List.range d.n).foldl (fun f e => f.or (d.toWire (elemAt (sideBits d.win d.ifmt) x.1 e)).2) f) Flags.none

/-- What a participant's completion writes: the bytes of OUT, the flags, and the flits affected. -/
structure CollOut where
  bytes : List (Nat × Byte)
  flags : Flags
  count : Nat
deriving DecidableEq, Repr

/-- The result of a reduction at a rank. -/
def CollDesc.reduced (d : CollDesc) (kind : CollKind) (ps : Parts) (r : Nat) (old : List Byte) : CollOut :=
  let n := d.outElems kind
  let first := if kind = .rs then r * n else 0
  let bad (e : Nat) : Bool := d.badFlit kind ps ((first + e) / 32) r
  let b := sideBits d.wout d.ofmt
  let res := (List.range n).map fun e =>
    if bad e then (elemAt b old e, Flags.none) else d.fromWire (d.sumAt ps (first + e))
  let total := ceilDiv (n * b) 8
  let packed := bytesOfNat total (res.foldr (fun x a => x.1 % 2 ^ b + 2 ^ b * a) 0)
  let live (i : Nat) : Bool := (List.range (8 / Nat.min b 8 + 1)).any fun t =>
    let e := 8 * i / b + t
    decide (e < n) && decide (b * e < 8 * i + 8) && !bad e
  { bytes := (placed d.out packed).filter fun x => live (x.1 - d.out),
    flags := res.foldl (fun f x => f.or x.2) (d.inFlags ps),
    count := ((List.range (d.flits kind)).filter fun i =>
      decide (first < 32 * i + 32) && decide (32 * i < first + n) && d.badFlit kind ps i r).length }

/-- The result of a gather or a broadcast at a rank. -/
def CollDesc.moved (d : CollDesc) (kind : CollKind) (ps : Parts) (r : Nat) : CollOut :=
  let total := d.outBytes kind
  let src (i : Nat) : Nat := if kind = .ag then i / d.n else d.root
  let bad (i : Nat) : Bool := if kind = .ag then d.badGather ps (i / 256) (src i) r else d.badFlit kind ps (i / 256) r
  let byte (i : Nat) : Byte := match ps.getD (src i) none with
    | none => 0
    | some x => x.1.getD (i % d.n) 0
  { bytes := ((List.range total).filter fun i => !bad i).map fun i => (d.out + i, byte i),
    flags := Flags.none,
    count := ((List.range (d.flits kind)).filter fun f =>
      (List.range 256).any fun j => decide (256 * f + j < total) && bad (256 * f + j)).length }

def CollOutcome.code : CollOutcome → Nat
  | .done => 0 | .cancelled => 1 | .mismatch => 2 | .late => 3 | .linkdown => 4 | .busy => 5

/-- Words 9 to 13 of the descriptor (R351). -/
def FarReq.collFields (r : FarReq) (outcome flags : Nat) (g : Option Grant) : List (Nat × Byte) :=
  r.field 9 4 (outcome * 2 ^ 24 + flags) ++
  match g with
  | none => []
  | some g => r.field 10 4 g.csn.toNat ++ r.field 11 4 g.term ++ r.field 12 8 g.start

/-- A collective ends at its core: it is counted no more, and the primary hears of one that had a number (R348, R352). -/
def State.endColl (s : State) (k : Nat) (r : FarReq) (counted told : Bool) (fields : List (Nat × Byte)) :
    State :=
  let pkg := pkgOf k
  let d := CollDesc.ofWords r.words
  let s := if counted && !r.orphan then s.modCore k fun c => { c with colls := c.colls - 1 } else s
  let s := s.endFar k r fields
  if told then s.sendMsg pkg (s.leaderOf pkg) (.ended r.tag d.ctag d.box pkg) else s

/-- COLLECTIVE_COMPLETE (R353, R354, R356, R360): OUT is written (w = 0), and in the die cycle of the completion FLAGS and
OUTCOME, the grant, and STATUS (w = 1); a late participant ends POISONED with a COUNT the manual does not give. -/
def execCollectiveComplete (s : State) : Out :=
  let k := s.ev.k
  let pkg := pkgOf k
  let c := s.core k
  match c.farReq s.ev.i, (s.pkg pkg).coll s.ev.j with
  | some r, some pc =>
    match pc.grant with
    | none => .next s
    | some g =>
      if pc.late_ then
        let count := (Config.unpredictable s.fresh 262144 0).toNat % 2 ^ 24
        .next (s.tick.endColl k { r with code := 2, count := count } true true (r.collFields 3 0 (some g)))
      else if s.ev.w = 1 then .next (s.endColl k r true true (r.collFields 0 r.nfin (some g)))
      else
        let d := CollDesc.ofWords pc.words
        let ps := s.parts d g.csn
        let rank := (s.rankOf d pkg).getD 0
        let o := if pc.kind.sums then d.reduced pc.kind ps rank (c.sp.bytes d.out (d.outBytes pc.kind))
          else d.moved pc.kind ps rank
        let s := s.modFar k r.id fun r => { r with code := if o.count = 0 then 1 else 2, count := o.count, nfin := o.flags.bits }
        .next (if r.orphan then s else s.modCore k fun c => c.writeArrival o.bytes)
  | _, _ => .next s

/-- VOID_COLLECTIVE_COMPLETE (R349, R352, R358): STATUS LOST with its outcome, and no OUT byte. -/
def execVoidCollectiveComplete (s : State) : Out :=
  let k := s.ev.k
  let c := s.core k
  match c.farReq s.ev.i with
  | none => .next s
  | some r =>
    let g := ((s.pkg (pkgOf k)).colls.find? fun x => x.core = k ∧ x.far = r.id).bind fun x => x.grant
    .next (s.endColl k { r with code := 5, count := 0 } (r.outcome != 5) (s.ev.w != 5) (r.collFields s.ev.w 0 g))

/-! ### The primary's records (R348 to R350) -/

/-- The descriptor of a collective at the primary. -/
def PrimColl.desc (c : PrimColl) : CollDesc :=
  CollDesc.ofWords ([c.ctag, c.box, 0, 0] ++ ((c.reqs.head?).map (·.fields)).getD [])

def PrimColl.kind (c : PrimColl) : CollKind := ((c.reqs.head?).map (·.kind)).getD .ar

/-- T: none for a void collective. -/
def PrimColl.time (c : PrimColl) : Nat := if c.void_.isSome then 0 else c.desc.window c.kind

/-- Every participant has been represented, or answered. -/
def PrimColl.full (c : PrimColl) : Bool := decide (c.desc.count ≤ c.reqs.length)

/-- A collective that has run to its end. -/
def PrimColl.executed (c : PrimColl) (now : Nat) : Bool :=
  c.csn.isSome && c.void_.isNone && decide (c.start + c.time ≤ now)

/-- The next number follows every number that a participant has not completed (R348). -/
def Medlar.canNumber (m : Medlar) : Bool :=
  m.awaiting.isEmpty && m.colls.all fun c => match c.csn with
    | none => true
    | some n => let d := (m.nextCsn - n).toNat; decide (1 ≤ d) && decide (d < 2 ^ 31)

/-- The first START that a collective with these participants may have (R350). -/
def Medlar.startFor (m : Medlar) (s : State) (pkgs : List Nat) (now : Nat) : Nat :=
  let busy := m.colls.foldl (fun a c =>
    if c.csn.isSome && (s.boxPkgs c.desc).any fun p => pkgs.contains p then Nat.max a (c.start + c.time) else a) 0
  let told := pkgs.foldl (fun a p => Nat.max a (sget 0 m.busy p)) busy
  ceilDiv (Nat.max (now + 16384) told) 16 * 16

def State.modMedlar (s : State) (pkg : Nat) (f : Medlar → Medlar) : State :=
  s.modPkg pkg fun p => { p with medlar := f p.medlar }

def State.setPrim (s : State) (pkg i : Nat) (c : PrimColl) : State :=
  s.modMedlar pkg fun m => { m with colls := m.colls.set i c }

/-- The grant of a numbered collective. -/
def PrimColl.grant (c : PrimColl) (term : Nat) : Grant := ⟨term, c.csn.getD 0, c.start, c.void_⟩

/-- A request's answer. -/
def State.answer (s : State) (prim : Nat) (r : PrimReq) (g : Grant) : State :=
  s.sendMsg prim r.pkg (.grant r.core r.far r.id g)

/-- Collective i of the primary takes the next number and its grants are sent, if it may (R349, R350). -/
def State.numberAt (s : State) (prim i : Nat) : State :=
  let m := (s.pkg prim).medlar
  match m.colls[i]? with
  | none => s
  | some c =>
    if c.csn.isSome || !(c.void_.isSome || c.full) || !m.canNumber then s
    else
      let c := { c with csn := some m.nextCsn, start := m.startFor s (s.boxPkgs c.desc) s.fab, granted := c.reqs.map (·.pkg) }
      let s := s.modMedlar prim fun m => { m with colls := m.colls.set i c, nextCsn := m.nextCsn + 1 }
      c.reqs.foldl (fun s r => s.answer prim r (c.grant m.term)) s

/-- Every collective that may be numbered is, in the order they became known. -/
def State.numberAll (s : State) (prim : Nat) : State :=
  (List.range (s.pkg prim).medlar.colls.length).foldl (fun s i => s.numberAt prim i) s

/-- No participant can still ask for the record. -/
def PrimColl.over (c : PrimColl) (pkgs : List Nat) : Bool :=
  c.csn.isSome && pkgs.all fun p => if c.void_.isSome then c.granted.contains p && (c.ended.contains p || c.byCancel)
    else c.ended.contains p

/-- Records that no participant can still ask for are dropped; their packages stay busy until START + T (R350). -/
def State.dropEnded (s : State) (prim : Nat) : State :=
  let past (c : PrimColl) : Bool := c.over (s.boxPkgs c.desc)
  s.modMedlar prim fun m =>
    { m with colls := m.colls.filter fun c => !past c,
             busy := (m.colls.filter past).foldl (fun b c =>
               (s.boxPkgs c.desc).foldl (fun b p => smod 0 b p fun t => Nat.max t (c.start + c.time)) b) m.busy }

/-- The box of a collective contains a link that is down (R349). -/
def Medlar.boxDown (m : Medlar) (s : State) (d : CollDesc) : Bool :=
  let ps := s.boxPkgs d
  m.down.any fun x => ps.contains x.1 && ps.contains (s.portTo x.1 x.2)

/-- The collective with an identity that is not yet executed, as a package may still join it. -/
def Medlar.find (m : Medlar) (tag ctag box : W) (pkg : Option Nat) (now : Nat) : Option Nat :=
  (List.range m.colls.length).find? fun i =>
    match m.colls[i]? with
    | none => false
    | some c =>
      c.tag == tag && c.ctag == ctag && c.box == box && !c.executed now &&
      (match pkg with
       | none => true
       | some p => !c.ended.contains p)

/-- The carried fields agree (R349). -/
def PrimReq.agrees (a b : PrimReq) : Bool := a.kind == b.kind && a.word1 == b.word1 && a.fields == b.fields

/-- The primary holds as many requests without a CSN as it can (R349). -/
def Medlar.crowded (m : Medlar) : Bool :=
  decide (2 ^ 20 ≤ ((m.colls.filter fun c => c.csn.isNone).map fun c => c.reqs.length).sum)

/-- The primary holds a request already: a report of a failover returned one that has reached it (R361). -/
def Medlar.holds (m : Medlar) (r : PrimReq) : Bool := m.colls.any fun c => c.reqs.any fun q => q.pkg == r.pkg && q.id == r.id

/-- Collective i of the primary is void from now on, and its void grants are sent (R349, R358). -/
def State.voidColl (s : State) (prim i : Nat) (c : PrimColl) (o : CollOutcome) : State :=
  let c := { c with void_ := some o }
  c.reqs.foldl (fun s r => s.answer prim r (c.grant (s.pkg prim).medlar.term)) (s.setPrim prim i c)

/-- The primary takes a request (R349, R358); a second one from a package represented in a numbered collective voids that one
while it can still be stopped (log 27). -/
def State.takeRequest (s : State) (prim : Nat) (tag ctag : W) (r : PrimReq) : State :=
  let m := (s.pkg prim).medlar
  if m.holds r then s
  else
  match m.find tag ctag r.word1 (some r.pkg) s.fab with
  | none =>
    if m.crowded then s.answer prim r ⟨m.term, 0, s.fab, some .busy⟩
    else
      let c : PrimColl :=
        { tag := tag, ctag := ctag, box := r.word1, reqs := [r], csn := none, start := 0, void_ := none, byCancel := false,
          granted := [], ended := [] }
      let c := if m.boxDown s c.desc then { c with void_ := some .linkdown } else c
      (s.modMedlar prim fun m => { m with colls := m.colls ++ [c] }).numberAt prim m.colls.length
  | some i =>
    match m.colls[i]? with
    | none => s
    | some c =>
      if c.csn.isSome && c.void_.isSome then
        let start := Nat.max c.start (ceilDiv (s.fab + 16384) 16 * 16)
        let s := s.setPrim prim i { c with reqs := c.reqs ++ [r], granted := c.granted ++ [r.pkg] }
        (s.answer prim r { c.grant m.term with start := start }).dropEnded prim
      else if c.csn.isSome then
        if s.fab + 16384 ≤ c.start then
          s.voidColl prim i { c with reqs := c.reqs ++ [r], granted := c.granted ++ [r.pkg] } .mismatch
        else s.answer prim r ⟨m.term, c.csn.getD 0, s.fab, some .mismatch⟩
      else if m.crowded then s.answer prim r ⟨m.term, 0, s.fab, some .busy⟩
      else
        let again := c.reqs.any fun q => q.pkg == r.pkg
        let differs := c.reqs.any fun q => !q.agrees r
        let c := { c with reqs := c.reqs ++ [r] }
        let c := if again || differs then { c with void_ := some .mismatch }
          else if m.boxDown s c.desc then { c with void_ := some .linkdown } else c
        (s.setPrim prim i c).numberAt prim i

/-- A link of the box of a collective has gone down: one without a number is void, and one with a number that can still be
stopped (R340, R349; log 27); any other runs, and lacks the flits of the link. -/
def State.voidByLink (s : State) (prim : Nat) : State :=
  (List.range (s.pkg prim).medlar.colls.length).foldl (fun s i =>
    let m := (s.pkg prim).medlar
    match m.colls[i]? with
    | none => s
    | some c =>
      if c.void_.isSome || !m.boxDown s c.desc then s
      else if c.csn.isNone then s.setPrim prim i { c with void_ := some .linkdown }
      else if s.fab + 16384 ≤ c.start then s.voidColl prim i c .linkdown
      else s) s

/-- COLL_REQUEST_AT_PRIMARY (R349): a request leaves its core's package, or arrives at the primary; or a participant's
completion, or the state of a link, is reported there. -/
def execCollRequestAtPrimary (s : State) : Out :=
  let k := s.ev.k
  if s.ev.b then
    match (s.core k).farReq s.ev.i with
    | none => .next s
    | some r =>
      if r.outcome = 5 then
        .next (s.scheduleCore k ((s.die (dieOf k)).clkFrom (s.fab + 1)) ⟨.voidCollectiveComplete, k, r.id, 0, 5, false⟩)
      else
        let pkg := pkgOf k
        let id := (s.pkg pkg).collId
        let d := CollDesc.ofWords r.words
        let kind := CollKind.ofSub r.opnd.toNat
        let pc : PkgColl :=
          { id := id, core := k, far := r.id, tag := r.tag, ctag := d.ctag, kind := kind, words := r.words, issued := s.fab,
            grant := none, late_ := false, running := false, input := [], lost := [] }
        let s := s.modPkg pkg fun p => { p with colls := p.colls ++ [pc], collId := id + 1 }
        .next (s.sendMsg pkg (s.leaderOf pkg) (.request r.tag d.ctag
          { pkg := pkg, core := k, far := r.id, id := id, kind := kind, word1 := d.box, fields := (r.words.drop 4).take 4 }))
  else
    match s.msg s.ev.i with
    | none => .next s
    | some m =>
      if !(s.pkg k).medlar.primary then .next s
      else
        match m.body with
        | .request tag ctag r => .next (s.takeRequest k tag ctag r)
        | .ended tag ctag box pkg =>
          let s := s.modMedlar k fun m => { m with colls := m.colls.map fun c =>
            if c.tag = tag ∧ c.ctag = ctag ∧ c.box = box ∧ c.csn.isSome then { c with ended := c.ended ++ [pkg] } else c }
          .next ((s.dropEnded k).numberAll k)
        | .link pkg port up =>
          let s := s.modMedlar k fun m =>
            { m with down := if up then m.down.filter (· != (pkg, port)) else if m.down.contains (pkg, port) then m.down else m.down ++ [(pkg, port)] }
          .next (if up then s else (s.voidByLink k).numberAll k)
        | _ => .next s

/-! ### Grants at the participants (R350) -/

/-- The next look of the standby for missing heartbeats. -/
def State.watch (s : State) (pkg : Nat) : State :=
  let e := evK .failover pkg
  (s.unschedule (· == e)).scheduleFab (s.fab + 64000) e

/-- A package sees a term of a primary: under a higher one no heartbeat has arrived yet, and a former primary becomes standby
(R359, R361). -/
def Medlar.see (u : Medlar) (term leader : Nat) : Medlar :=
  if u.term < term then
    { u with term := term, lastBeat := none, primary := false, standby := u.standby || u.primary, leader := leader }
  else if u.term = term then { u with leader := leader }
  else u

def State.seeTerm (s : State) (pkg term leader : Nat) : State :=
  let was := (s.pkg pkg).medlar.primary
  let s := s.modMedlar pkg fun u => u.see term leader
  if was && (s.pkg pkg).medlar.standby then s.watch pkg else s

/-- GRANT_RECEIVED (R350, R358): a void grant ends what an earlier grant has scheduled, unless the collective runs. -/
def execGrantReceived (s : State) : Out :=
  let pkg := s.ev.k
  match s.msg s.ev.i with
  | none => .next s
  | some m =>
    match m.body with
    | .grant core far coll g =>
      let u := (s.pkg pkg).medlar
      if g.term < u.term then .next s
      else
        let newer := match u.maxCsn with
          | none => true
          | some c => decide (1 ≤ (g.csn - c).toNat) && decide ((g.csn - c).toNat < 2 ^ 31)
        let s := (s.seeTerm pkg g.term m.src).modMedlar pkg fun u =>
          { u with maxCsn := if newer && g.void_ != some .busy then some g.csn else u.maxCsn }
        if (((s.pkg pkg).coll coll).map (·.running)).getD false then .next s
        else
        let s := s.unschedule (· == evI .collectiveStart pkg coll)
        let s := s.modColl pkg coll fun c => { c with grant := some g, late_ := g.void_.isNone && decide (g.start < s.fab) }
        let die := dieOf core
        let at_ (f : Nat) : Nat := (s.die die).clkFrom f
        match g.void_ with
        | some o =>
          .next (s.schedule (.die die) (at_ (Nat.max g.start s.fab + 1)) ⟨.voidCollectiveComplete, core, far, coll, o.code, false⟩)
        | none =>
          if g.start < s.fab then .next (s.schedule (.die die) (at_ (s.fab + 1)) ⟨.collectiveComplete, core, far, coll, 1, false⟩)
          else .next (s.scheduleFab g.start (evI .collectiveStart pkg coll))
    | _ => .next s

/-! ### Cancelling (R358) -/

/-- The result of a cancel at the primary: 0 VOIDED, 1 TOO_LATE, 2 ALREADY. -/
def State.cancelColl (s : State) (prim : Nat) (tag ctag box : W) : State × Nat :=
  let m := (s.pkg prim).medlar
  match (m.find tag ctag box none s.fab).bind fun i => (m.colls[i]?).map fun c => (i, c) with
  | some (i, c) =>
    if c.void_.isSome then (s, 2)
    else if c.csn.isNone then
      ((s.setPrim prim i { c with void_ := some .cancelled, byCancel := true }).numberAt prim i, 0)
    else if s.fab + 16384 ≤ c.start then
      (s.voidColl prim i c .cancelled, 0)
    else (s, 1)
  | none =>
    let c : PrimColl :=
      { tag := tag, ctag := ctag, box := box, reqs := [], csn := none, start := 0, void_ := some .cancelled, byCancel := true,
        granted := [], ended := [] }
    ((s.modMedlar prim fun m => { m with colls := m.colls ++ [c] }).numberAt prim m.colls.length, 0)

/-- CANCEL_AT_PRIMARY (R358): a cancel leaves its core's package (w = 1), acts at the primary, and comes back (w = 2), where
RESULT and then STATUS are written (w = 3). -/
def execCancelAtPrimary (s : State) : Out :=
  let k := s.ev.k
  if s.ev.b && s.ev.w == 1 then
    match (s.core k).farReq s.ev.i with
    | none => .next s
    | some r => .next (s.sendMsg (pkgOf k) (s.leaderOf (pkgOf k)) (.cancel k r.id r.tag (r.words.getD 0 0) (r.words.getD 1 0)))
  else if s.ev.b && s.ev.w == 3 then
    let c := s.core k
    match c.farReq s.ev.i with
    | none => .next s
    | some r =>
      .next (s.endFar k { r with code := 1, count := 0 } (r.field 3 4 (s.ev.j * 2 ^ 24)))
  else
    match s.msg s.ev.i with
    | none => .next s
    | some m =>
      match m.body with
      | .cancel core far tag ctag box =>
        if !(s.pkg k).medlar.primary then .next s
        else
          let x := s.cancelColl k tag ctag box
          .next (x.1.sendMsg k m.src (.cancelled core far x.2))
      | .cancelled core far result =>
        .next (s.scheduleCore core ((s.die (dieOf core)).clkFrom (s.fab + 1)) ⟨.cancelAtPrimary, core, far, result, 3, true⟩)
      | _ => .next s

/-! ### Heartbeats and failover (R361) -/

/-- The packages of the pod. -/
def State.podPkgs (s : State) : List Nat :=
  ((List.range s.dz).map fun z => ((List.range s.dy).map fun y => (List.range s.dx).map fun x => mkPkg x y z).flatten).flatten

/-- HEARTBEAT (R361): the primary sends one every 10 µs from the end of its boot on; where one arrives, a former primary of a
lower term becomes standby. -/
def execHeartbeat (s : State) : Out :=
  let k := s.ev.k
  let u := (s.pkg k).medlar
  if s.ev.b then
    if s.ev.w < u.term then .next s
    else
      let s := (s.seeTerm k s.ev.w s.ev.i).modMedlar k fun u => { u with lastBeat := some s.fab }
      .next (if (s.pkg k).medlar.standby then s.watch k else s)
  else if !u.primary then .next s
  else if !(s.pkg k).ready then .next (s.scheduleFab (s.fab + 1) (evK .heartbeat k))
  else
    let s := s.podPkgs.foldl (fun s p => s.sendMsg k p (.beat u.term)) s
    .next (s.scheduleFab (s.fab + 16000) (evK .heartbeat k))

/-- FAILOVER (R361): after four heartbeats that did not arrive, the standby is primary under the next term. -/
def execFailover (s : State) : Out :=
  let k := s.ev.k
  let u := (s.pkg k).medlar
  let silent := match u.lastBeat with
    | none => true
    | some f => decide (f + 64000 ≤ s.fab)
  if !u.standby || u.primary || !silent then .next s
  else
    let up := s.podPkgs.filter fun p => s.reaches k p
    let s := s.modMedlar k fun u =>
      { u with term := u.term + 1, primary := true, standby := false, lastBeat := none, colls := [], awaiting := up,
               resumeBy := some (s.fab + 1600000), down := [], busy := [], leader := k }
    let s := s.podPkgs.foldl (fun s p => s.sendMsg k p (.collect (u.term + 1))) s
    .next ((s.scheduleFab s.fab (evK .heartbeat k)).scheduleFab (s.fab + 1600000) (evB .numberingResume k 0 false))

/-- A collective of a package that a term returns: it has no grant, or one of an older term whose START lies later. -/
def PkgColl.returned (c : PkgColl) (now term : Nat) : Bool :=
  match c.grant with
  | none => true
  | some g => decide (now < g.start) && decide (g.term < term)

/-- The end of a window that a package has begun. -/
def PkgColl.until_ (c : PkgColl) (now : Nat) : Nat :=
  match c.grant with
  | none => 0
  | some g =>
    if g.void_.isNone && decide (g.start ≤ now) then g.start + (CollDesc.ofWords c.words).window c.kind else 0

/-- COLLECT_REQUEST (R361): a package takes the higher term, discards its grants that have not started, and reports its
requests and the highest number it has seen, with the end of its last collective and its links that are down. -/
def execCollectRequest (s : State) : Out :=
  let k := s.ev.k
  let p := s.pkg k
  if s.ev.w < p.medlar.term then .next s
  else
    let live (c : PkgColl) : Bool := ((s.core c.core).farReq c.far).isSome && c.returned s.fab s.ev.w
    let back := p.colls.filter live
    let reqs := back.map fun (c : PkgColl) =>
      let d := CollDesc.ofWords c.words
      (c.tag, c.ctag, ({ pkg := k, core := c.core, far := c.far, id := c.id, kind := c.kind, word1 := d.box,
                         fields := (c.words.drop 4).take 4 } : PrimReq))
    let s := s.unschedule fun e => (e.event == .collectiveStart && e.k == k && back.any fun c => c.id == e.i) ||
      (e.event == .voidCollectiveComplete && back.any fun c => c.core == e.k && c.far == e.i)
    let s := (s.seeTerm k s.ev.w s.ev.i).modPkg k fun p =>
      { p with colls := p.colls.map fun c => if live c then { c with grant := none } else c }
    let busy := p.colls.foldl (fun a c => Nat.max a (c.until_ s.fab)) 0
    let downs := (List.range 6).filter fun i => decide (1 < s.extentOf i) && s.nullPort k i
    .next (s.sendMsg k s.ev.i (.report k s.ev.w p.medlar.maxCsn busy downs reqs))

/-- The serially greater of two numbers. -/
def laterCsn (a b : Option W) : Option W :=
  match a, b with
  | none, b => b
  | a, none => a
  | some x, some y => if 1 ≤ (y - x).toNat ∧ (y - x).toNat < 2 ^ 31 then some y else some x

/-- NUMBERING_RESUME (R361): a report arrives; with the last of them and its requests, or after 1 ms, numbering goes on after
the greatest number reported; a report that comes later still returns its requests, and no number that it names is given again. -/
def execNumberingResume (s : State) : Out :=
  let k := s.ev.k
  let resume (s : State) : State :=
    let s := s.modMedlar k fun u =>
      { u with awaiting := [], resumeBy := none, nextCsn := match u.maxCsn with
          | none => 0
          | some c => c + 1 }
    s.numberAll k
  if !s.ev.b then
    .next (if (s.pkg k).medlar.resumeBy.isSome then resume s else s)
  else
    match s.msg s.ev.i with
    | none => .next s
    | some m =>
      match m.body with
      | .report pkg term csn busy downs reqs =>
        if (s.pkg k).medlar.term ≠ term ∨ (s.pkg k).medlar.primary = false then .next s
        else
          let late_ := (s.pkg k).medlar.resumeBy.isNone
          let s := s.modMedlar k fun u =>
            { u with maxCsn := laterCsn u.maxCsn csn,
                     nextCsn := if late_ then (laterCsn (some u.nextCsn) (csn.map (· + 1))).getD u.nextCsn else u.nextCsn,
                     busy := smod 0 u.busy pkg fun t => Nat.max t busy,
                     down := (u.down.filter fun x => x.1 != pkg) ++ downs.map fun i => (pkg, i) }
          let s := (reqs.foldl (fun s x => s.takeRequest k x.1 x.2.1 x.2.2) s).modMedlar k fun u =>
            { u with awaiting := u.awaiting.filter (· != pkg) }
          .next (if late_ then s.numberAll k else if (s.pkg k).medlar.awaiting.isEmpty then resume s else s)
      | _ => .next s

end Sys2Proof.Machine
end

