-- ==== Sys2Proof/Machine/Die.lean ====
section
/-! DEFINITION. The die controller: arrival and boundary completion, stragglers, the queues and placement, segment moves
and the whole-device checkpoint (12_die_supersteps.md R243 to R263; 16_package_memory.md R318 to R321). -/

namespace Sys2Proof.Machine

/-! ### Arrival (R247) -/

/-- A core has arrived or halted, and nothing of it is under way. -/
def State.coreArrived (s : State) (k : Nat) : Bool :=
  let c := s.core k
  (match c.run with
   | .phase _ arrived => arrived
   | .halt done => done
   | _ => false) &&
  c.pend.isEmpty && !c.matrixBusy && c.seq.queue.isEmpty && c.farHeld == 0 && c.out.isEmpty && c.bankOps == 0 &&
  s.fabricSent k

/-- A resident task has arrived. -/
def State.taskArrived (s : State) (die : Nat) (t : Task) : Bool := t.started && (s.taskCores die t).all s.coreArrived

/-- Every core of a task has halted. -/
def State.taskHalted (s : State) (die : Nat) (t : Task) : Bool :=
  (s.taskCores die t).all fun k => (s.core k).run == .halt true

def Die.residents (d : Die) : List Task := d.tasks.filter Task.isResident

/-- A task's stop is complete. -/
def Task.stopDone (t : Task) (y : Nat) : Bool :=
  match t.stopped with
  | none => false
  | some e => decide (e ≤ y)

/-- The boundary completes in this cycle: every resident task has arrived or has been stopped. -/
def State.boundaryDue (s : State) (die : Nat) : Bool :=
  let d := s.die die
  !d.residents.isEmpty && !d.holding && d.residents.all fun t => t.stopDone d.clk || s.taskArrived die t

/-! ### Budgets and deadlines (R249) -/

/-- D(b). -/
def deadline (margin : BitVec 8) (b : Nat) : Nat := b * (16 + margin.toNat) / 16 + 512

/-- The budget declared for the next superstep: the largest of the cores' (R246). -/
def State.declared (s : State) (die : Nat) (t : Task) : Nat :=
  (s.taskCores die t).foldl (fun a k => match (s.core k).run with
    | .phase b _ => Nat.max a b
    | _ => a) 0

/-! ### The host's memory -/

def State.hostNat (s : State) (pkg a n : Nat) : Nat := (s.pkg pkg).host.nat a n

def State.hostWrite (s : State) (pkg a : Nat) (bs : List Byte) : State :=
  s.modPkg pkg fun p => { p with host := p.host.setBytes a bs }

/-- The words of a list as bytes. -/
def wordBytes (ws : List W) : List Byte := (ws.map fun w => bytesOfNat 4 w.toNat).flatten

/-- A task's completion record (R331): 1 retired, 2 refused, 3 discarded. -/
def State.completionRecord (s : State) (die : Nat) (t : TaskDesc) (status : W) : State :=
  let ph := (s.die die).phase
  s.hostWrite (die / 2) t.compl (wordBytes [t.tag, status, ph.extractLsb' 0 32, (ph.extractLsb' 32 16).zeroExtend 32])

/-! ### Segments and their places (R318) -/

/-- The units of 2 MiB of a segment. -/
def entUnits (e : DW) : Nat := entBytes e / 2097152

/-- The units of a stack: 64 GB (R299). -/
def stackUnits : Nat := 30517

/-- The tasks of a package. -/
def State.tasksOf (s : State) (pkg : Nat) : List Task := (s.die (pkg * 2)).tasks ++ (s.die (pkg * 2 + 1)).tasks

/-- The tasks of a package with those that have left it, whose segments stay where they are until they move (R318). -/
def State.mappersOf (s : State) (pkg : Nat) : List Task :=
  s.tasksOf pkg ++ (s.die (pkg * 2)).gone ++ (s.die (pkg * 2 + 1)).gone

/-- An entry names a segment, or its second copy, on a stack of a package. -/
def liesOn (pkg stack : Nat) (e : DW) : Bool :=
  entV e && !entTier e && entPkg e == pkg && (entStack e == stack || (entDup e && entStack e % 4 == stack % 4))

/-- The entries of every task of a package, of those that have left too, that lie on a stack. -/
def State.onStack (s : State) (pkg stack : Nat) : List DW :=
  ((s.mappersOf pkg).map fun t => t.table.map (·.2)).flatten.filter (liesOn pkg stack)

/-- Where moves in progress, and entries not yet rewritten, put segments on a stack. -/
def State.moving (s : State) (pkg stack : Nat) : List DW :=
  ((s.pkg pkg).moves.map (·.new) ++ ((s.die (pkg * 2)).rewrites ++ (s.die (pkg * 2 + 1)).rewrites).map (·.2)).filter
    (liesOn pkg stack)

/-- What is used of a stack: base and units. -/
def State.usedOn (s : State) (pkg stack : Nat) : List (Nat × Nat) :=
  ((s.onStack pkg stack ++ s.moving pkg stack).map fun e => (entBase e, entUnits e)).eraseDups

/-- The units a stack has free: outside segments and Bramble pools. -/
def State.stackFree (s : State) (pkg stack : Nat) : Nat :=
  stackUnits - ((s.usedOn pkg stack).map (·.2)).sum - ceilDiv (sget 0 (s.pkg pkg).bramble.pool stack) 32

/-- The lowest base on a stack, and with a second copy on the stack four above too, at which n units are free, looked for
at the ends of what is used. -/
def State.freeBase (s : State) (pkg stack n : Nat) (dup : Bool) : Option Nat :=
  let used := s.usedOn pkg stack ++ (if dup then s.usedOn pkg ((stack + 4) % 8) else [])
  let ok (b : Nat) : Bool := decide (b + n ≤ stackUnits) && used.all fun u => decide (b + n ≤ u.1) || decide (u.1 + u.2 ≤ b)
  ((0 :: used.map fun u => u.1 + u.2).filter ok).foldl (fun a b => match a with
    | none => some b
    | some x => some (Nat.min x b)) none

/-- The stack with the most free units on a die, the lowest on a tie. -/
def State.widestStack (s : State) (die : Nat) : Nat :=
  let first := die % 2 * 4
  (List.range 4).foldl (fun a i => if s.stackFree (die / 2) a < s.stackFree (die / 2) (first + i) then first + i else a) first

/-- The entry of a segment in HBM that has its second copy, DIRTY as it is (R288). -/
def entToDup (e : DW) : DW := e ||| 1#64 <<< 62

/-- Two entries name one segment, whatever their DIRTY and DUP bits. -/
def sameSeg (a b : DW) : Bool := entToDup (entMark a) == entToDup (entMark b)

/-- A task maps a segment. -/
def Task.maps (t : Task) (e : DW) : Bool := t.table.any fun x => sameSeg x.2 e

/-- The entries that placement has changed, in a table (R267). -/
def rewriteTable (l : List (DW × DW)) (table : SMap DW) : SMap DW :=
  table.map fun x => (x.1, l.foldl (fun e r => if sameSeg e r.1 then r.2 else e) x.2)

/-- The entries that placement has changed, in a task's table. -/
def Task.rewrite (l : List (DW × DW)) (t : Task) : Task := { t with table := rewriteTable l t.table }

/-- Placement rewrites the tables of a die, those of departed tasks among them (R267). -/
def Die.rewriteTables (d : Die) : Die :=
  { d with tasks := d.tasks.map (Task.rewrite d.rewrites), gone := d.gone.map (Task.rewrite d.rewrites), rewrites := [] }

/-- A segment changes its place: a die that runs supersteps rewrites its tables at its next boundary, another at once
(R267, R318). -/
def State.replaceSeg (s : State) (pkg : Nat) (old new : DW) : State :=
  (List.range 2).foldl (fun s h => s.modDie (pkg * 2 + h) fun d =>
    let d := { d with rewrites := d.rewrites ++ [(old, new)] }
    if d.residents.isEmpty then d.rewriteTables else d) s

/-- A move of a segment may start: no resident task maps it, or this is a boundary and every such task computes next
(R318). -/
def State.mayMove (s : State) (pkg : Nat) (e : DW) (atBoundary : Bool) : Bool :=
  ((s.tasksOf pkg).filter fun t => t.isResident && t.maps e).all fun t => atBoundary && !t.exchange

/-- The HBM entry that an entry in the tier becomes. -/
def entToHbm (e : DW) (dup : Bool) (pkg stack base : Nat) : DW :=
  mkEntry dup false (entPR e) (entPW e) (entPA e) (e.extractLsb' 54 4).toNat (entKey e) false pkg stack base

/-- The tier entry that an HBM entry becomes at its home; DIRTY stays, for a restore that finds bytes later than its
checkpoint's there (R318, R321). -/
def entToTier (e : DW) (pkg home : Nat) : DW :=
  mkEntry false (e.getLsbD 61) (entPR e) (entPW e) (entPA e) (e.extractLsb' 54 4).toNat (entKey e) true pkg 0 home

/-- The part of a map from a key on, moved to another key; what stood there is gone. -/
def smove {α : Type} [DecidableEq α] (d : α) (dst src : SMap α) (a b n : Nat) : SMap α :=
  ssetAll d (sclear dst b (b + n)) ((srange src a (a + n)).map fun x => (b + (x.1 - a), x.2))

/-- A segment's bytes, marks and tags copied from the place that one entry names to one that another names, seen from a die
of its package (R318). -/
def State.copySegment (s : State) (old new : DW) (die : Nat) : State :=
  let q := s.pkg (entPkg old)
  let src : Memory × SMap Bool × SMap DW := if entTier old then (q.tier, q.tierPoison, q.tierTags) else (q.hbm, q.hbmPoison, q.tags)
  let a := if entTier old then tierKey old 0 else hbmKey old 0 0
  let n := entBytes old
  s.modPkg (entPkg new) fun p =>
    if entTier new then
      let b := tierKey new 0
      { p with tier := smove 0 p.tier src.1 a b n, tierPoison := smove false p.tierPoison src.2.1 (a / 64) (b / 64) (n / 64),
               tierTags := smove 0 p.tierTags src.2.2 (a / 64) (b / 64) (n / 64) }
    else
      let b := hbmKey new die 0
      { p with hbm := smove 0 p.hbm src.1 a b n, hbmPoison := smove false p.hbmPoison src.2.1 (a / 64) (b / 64) (n / 64),
               tags := smove 0 p.tags src.2.2 (a / 64) (b / 64) (n / 64) }

/-- The home of a segment of a task: its package and its base in the tier. -/
def Task.homeOf (t : Task) (e : DW) : Option (Nat × Nat) :=
  (t.table.find? fun x => sameSeg x.2 e).bind fun x => (t.desc.segs.find? fun g => g.index == x.1).map fun g => (g.pkg, g.home)

/-- A segment is dirty: a table of the package says so, one of a departed task too (R269, R318). -/
def State.segDirty (s : State) (pkg : Nat) (e : DW) : Bool :=
  (s.mappersOf pkg).any fun t => t.table.any fun x => sameSeg x.2 e && x.2.getLsbD 61

/-- A segment on a stack that is cold for every task that maps it, as one that only departed tasks map is, and may leave now, with
the entry of its home (R318). -/
def State.coldOn (s : State) (pkg stack : Nat) (atBoundary : Bool) : Option (DW × DW) :=
  let tcold := (s.pkg pkg).tcold.toNat
  let away := (s.dies.filter fun x => x.1 / 2 ≠ pkg).any fun x => x.2.tasks.any fun t => t.table.any fun y => liesOn pkg stack y.2
  if tcold = 0 ∨ away then none
  else
    (s.onStack pkg stack).findSome? fun e =>
      let users := (s.tasksOf pkg).filter fun t => t.maps e
      let cold := users.all fun t => t.table.all fun x =>
        !sameSeg x.2 e || (let n := sget 0 t.idle x.1; decide (tcold ≤ n) && decide (n < 2 ^ 32))
      if cold && s.mayMove pkg e atBoundary then
        ((s.mappersOf pkg).findSome? fun t => t.homeOf e).map fun h =>
          let e := if s.segDirty pkg e then entMark e else e
          (e, entToTier e h.1 h.2)
      else none

/-- A move begins; one that copies nothing is over in the next cycle. -/
def State.beginMove (s : State) (die : Nat) (old new : DW) (copies : Bool) : State :=
  let id := s.fresh
  let s := s.modPkg (die / 2) fun p => { p with moves := p.moves ++ [⟨id, old, new⟩] }
  let t := (s.die die).clk + 1 + (if copies then Config.tierMoveTime s.fresh else 0)
  s.tick.schedule (.die die) t (evI .segmentMoveComplete die id)

/-- A move of a segment is under way, or its entry waits to be rewritten. -/
def State.onTheMove (s : State) (pkg : Nat) (e : DW) : Bool :=
  ((s.pkg pkg).moves.any fun m => sameSeg m.old e) ||
  ((s.die (pkg * 2)).rewrites ++ (s.die (pkg * 2 + 1)).rewrites).any fun r => sameSeg r.1 e

/-- A move in begins if its stack has the space; otherwise a cold segment starts to leave the stack, unless one does
already: it is copied home only if it is dirty (R318). -/
def State.startMove (s : State) (die : Nat) (dup : Bool) (e : DW) (atBoundary : Bool) : State :=
  let pkg := die / 2
  let stack := s.widestStack die
  match s.freeBase pkg stack (entUnits e) dup with
  | some b => s.beginMove die e (entToHbm e dup pkg stack b) true
  | none =>
    if (s.onStack pkg stack).any fun x => s.onTheMove pkg x then s
    else
      match s.coldOn pkg stack atBoundary with
      | none => s
      | some (o, n) => s.beginMove die o n (o.getLsbD 61)

/-- The input segments of a task that lie in a tier, with no move under way, and whether each may be duplicated. -/
def State.inputsAway (s : State) (die : Nat) (t : Task) : List (Bool × DW) :=
  (t.desc.segs.filter (·.input)).filterMap fun g =>
    let e := sget 0 t.table g.index
    if entV e && entTier e && !s.onTheMove (die / 2) e then some (g.dupOk, e) else none

/-- The segments in this package's HBM that a task may have duplicated and that have no second copy (R288, R318). -/
def State.undoubled (s : State) (die : Nat) (t : Task) : List DW :=
  (t.desc.segs.filter (·.dupOk)).filterMap fun g =>
    let e := sget 0 t.table g.index
    if entV e && !entTier e && !entDup e && entPkg e == die / 2 && !s.onTheMove (die / 2) e then some e else none

/-- The second copy of a segment has space: its base is free on the stack four above (R288, R318; log 34). -/
def State.roomForCopy (s : State) (pkg : Nat) (e : DW) : Bool :=
  let b := entBase e
  let n := entUnits e
  let other := (entStack e + 4) % 8
  decide (b + n ≤ stackUnits) &&
  (s.onStack pkg other ++ s.moving pkg other).all fun x =>
    sameSeg x e || decide (b + n ≤ entBase x) || decide (entBase x + entUnits x ≤ b)

/-- Moves in for the queued tasks begin, and second copies for every task not held (R318). -/
def State.startMoves (s : State) (die : Nat) (atBoundary : Bool) : State :=
  let pkg := die / 2
  ((s.die die).tasks.filter fun t => !t.held).foldl (fun s t =>
    let s := if t.isResident then s else (s.inputsAway die t).foldl (fun s x =>
      if s.mayMove pkg x.2 atBoundary then s.startMove die x.1 x.2 atBoundary else s) s
    (s.undoubled die t).foldl (fun s e =>
      if s.mayMove pkg e atBoundary && s.roomForCopy pkg e && !s.onTheMove pkg e then
        let e := if s.segDirty pkg e then entMark e else e
        s.beginMove die e (entToDup e) true
      else s) s) s

/-- SEGMENT_MOVE_COMPLETE (R288, R318): the segment has been copied, to both dies where it is duplicated, or home if it was
dirty; its entries say so from the next boundary on, and DIRTY is cleared. -/
def execSegmentMoveComplete (s : State) : Out :=
  let pkg := s.ev.k / 2
  match (s.pkg pkg).moves.find? fun m => m.id = s.ev.i with
  | none => .next s
  | some m =>
    let s := s.modPkg pkg fun p => { p with moves := p.moves.filter fun x => x.id ≠ m.id }
    let s := if entTier m.old || entDup m.new || m.old.getLsbD 61 then s.copySegment m.old m.new 0 else s
    let s := if entDup m.new then s.copySegment m.old m.new 1 else s
    .next (s.replaceSeg pkg m.old m.new)

/-! ### Readiness and placement (R258, R262) -/

/-- The slice of a queue. -/
def Die.slice (d : Die) (q : Nat) : Nat := (sget 0 d.qslice q).toNat

/-- A queued task is ready. -/
def State.taskReady (s : State) (die : Nat) (t : Task) : Bool :=
  let d := s.die die
  let done (tag : W) : Bool := tag == 0 || (List.range 2).any fun h => (s.die (die / 2 * 2 + h)).retiredTags.contains tag
  !t.isResident && !t.held && decide (d.slice t.queue ≠ 0) && t.desc.preds.all done && !(s.pkg (die / 2)).recov &&
  (t.desc.segs.filter (·.input)).all fun g => !entTier (sget 0 t.table g.index)

/-- The columns that resident tasks hold, without some of them. -/
def Die.taken (d : Die) (without : List W) : List Nat :=
  (d.residents.map fun t => if without.contains t.desc.tag then [] else t.sites).flatten

/-- place(H): the lowest y0, then the lowest x0, whose rectangle is free (R262). -/
def Die.placeFor (d : Die) (t : TaskDesc) (without : List W) : Option (Nat × Nat) :=
  let busy := d.taken without
  let fits (o : Nat × Nat) : Bool :=
    decide (o.1 + t.nx ≤ d.width) && decide (o.2 + t.ny ≤ 8) &&
    (d.gangSites t o.1 o.2).all fun c => !busy.contains c
  (((List.range 8).map fun y0 => (List.range 8).map fun x0 => (x0, y0)).flatten).find? fits

/-- Insertion by a key, earlier elements first among equals. -/
def insertBy (key : Task → Nat) (t : Task) : List Task → List Task
  | [] => [t]
  | u :: r => if key t < key u then t :: u :: r else u :: insertBy key t r

def sortTasks (key : Task → Nat) (l : List Task) : List Task := l.foldl (fun a t => insertBy key t a) []

/-! ### Boundary completion (R248, R250, R259, R260) -/

/-- A task's start: no earlier than a cycle. -/
def State.startAt (s : State) (die : Nat) (tag : W) (y : Nat) : State :=
  s.schedule (.die die) (y - 1) (evI .superstepStart die tag.toNat)

/-- A resident task leaves its columns and goes back to its queue, at its place or at the tail. -/
def State.requeue (s : State) (die : Nat) (t : Task) (tail : Bool) : State :=
  let s := s.vacateCores (s.taskCores die t)
  s.modDie die fun d =>
    let u (x : Task) : Task := { x with place := .queued, started := false, stopped := none, preq := false }
    if tail then
      { d with tasks := (d.tasks.filter fun x => x.desc.tag ≠ t.desc.tag) ++
                 (d.tasks.filter fun x => x.desc.tag = t.desc.tag).map u }
    else d.modTask t.desc.tag u

/-- The tasks stopped at their deadlines are aborted, with a record each that holds the cycles from the start to the stop
(R249, R250). -/
def State.abortStopped (s : State) (die : Nat) : State :=
  (s.die die).residents.foldl (fun s t =>
    match t.stopped with
    | none => s
    | some e => (s.post die 2 t.desc.tag 0 (BitVec.ofNat 32 (e - 64 - t.start)) 0 0 []).abortTask die t.desc.tag true) s

/-- A drain that an earlier superstep left and the resumed one has not taken up is over: DRN and LRES are clear (R132). -/
def LoopRegs.pastBoundary (l : LoopRegs) : LoopRegs :=
  if l.drnNew then { l with drnNew := false } else if l.drn then { l with drn := false, res := 0 } else l

def Bank.pastBoundary (b : Bank) : Bank := { b with loop := b.loop.pastBoundary }

/-- The loop registers of the resident tasks pass a boundary, those that a rollback would restore with them. -/
def State.passDrains (s : State) (die : Nat) : State :=
  ((s.die die).residents.map (s.taskCores die)).flatten.foldl (fun s k =>
    s.modCore k fun c =>
      { c with bank0 := c.bank0.pastBoundary, ckpt := c.ckpt.map fun p => { p with bank := p.bank.pastBoundary } }) s

/-- A task leaves the die's queues for good; its translation table still says where its segments lie (R267, R318, R321). -/
def Die.forget (d : Die) (t : Task) : Die :=
  { d with tasks := d.tasks.filter fun x => x.desc.tag ≠ t.desc.tag,
           gone := (d.gone.filter fun x => x.desc.tag ≠ t.desc.tag) ++ [t] }

/-- The accounts of a boundary: slices, steps, budgets; tasks all of whose cores have halted retire (R258, R259). -/
def State.account (s : State) (die b : Nat) : State :=
  (s.die die).residents.foldl (fun s t =>
    let s := s.unschedule (ofTask die t.desc.tag)
    if s.taskHalted die t then
      let s := (s.completionRecord die t.desc 1).vacateCores (s.taskCores die t)
      s.modDie die fun d =>
        { d.forget t with retiredTags := d.retiredTags ++ [t.desc.tag] }
    else
      let next := s.declared die t
      s.modDie die fun d => d.modTask t.desc.tag fun t =>
        { t with rs := t.rs - ((b : Int) - t.start), steps := t.steps + 1, sinceImage := t.sinceImage + 1, budget := next,
                 idle := if t.exchange then t.table.foldl (fun m x => smod 0 m x.1 fun n => if 2 ^ 32 ≤ n then 0 else n + 1) t.idle
                   else t.idle,
                 exchange := !d.phase.getLsbD 0, started := false }) s

/-- Images and requeues of the resident tasks, in ascending rank, then oldest placement first; on a device checkpoint every
task is imaged (R259, R320). -/
def State.imageStep (s : State) (die b : Nat) (hold : Bool) : State :=
  (sortTasks (fun t => t.queue * 2 ^ 40 + t.placed) (s.die die).residents).foldl (fun s t =>
    let d := s.die die
    if t.preq || (decide (1 ≤ t.steps) && decide (t.rs < (deadline d.margin t.budget : Int))) then
      let s := s.writeImages die t
      s.requeue die t (!t.preq)
    else if hold || decide (t.desc.imgInt ≤ t.sinceImage) then
      let s := (s.taskCores die t).foldl (fun s k => s.dropFabric k) (s.writeImages die t)
      let y := Nat.max (b + 16) (b + 1 + Config.imageTime s.fresh)
      let s := s.tick.modDie die fun d => d.modTask t.desc.tag fun t => { t with preq := false, ready := y }
      s
    else s.modDie die fun d => d.modTask t.desc.tag fun t => { t with preq := false, ready := b + 16 }) s

/-- Queued tasks whose gang no longer fits the grid are held, with a record each; at the first boundary after WIDTH has fallen
those held before too have their record (R250, R260). -/
def State.holdMisfits (s : State) (die : Nat) : State :=
  let w := (s.die die).width
  let fell := decide (w < (s.die die).fitWidth)
  let s := ((s.die die).tasks.filter fun t => !t.isResident && (fell || !t.held) && decide (w < t.desc.nx)).foldl (fun s t =>
    let s := s.modDie die fun d => d.modTask t.desc.tag fun t => { t with held := true }
    s.post die 5 t.desc.tag 0 0 0 0 []) s
  s.modDie die fun d => { d with fitWidth := w }

/-- The queued tasks that fit are placed, queue by queue (R259). -/
def State.placeStep (s : State) (die b : Nat) (exchange : Bool) : State :=
  (List.range 16).foldl (fun s q =>
    ((s.die die).tasks.filter fun t => !t.isResident && t.queue == q).foldl (fun s t =>
      let d := s.die die
      if !s.taskReady die t || t.exchange != exchange then s
      else
        match d.placeFor t.desc [] with
        | none => s
        | some (x0, y0) =>
          let y := Nat.max (b + 16) (b + 1 + Config.imageTime s.fresh)
          let t := { t with place := .resident (d.gangSites t.desc x0 y0), placed := d.placeSeq, rs := (d.slice q : Int), steps := 0, sinceImage := 0,
                            started := false, stopped := none, ready := y }
          let s := s.tick.modDie die fun d => { d.modTask t.desc.tag (fun _ => t) with placeSeq := d.placeSeq + 1 }
          s.launchTask die t) s) s

/-- Victims are marked for the highest-ranked ready task that could be placed (R259). -/
def State.markVictims (s : State) (die : Nat) : State :=
  let d := s.die die
  let lower (q : Nat) : List Task := d.residents.filter fun t => decide (q < t.queue)
  let cand := (sortTasks (fun t => t.queue) (d.tasks.filter fun t => s.taskReady die t)).find? fun t =>
    (d.placeFor t.desc ((lower t.queue).map fun x => x.desc.tag)).isSome
  match cand with
  | none => s
  | some h =>
    let order := sortTasks (fun t => (15 - t.queue) * 2 ^ 40 + (2 ^ 40 - 1 - t.placed)) (lower h.queue)
    let victims := order.foldl (fun (v : List W) t =>
      if (d.placeFor h.desc v).isSome then v else v ++ [t.desc.tag]) []
    s.modDie die fun d => { d with tasks := d.tasks.map fun t => if victims.contains t.desc.tag then { t with preq := true } else t }

/-- A step of the throttled clock (R332). -/
def Die.stepClock (d : Die) (fab : Nat) : Die :=
  if d.slow then { d with slow := false, mhz := d.mhz - 100, baseFab := fab - d.phi, baseClk := d.clk } else d

/-- The boundary algorithm in clock cycle B (R259). -/
def State.boundary (s : State) (die : Nat) : State :=
  let d := s.die die
  let b := d.clk
  let next := d.phase + 1
  let exchange := next.getLsbD 0
  let hold := d.holdReq
  let s := ((s.abortStopped die).passDrains die).account die b
  let s := s.modDie die fun d =>
    ({ d.rewriteTables with boundary := some b, phaseNext := some next, holdReq := false, holding := hold }).stepClock s.fab
  let s := s.schedule (.die die) b (evK .phaseCounterAdvance die)
  let s := (s.imageStep die b hold).holdMisfits die
  if hold then s
  else
    let s := ((s.placeStep die b exchange).markVictims die).startMoves die (!exchange)
    (s.die die).residents.foldl (fun s t => s.startAt die t.desc.tag t.ready) s

/-- BOUNDARY_COMPLETE (R247, R259). -/
def execBoundaryComplete (s : State) : Out := .next (s.boundary s.ev.k)

/-- EMPTY_BOUNDARY (R259): with no task resident, a boundary completes once a queued task is ready. -/
def execEmptyBoundary (s : State) : Out :=
  if (s.die s.ev.k).residents.isEmpty then .next (s.boundary s.ev.k) else .next s

/-- PHASE_COUNTER_ADVANCE (R243, R248): the counter takes its new value, and flits left in mesh FIFOs at the boundary are
discarded with a record each, those of tasks that have left their cores before those of the residents. -/
def execPhaseCounterAdvance (s : State) : Out :=
  let die := s.ev.k
  let left := (s.die die).residue
  let s := s.modDie die fun d => { d with phase := d.phaseNext.getD d.phase, phaseNext := none, residue := [] }
  let s := left.foldl (fun s x => s.post die 4 x.2.2 (coreId x.1 ||| BitVec.ofNat 32 (x.2.1 * 128)) 0 0 0 []) s
  let ks := ((s.die die).residents.map (s.taskCores die)).flatten
  .next (ks.foldl (fun s k => (List.range 4).foldl (fun s p =>
    if ((s.core k).fifoOf p).isEmpty then s
    else
      let tag := (s.core k).task.getD 0
      let s := s.modCore k fun c => { c with fifo := sset [] c.fifo p [] }
      s.post die 4 tag (coreId k ||| BitVec.ofNat 32 (p * 128)) 0 0 0 []) s) s)

/-- A core starts its superstep: it issues its next bundle in the next cycle (R248); at a launch its state is the
checkpoint. -/
def Core.startStep (c : Core) : Core :=
  match c.run with
  | .phase _ _ => { c with run := .issue, ckpt := c.ckpt.map fun k => { k with after := .issue } }
  | .launched =>
    let c := { c with run := .issue }
    { c with ckpt := some c.snapshot }
  | _ => c

/-- SUPERSTEP_START (R248, R249, R318): the cores of a task start; an exchange superstep starts once no move of a segment
the task maps is under way, and finds the entries rewritten. -/
def execSuperstepStart (s : State) : Out :=
  let die := s.ev.k
  let d := s.die die
  let tag := BitVec.ofNat 32 s.ev.i
  match d.task tag with
  | none => .next s
  | some t =>
    let moving := (s.pkg (die / 2)).moves.any fun m => t.maps m.old
    if !t.isResident then .next s
    else if (t.exchange && moving) || d.holding then .next (s.schedule (.die die) (d.clk + 1) s.ev)
    else
      let y := d.clk + 1
      let s := s.modDie die fun d => d.modTask tag fun t => { t.rewrite d.rewrites with started := true, start := y }
      let s := (s.taskCores die t).foldl (fun s k => s.modCore k Core.startStep) s
      .next (s.schedule (.die die) (y + deadline d.margin t.budget) (evI .stragglerDeadline die s.ev.i))

/-! ### Stragglers (R249) -/

/-- STRAGGLER_DEADLINE: a task that has not arrived is stopped at once; its record follows at the boundary. -/
def execStragglerDeadline (s : State) : Out :=
  let die := s.ev.k
  let d := s.die die
  let tag := BitVec.ofNat 32 s.ev.i
  match d.task tag with
  | none => .next s
  | some t =>
    if !t.isResident || !t.started || t.stopped.isSome || s.taskArrived die t then .next s
    else
      let s := (s.taskCores die t).foldl (fun s k =>
        (s.modCore k fun c => { c.vacate with task := c.task, run := .stopped }).unschedule fun e =>
          ofCore k e || ofCol (colOf k) e) s
      let s := s.modDie die fun d => d.modTask tag fun t => { t with stopped := some (d.clk + 64) }
      .next (s.schedule (.die die) (d.clk + 64) (evI .stragglerStopComplete die s.ev.i))

/-- STRAGGLER_STOP_COMPLETE: from this cycle on the boundary does not wait for the task (R247, R249). -/
def execStragglerStopComplete (s : State) : Out :=
  let die := s.ev.k
  .next (s.modDie die fun d => d.modTask (BitVec.ofNat 32 s.ev.i) fun t =>
    if t.stopped.isSome then { t with stopped := some d.clk } else t)

/-! ### Whole-device checkpoint (R319 to R321) -/

/-- Both dies hold for a checkpoint (R320, R323). -/
def State.bothHold (s : State) (pkg : Nat) : Bool := (s.die (2 * pkg)).holding && (s.die (2 * pkg + 1)).holding

/-- The forms that a copy waits for, wherever they are under way (R320). -/
def FarKind.stopsCopy (k : FarKind) : Bool :=
  k.isNm || [FarKind.tloadz, .bkalloc, .bkxlat, .bkshare, .bkfree, .bkload, .bkstore].contains k

/-- Everything the copy waits for has completed. -/
def State.deviceQuiet (s : State) (pkg : Nat) : Bool :=
  let p := s.pkg pkg
  s.bothHold pkg && p.moves.isEmpty && p.nmu.all (fun x => x.2.isEmpty) && p.bramble.uses.isEmpty &&
  (srange s.cores (1024 * pkg) (1024 * pkg + 1024)).all fun x => x.2.far.all fun r => !r.kind.stopsCopy

/-- The longest a copy takes, in fabric cycles of 0.625 ns: 0.4 s with six ports at 128 GT/s (R2, R320). -/
def Pkg.copyBound (p : Pkg) : Nat := 640000000 * 6 * (if p.tierFast then 1 else 2) / p.tierPorts

/-- The lines of a task's context images, as they stand (R217, R319). -/
def State.imageLines (s : State) (die : Nat) (t : Task) : List ImageLine :=
  let ks := s.taskCores die t
  (((List.range ks.length).zip ks).map fun x =>
    let a := t.desc.imageAt x.1
    let n := (s.core x.2).imageLen
    (List.range (ceilDiv (a % 64 + n) 64)).map fun i =>
      let line := a / 64 * 64 + 64 * i
      let e := entryOf (imageTable t.table) line
      let in_ (l : List Byte) : List (Nat × Byte) :=
        ((List.range 64).zip l).filter fun y => decide (a ≤ line + y.1) && decide (line + y.1 < a + n)
      (⟨die % 2, e, line, (s.readLine (die / 2) e (die % 2) line).map in_⟩ : ImageLine)).flatten

/-- A line of an image is rewritten (R321). -/
def State.putImageLine (s : State) (pkg : Nat) (l : ImageLine) : State :=
  if !entV l.ent then s
  else
    match l.data with
    | none => s.poisonLine l.ent l.va
    | some w => (s.storeLine pkg l.ent l.half l.va w).1

/-- What a checkpoint of a package holds (R319). -/
def State.deviceState (s : State) (pkg : Nat) : DevCkpt :=
  let p := s.pkg pkg
  let images (die : Nat) : List ImageLine := ((s.die die).residents.map (s.imageLines die)).flatten
  { hbm := p.hbm, hbmPoison := p.hbmPoison, tags := p.tags, bramble := p.bramble,
    columns := srange s.columns (pkg * 256) (pkg * 256 + 256), dies := [s.die (2 * pkg), s.die (2 * pkg + 1)],
    images := images (2 * pkg) ++ images (2 * pkg + 1) }

/-- DEVICE_CHECKPOINT_START (R320): both dies hold, and the copy begins. -/
def execDeviceCheckpointStart (s : State) : Out :=
  let k := s.ev.k
  let t := s.fab + 1 + Config.checkpointTime s.fresh % (s.pkg k).copyBound
  let s := s.modPkg k fun p => { p with copying := some (s.ev.i, s.deviceState k), hold := true }
  .next (s.tick.scheduleFab t (evI .deviceCheckpointCommit k s.ev.i))

/-- DIRTY is cleared on every segment of a die's tasks that lives in the tier. -/
def Die.cleanTier (d : Die) : Die :=
  let clean (x : Nat × DW) : Nat × DW := if entTier x.2 then (x.1, x.2 &&& ~~~(1#64 <<< 61)) else x
  let task (t : Task) : Task := { t with table := t.table.map clean }
  { d with tasks := d.tasks.map task, gone := d.gone.map task }

/-- The dies of a package run on, and their tasks start. -/
def State.releaseHold (s : State) (pkg : Nat) : State :=
  (List.range 2).foldl (fun s h =>
    let die := pkg * 2 + h
    let s := s.modDie die fun d => { d with holding := false }
    (s.die die).residents.foldl (fun s t => s.startAt die t.desc.tag (Nat.max t.ready ((s.die die).clk + 2))) s) s

/-- DEVICE_CHECKPOINT_COMMIT (R319, R320): the slot holds the checkpoint, DIRTY is cleared in the tier, and the tasks go
on. -/
def execDeviceCheckpointCommit (s : State) : Out :=
  let k := s.ev.k
  match (s.pkg k).copying with
  | none => .next s
  | some (slot, c) =>
    let s := s.modPkg k fun p =>
      { p with copying := none, hold := false, lastSlot := some slot, slot0 := if slot = 0 then some c else p.slot0,
               slot1 := if slot = 0 then p.slot1 else some c }
    let s := (s.modDie (2 * k) Die.cleanTier).modDie (2 * k + 1) Die.cleanTier
    .next (s.releaseHold k)

/-- The tier entries with DIRTY set in the tables of a die, those of departed tasks among them. -/
def Die.dirtyTier (d : Die) : List DW :=
  ((d.tasks ++ d.gone).map fun t => t.table.map (·.2)).flatten.filter fun e =>
    entV e && entTier e && e.getLsbD 61

/-- A restored die: its queues, tables and fault log, and nothing else (R319); every task is queued, to resume from its image; a segment in the
tier that is dirty now in a table of the package is invalid (R319, R321). -/
def Die.restored (dirtyNow : List DW) (now saved : Die) : Die :=
  let dirty (e : DW) : Bool := dirtyNow.any fun x => entBase x == entBase e && entPkg x == entPkg e
  let fix (x : Nat × DW) : Nat × DW := if entTier x.2 && dirty x.2 then (x.1, x.2 &&& ~~~(1#64 <<< 63)) else x
  { now with
    log := saved.log, logLost := saved.logLost, gone := saved.gone, retiredTags := saved.retiredTags,
    placeSeq := saved.placeSeq, residue := [], rewrites := [], holdReq := false, holding := false,
    tasks := saved.tasks.map fun t =>
      let table := t.table.map fix
      { t with place := .queued, started := false, stopped := none, table := table } }

/-- The far requests of a package's cores end with nothing performed any more, and leave the near-memory queues of every
package (R305, R321). -/
def State.dropRequests (s : State) (pkg : Nat) : State :=
  let quiet (c : Core) : Core := { c with far := [] }
  let cores := (srange s.cores (1024 * pkg) (1024 * pkg + 1024)).map fun x => (x.1, quiet x.2)
  ({ s with cores := ssetAll Core.reset s.cores cores } : State).dropCommands pkg

/-- A restored column: its state under R223; what belongs to the hardware and to the engine's clock stays (R242, R319). -/
def Column.restored (now saved : Column) : Column :=
  { now with
    banks := saved.banks, bankBad := saved.bankBad, tvmap := saved.tvmap, vbSlots := saved.vbSlots, vbBank := saved.vbBank,
    vbSlotsNext := saved.vbSlotsNext, vbBankNext := saved.vbBankNext, mcmask := saved.mcmask, queue := [] }

/-- A committed checkpoint is restored (R321). -/
def State.restoreDevice (s : State) (pkg : Nat) (c : DevCkpt) : State :=
  let dirty := (s.die (2 * pkg)).dirtyTier ++ (s.die (2 * pkg + 1)).dirtyTier
  let s := (List.range 2).foldl (fun s h =>
    let die := pkg * 2 + h
    let s := (s.die die).residents.foldl (fun s t =>
      (s.vacateCores (s.taskCores die t)).unschedule (ofTask die t.desc.tag)) s
    match c.dies[h]? with
    | none => s
    | some d => s.modDie die fun now => Die.restored dirty now d) s
  let s := s.modPkg pkg fun p =>
    { p with hbm := c.hbm, hbmPoison := c.hbmPoison, tags := c.tags, bramble := c.bramble, moves := [], copying := none, hold := false }
  let cols := (List.range 256).map fun i => pkg * 256 + i
  let s := cols.foldl (fun s i => s.modCol i fun x => x.restored (sget Column.reset c.columns i)) s
  (c.images.foldl (fun s l => s.putImageLine pkg l) s).dropRequests pkg

/-! ### What a die controller tests every clock cycle -/

/-- The boundary that is due, the empty boundary, and the moves of the queued tasks (R247, R259, R318). -/
def State.pollDie (s : State) (die : Nat) : State :=
  let d := s.die die
  let s := s.startMoves die false
  if s.boundaryDue die then { s with todo := .op (evK .boundaryComplete die) :: .due (.die die) :: s.todo }
  else if d.residents.isEmpty && d.holdReq && !d.holding then s.modDie die fun d => { d with holdReq := false, holding := true }
  else if d.residents.isEmpty && !d.holding && d.tasks.any fun t => s.taskReady die t then
    { s with todo := .op (evK .emptyBoundary die) :: .due (.die die) :: s.todo }
  else s

end Sys2Proof.Machine
end

