-- ==== Sys2Proof/Machine/Host.lean ====
section
/-! DEFINITION. The package seen by system software: the register window, ownership, the command ring and its journal,
submission, reset and boot, and the thermal limits (17_package_system.md R322 to R332; 19_fabric.md R337). -/

namespace Sys2Proof.Machine

/-! ### The journal (R327) -/

/-- The bytes of a journal entry. -/
def entryBytes (e : BitVec 1024) : List Byte := bytesOfNat 128 e.toNat

/-- An entry of the journal, with PREV over the entry before it; the ring holds 65,536. -/
def Pkg.journalAdd (p : Pkg) (kind agent op : Nat) (status : W) (token ref : Nat) (args : List W) : Pkg :=
  let seq := p.jrnlSeq.toNat
  let prev : BitVec 256 :=
    if seq = 0 then 0 else Config.shake256 (entryBytes (sget 0 p.journal ((seq - 1) % 65536)))
  let pair (n : Nat) : List W := [BitVec.ofNat 32 n, BitVec.ofNat 32 (n / 2 ^ 32)]
  let words := pair seq ++ [BitVec.ofNat 32 (kind * 2 ^ 24 + agent * 2 ^ 16 + op), status] ++ pair token ++ pair ref ++
    (List.range 8).map (fun i => args.getD i 0) ++ (List.range 8).map (fun i => prev.extractLsb' (32 * i) 32)
  { p with journal := sset 0 p.journal (seq % 65536) (BitVec.ofNat 1024 (packWords words)), jrnlSeq := p.jrnlSeq + 1 }

/-- The sequence number of the oldest accept entry with a TOKEN that the journal still holds. -/
def Pkg.findToken (p : Pkg) (token : Nat) : Option Nat :=
  let seqs := p.journal.filterMap fun x =>
    let w (i : Nat) : Nat := x.2.toNat / 2 ^ (32 * i) % 2 ^ 32
    if w 2 / 2 ^ 24 = 1 ∧ w 4 + w 5 * 2 ^ 32 = token then some (w 0 + w 1 * 2 ^ 32) else none
  seqs.foldl (fun a n => match a with
    | none => some n
    | some m => some (Nat.min m n)) none

/-! ### The register window (R322, R323) -/

/-- OWN_STAT as an agent reads it. -/
def Pkg.ownStat (p : Pkg) (agent : Nat) : W :=
  BitVec.ofNat 32 (p.epoch.toNat * 2 ^ 16 + (p.deny.getLsbD agent).toNat * 16 + p.ownerValid.toNat * 8 + p.owner.toNat)

/-- A register of a die controller. -/
def Die.readReg (d : Die) (o : Nat) : W :=
  match o with
  | 0x00 => d.phase.extractLsb' 0 32
  | 0x04 => (d.phase.extractLsb' 32 16).zeroExtend 32
  | 0x08 => d.margin.zeroExtend 32
  | 0x0C => BitVec.ofNat 32 (d.width * 512 + d.xsite.toNat)
  | 0x10 => BitVec.ofNat 32 d.log.length
  | 0x14 => d.logLost
  | o => if 0x40 ≤ o ∧ o ≤ 0x7C ∧ o % 4 = 0 then sget 0 d.qslice ((o - 0x40) / 4) else 0

/-- A read of the window by an agent; offsets not listed read zero. -/
def State.readWindow (s : State) (pkg agent o : Nat) : W :=
  let p := s.pkg pkg
  match o with
  | 0x00 => BitVec.ofNat 32 (0x0512 * 2 ^ 16 + pkg % 2 ^ 13)
  | 0x04 => BitVec.ofNat 32 (p.recov.toNat * 4 + (p.hold || s.bothHold pkg).toNat * 2 + p.ready.toNat)
  | 0x18 => p.ownStat agent
  | 0x20 => p.cmdBase.extractLsb' 0 32
  | 0x24 => p.cmdBase.extractLsb' 32 32
  | 0x28 => p.cmdTail.zeroExtend 32
  | 0x2C => p.cmdHead.zeroExtend 32
  | 0x30 => p.jrnlSeq.extractLsb' 0 32
  | 0x34 => p.jrnlSeq.extractLsb' 32 32
  | 0x38 => p.tcold.zeroExtend 32
  | o =>
    if o / 0x100 = 0x100 then (s.die (2 * pkg)).readReg (o % 0x100)
    else if o / 0x100 = 0x200 then (s.die (2 * pkg + 1)).readReg (o % 0x100)
    else 0

/-- A register of a die controller written: MARGIN and the slices. -/
def Die.writeReg (d : Die) (o : Nat) (v : W) : Die :=
  if o = 0x08 then { d with margin := v.extractLsb' 0 8 }
  else if 0x40 ≤ o ∧ o ≤ 0x7C ∧ o % 4 = 0 then { d with qslice := sset 0 d.qslice ((o - 0x40) / 4) v }
  else d

/-- A register of the package written: the command ring and TCOLD. -/
def Pkg.writeReg (p : Pkg) (o : Nat) (v : W) : Pkg :=
  match o with
  | 0x20 => { p with cmdBase := p.cmdBase.extractLsb' 32 32 ++ (v &&& 0xFFFFF000#32) }
  | 0x24 => { p with cmdBase := v ++ p.cmdBase.extractLsb' 0 32 }
  | 0x28 => { p with cmdTail := v.extractLsb' 0 8 }
  | 0x38 => { p with tcold := v.extractLsb' 0 16 }
  | _ => p

/-- The agent is the owner. -/
def Pkg.owns (p : Pkg) (agent : Nat) : Bool := p.ownerValid && p.owner.toNat == agent

def Pkg.refuseWrite (p : Pkg) (agent : Nat) : Pkg := { p with deny := p.deny ||| (1#4 <<< agent) }

/-- In recovery mode the management port takes nothing but a firmware write (R330). -/
def Pkg.shut (p : Pkg) (agent : Nat) : Bool := p.recov && decide (2 ≤ agent)

/-- An agent clears its own DENY bit. -/
def Pkg.clearDeny (p : Pkg) (agent : Nat) : Pkg := { p with deny := p.deny &&& ~~~(1#4 <<< agent) }

/-- DENY_CLEAR (R322): an agent clears its own bit. -/
def execDenyClear (s : State) : Out :=
  let agent := s.ev.i % 4
  if (s.pkg s.ev.k).shut agent then .next s
  else .next (s.modPkg s.ev.k fun p => p.clearDeny agent)

/-! ### Ownership (R326) -/

/-- 400 ms and 1 s in fabric cycles of 0.625 ns. -/
def leaseTime : Nat := 640000000
def handoverTime : Nat := 1600000000

/-- An ownership change, counted and journaled with the new OWN_STAT. -/
def Pkg.changeOwner (p : Pkg) (agent : Nat) : Pkg :=
  let p := { p with epoch := p.epoch + 1 }
  p.journalAdd 3 agent 0 (p.ownStat (agent % 4)) 0 0 []

/-- The lease runs from now. -/
def State.renewLease (s : State) (k : Nat) : State :=
  let s := s.unschedule fun e => e.k == k && e.event == .ownerLeaseExpiry
  (s.modPkg k fun p => { p with lastBeat := s.fab }).scheduleFab (s.fab + leaseTime) (evK .ownerLeaseExpiry k)

/-- An agent becomes owner. -/
def State.makeOwner (s : State) (k agent : Nat) : State :=
  (s.modPkg k fun p => ({ p with ownerValid := true, owner := BitVec.ofNat 2 agent }).changeOwner agent).renewLease k

/-- The handover in force. -/
def Pkg.handoverTo (p : Pkg) (fab : Nat) : Option Nat := p.handover.bind fun h => if fab < h.2 then some h.1 else none

/-- Agents claim a package in one cycle (R326). -/
def State.claim (s : State) (k : Nat) (claims : List Nat) : State :=
  let p := s.pkg k
  let deny (s : State) (l : List Nat) : State := s.modPkg k fun p => l.foldl Pkg.refuseWrite p
  match p.handoverTo s.fab with
  | some b =>
    if claims.contains b then
      let s := s.modPkg k fun p => { p with handover := none, cmdHead := 0, cmdTail := 0 }
      deny (s.makeOwner k b) (claims.filter fun a => a ≠ b)
    else deny s (claims.filter fun a => !p.owns a)
  | none =>
    if p.ownerValid then deny s (claims.filter fun a => !p.owns a)
    else
      match claims with
      | [] => s
      | a :: r => deny (s.makeOwner k a) r

/-- OWN_CLAIM (R326): the agents that claim in this cycle, one bit each. -/
def execOwnClaim (s : State) : Out :=
  let k := s.ev.k
  .next (s.claim k ((List.range 4).filter fun a => (BitVec.ofNat 4 s.ev.w).getLsbD a && !(s.pkg k).shut a))

/-- OWN_BEAT (R323): the owner renews its lease; another agent is denied. -/
def execOwnBeat (s : State) : Out :=
  let k := s.ev.k
  let agent := s.ev.i % 4
  if (s.pkg k).shut agent then .next s
  else if (s.pkg k).owns agent then .next (s.renewLease k)
  else .next (s.modPkg k fun p => p.refuseWrite agent)

/-- REGISTER_WRITE (R322, R323): agent, offset and value; a write to OWN_CLAIM is a claim and a 1 written to the agent's
DENY bit clears it, whoever writes; otherwise an agent that is not the owner is denied, and a write to OWN_BEAT renews the
owner's lease. -/
def execRegisterWrite (s : State) : Out :=
  let k := s.ev.k
  let agent := s.ev.i % 4
  let o := s.ev.j
  let v := BitVec.ofNat 32 s.ev.w
  let p := s.pkg k
  if p.shut agent then .next s
  else if o = 0x10 then .next (s.claim k [agent])
  else if o = 0x18 ∧ v.getLsbD 4 then .next (s.modPkg k fun p => p.clearDeny agent)
  else if !p.owns agent then .next (s.modPkg k fun p => p.refuseWrite agent)
  else if o = 0x14 then .next (s.renewLease k)
  else if o / 0x100 = 0x100 then .next (s.modDie (2 * k) fun d => d.writeReg (o % 0x100) v)
  else if o / 0x100 = 0x200 then .next (s.modDie (2 * k + 1) fun d => d.writeReg (o % 0x100) v)
  else .next (s.modPkg k fun p => p.writeReg o v)

/-- OWNER_LEASE_EXPIRY (R326): 400 ms without a beat; a beat in the same cycle wins. -/
def execOwnerLeaseExpiry (s : State) : Out :=
  let k := s.ev.k
  let p := s.pkg k
  if p.ownerValid && decide (p.lastBeat + leaseTime ≤ s.fab) then
    .next (s.modPkg k fun p => ({ p with ownerValid := false }).changeOwner 0xFF)
  else .next s

/-- HANDOVER_WINDOW_EXPIRY (R326): the window ends and ownership is unchanged. -/
def execHandoverWindowExpiry (s : State) : Out :=
  .next (s.modPkg s.ev.k fun p =>
    match p.handover with
    | some h => if h.2 ≤ s.fab then { p with handover := none } else p
    | none => p)

/-! ### Commands (R324, R328) -/

/-- Word i of a command. -/
def HostCmd.word (c : HostCmd) (i : Nat) : W := c.words.getD i 0

def HostCmd.op (c : HostCmd) : Nat := (c.word 0).toNat % 2 ^ 16
def HostCmd.token (c : HostCmd) : Nat := (c.word 1).toNat + (c.word 2).toNat * 2 ^ 32

/-- A host address in two words. -/
def HostCmd.addr (c : HostCmd) (i : Nat) : Nat := (c.word i).toNat + (c.word (i + 1)).toNat * 2 ^ 32

/-- The command of an OP; a slot with a RSVD field that is not zero names none. -/
def HostCmd.event (c : HostCmd) : Instr :=
  if (c.word 0).toNat / 2 ^ 16 ≠ 0 then .unknownCommand
  else
    match c.op with
    | 0x01 => .submit
    | 0x02 => .preempt
    | 0x03 => .resume
    | 0x04 => .discard
    | 0x05 => .hgacq
    | 0x06 => .hgrel
    | 0x07 => .gfree
    | 0x08 => .logread
    | 0x09 => .ckpt
    | 0x0A => .restore
    | 0x0B => .bkpool
    | 0x0C => .handover
    | 0x0D => .attest
    | _ => .unknownCommand

/-- The fabric cycles a command takes until it is performed: free, but at most 2 s for ATTEST (R330). -/
def HostCmd.time (c : HostCmd) (fresh : Nat) : Nat :=
  if c.op = 0x0D then Config.commandTime fresh % 3200000000 else Config.commandTime fresh

/-- STATUS codes. -/
def stOk : Nat := 1
def stRefused : Nat := 2
def stBadCmd : Nat := 3
def stDuplicate : Nat := 5

/-- The device takes slot HEAD (R324, steps 1 and 2), and performs the command later. -/
def State.acceptCommand (s : State) (k : Nat) : State :=
  let p := s.pkg k
  if p.cmd.isSome || !p.ready || p.recov || !p.ownerValid || p.cmdHead == p.cmdTail then s
  else
    let a := p.cmdBase.toNat + 64 * p.cmdHead.toNat
    let c : HostCmd := { slot := a, agent := p.owner.toNat, words := (List.range 16).map fun i => BitVec.ofNat 32 (p.host.nat (a + 4 * i) 4),
                         acceptSeq := p.jrnlSeq.toNat, waiting := false }
    let s := s.modPkg k fun p =>
      { p.journalAdd 1 c.agent c.op 0 c.token 0 (c.words.drop 3) with cmd := some c, cmdHead := p.cmdHead + 1 }
    s.tick.scheduleFab (s.fab + 1 + c.time s.fresh) (evK c.event k)

/-- Step 4: the completion entry, then words 15 and 14 of the slot. -/
def State.completeAs (s : State) (k : Nat) (c : HostCmd) (status named : Nat) : State :=
  s.modPkg k fun p =>
    let p := p.journalAdd 2 c.agent c.op (BitVec.ofNat 32 status) c.token c.acceptSeq (c.words.drop 3)
    let host := p.host.setNat (c.slot + 60) 4 named
    { p with cmd := none, host := host.setNat (c.slot + 56) 4 status }

/-- A command with the TOKEN of an earlier accept entry is not performed (R324). -/
def Pkg.duplicateOf (p : Pkg) (c : HostCmd) : Option Nat :=
  if c.token = 0 then none
  else (p.findToken c.token).bind fun n => if n = c.acceptSeq then none else some n

/-- A command performed: its effect, and its status once complete. -/
def hostCommand (act : State → HostCmd → State × Option Nat) (s : State) : Out :=
  let k := s.ev.k
  match (s.pkg k).cmd with
  | none => .next s
  | some c =>
    if c.waiting then .next s
    else
      match (s.pkg k).duplicateOf c with
      | some n => .next (s.completeAs k c stDuplicate (n % 2 ^ 32))
      | none =>
        match act s c with
        | (s, some st) => .next (s.completeAs k c st (c.acceptSeq % 2 ^ 32))
        | (s, none) => .next (s.modPkg k fun p => { p with cmd := some { c with waiting := true } })

/-- UNKNOWN_COMMAND (R324): BADCMD without effect. -/
def execUnknownCommand (s : State) : Out := hostCommand (fun s _ => (s, some stBadCmd)) s

/-! ### Submission (R260, R325, R331) -/

/-- A segment entry. -/
def SegEntry.ofWords (w : Nat → W) : SegEntry :=
  { index := (w 0).toNat % 2 ^ 12, size := ((w 0).extractLsb' 12 4).toNat, pr := (w 0).getLsbD 16, pw := (w 0).getLsbD 17,
    pa := (w 0).getLsbD 18, dupOk := (w 0).getLsbD 19, key := ((w 0).extractLsb' 20 6).toNat, tier := (w 0).getLsbD 26,
    input := (w 0).getLsbD 27, home := (w 1).toNat + (w 2).toNat * 2 ^ 32, pkg := (w 3).toNat }

/-- The checks of a segment entry, its RSVD field among them. -/
def segOk (w : Nat → W) (e : SegEntry) : Bool :=
  (w 0).toNat / 2 ^ 28 == 0 && decide (e.size ≤ 9) && !(e.key != 0 && e.pa)

def distinctSegs : List SegEntry → Bool
  | [] => true
  | e :: r => (r.all fun x => x.index != e.index) && distinctSegs r

/-- Two words as an address. -/
def addr2 (w : Nat → W) (i : Nat) : Nat := (w i).toNat + (w (i + 1)).toNat * 2 ^ 32

/-- The descriptor at a host address, with its stage map and segment table. -/
def State.readDescriptor (s : State) (pkg a : Nat) : TaskDesc :=
  let w (i : Nat) : W := BitVec.ofNat 32 (s.hostNat pkg (a + 4 * i) 4)
  let stmap := addr2 w 11
  let segtab := addr2 w 13
  { tag := w 0, ldie := ((w 1).extractLsb' 16 14).toNat, ndm1 := ((w 1).extractLsb' 0 14).toNat,
    imgInt := ((w 2).extractLsb' 16 16).toNat, ny := ((w 2).extractLsb' 8 4).toNat, nx := ((w 2).extractLsb' 4 4).toNat,
    bk := (w 2).getLsbD 3, img := (w 2).getLsbD 2, budget0 := (w 3).toNat, seed := w 4, code := farAddr (w 5) (w 6),
    codeSize := (w 7).toNat, imgBase := farAddr (w 8) (w 9), imgStride := (w 10).toNat,
    stages := (List.range 64).map fun i => s.hostNat pkg (stmap + i) 1,
    segs := (List.range (Nat.min 4096 (w 15).toNat)).map fun i =>
      SegEntry.ofWords fun j => BitVec.ofNat 32 (s.hostNat pkg (segtab + 16 * i + 4 * j) 4),
    preds := (List.range 4).map fun i => w (16 + i), compl := addr2 w 20, vbSlots := w 22,
    vbBank := (w 23).extractLsb' 0 16, mcmask := (w 24).extractLsb' 0 4 }

/-- The fields of a descriptor that R331 checks. -/
def State.descriptorOk (s : State) (pkg a : Nat) (t : TaskDesc) : Bool :=
  let w (i : Nat) : W := BitVec.ofNat 32 (s.hostNat pkg (a + 4 * i) 4)
  let segtab := addr2 w 13
  t.tag != 0 && (w 1).extractLsb' 30 2 == 0 && (w 1).extractLsb' 14 2 == 0 && (w 2).extractLsb' 12 4 == 0 &&
  (w 2).extractLsb' 0 2 == 0 && decide (1 ≤ t.imgInt) && farHiOk (w 6) && t.code % 4096 == 0 && farHiOk (w 9) &&
  decide (1 ≤ (w 15).toNat) && decide ((w 15).toNat ≤ 4096) && (w 23).extractLsb' 16 16 == 0 &&
  (w 24).extractLsb' 4 28 == 0 && ((List.range 7).all fun i => w (25 + i) == 0) &&
  ((List.range t.segs.length).zip t.segs).all (fun x =>
    segOk (fun j => BitVec.ofNat 32 (s.hostNat pkg (segtab + 16 * x.1 + 4 * j) 4)) x.2) &&
  distinctSegs t.segs

/-- The table entry of a segment of a package (R267, R331), its fields cut to the entry's widths: a segment in HBM lies at
the stack and base that its home names, without a second copy until placement makes one (R288, R318). -/
def SegEntry.entry (e : SegEntry) : DW :=
  if e.tier then mkEntry false false e.pr e.pw e.pa e.size e.key true e.pkg 0 e.home
  else mkEntry false false e.pr e.pw e.pa e.size e.key false e.pkg (e.home / 32768 % 8) (e.home % 32768)

def TaskDesc.table (t : TaskDesc) : SMap DW := ssetAll 0 [] (t.segs.map fun e => (e.index, e.entry))

/-- The task of a descriptor, as it is queued. -/
def TaskDesc.task (t : TaskDesc) (queue : Nat) (table : SMap DW) (exchange : Bool) : Task :=
  { desc := t, queue := queue, place := .queued, held := false, placed := 0, exchange := exchange, rs := 0, steps := 0,
    sinceImage := 0, preq := false, start := 0, budget := t.budget0, imaged := false, cols := [], imgBudget := t.budget0,
    imgExchange := exchange, table := table, idle := [], started := false, stopped := none, ready := 0 }

/-- The gang, the queue and the images of a descriptor are accepted (R260). -/
def State.submitOk (s : State) (die queue : Nat) (t : TaskDesc) (table : SMap DW) : Bool :=
  let d := s.die die
  decide (1 ≤ t.nx) && decide (t.nx ≤ 8) && decide (1 ≤ t.ny) && decide (t.ny ≤ 8) && decide (t.nx ≤ d.width) &&
  decide (d.slice queue ≠ 0) && decide (deadline d.margin t.budget0 ≤ d.slice queue) &&
  (!t.img || (List.range (4 * t.nx * t.ny)).all fun i => headerOk (s.imageReader die t table i))

/-- SUBMIT on a die and a queue. -/
def State.submit (s : State) (die queue a : Nat) : State × Nat :=
  let pkg := die / 2
  let t := s.readDescriptor pkg a
  let table := t.table
  if s.descriptorOk pkg a t && s.submitOk die queue t table then
    let exchange := t.img && s.imageReader die t table 0 3 == 1
    (s.tick.modDie die fun d => { d with tasks := d.tasks ++ [t.task queue table exchange] }, stOk)
  else ((s.completionRecord die t 2).post die 6 t.tag 0 0 0 0 [], stRefused)

/-- SUBMIT (R325). -/
def execSubmit (s : State) : Out :=
  let pkg := s.ev.k
  hostCommand (fun s c =>
    if 2 ≤ (c.word 3).toNat ∨ 16 ≤ (c.word 4).toNat then (s, some stBadCmd)
    else
      let r := s.submit (2 * pkg + (c.word 3).toNat) (c.word 4).toNat (c.addr 5)
      (r.1, some r.2)) s

/-- A command about a task of a die: refused where the die has no such task or the test fails. -/
def taskCommand (ok : Task → Bool) (act : State → Nat → Task → State) (s : State) : Out :=
  let pkg := s.ev.k
  hostCommand (fun s c =>
    if 2 ≤ (c.word 3).toNat then (s, some stBadCmd)
    else
      let die := 2 * pkg + (c.word 3).toNat
      match (s.die die).task (c.word 4) with
      | none => (s, some stRefused)
      | some t => if ok t then (act s die t, some stOk) else (s, some stRefused)) s

/-- PREEMPT (R251, R325). -/
def execPreempt (s : State) : Out :=
  taskCommand Task.isResident (fun s die t => s.modDie die fun d => d.modTask t.desc.tag fun t => { t with preq := true }) s

/-- RESUME (R250, R325). -/
def execResume (s : State) : Out :=
  taskCommand (·.held) (fun s die t => s.modDie die fun d => d.modTask t.desc.tag fun t => { t with held := false }) s

/-- DISCARD (R325): the task leaves its queue, with a completion record of status 3. -/
def execDiscard (s : State) : Out :=
  taskCommand (fun t => !t.isResident) (fun s die t =>
    let s := s.completionRecord die t.desc 3
    s.modDie die fun d => d.forget t) s

/-! ### Guards (R277 to R279, R325) -/

/-- The entries of a package's tasks through which a host command can reach a guard. -/
def State.guardEntries (s : State) (pkg va : Nat) : List DW :=
  (((List.range 2).map fun h => (s.die (2 * pkg + h)).tasks.map fun t => entryOf t.table va).flatten).filter fun e =>
    entV e && entPA e && decide (va % 2 ^ 30 + 64 ≤ entBytes e)

/-- The entry that a host command uses. -/
def State.guardEntry (s : State) (pkg va : Nat) : Option DW :=
  let l := s.guardEntries pkg va
  if l.isEmpty then none else l[Config.hostGuardTask s.fresh % l.length]?

/-- A guard command: the descriptor of R277 in host memory, whose STATUS and FIRSTP it writes. -/
def hostGuard (act : Guard → Bool → W → W → GuardOut) (firstp : Bool) (s : State) : Out :=
  let pkg := s.ev.k
  hostCommand (fun s c =>
    let a := c.addr 3
    let w (i : Nat) : W := BitVec.ofNat 32 (s.hostNat pkg (a + 4 * i) 4)
    let va := farAddr (w 0) (w 1)
    if va % 64 ≠ 0 ∨ !farHiOk (w 1) ∨ 2 ≤ (w 2).toNat ∨ w 6 ≠ 0 ∨ w 7 ≠ 0 then (s, some stBadCmd)
    else
      match s.guardEntry pkg va with
      | none => (s, some stRefused)
      | some e =>
        let owner := 0xFFFFFFF0#32 + BitVec.ofNat 32 c.agent
        let r : State × GuardOut :=
          let g := (s.readGuard pkg e 0 va).getD Guard.unread
          let o := act g ((w 2).getLsbD 0) owner (c.word 5)
          (if o.guard = g then s else s.writeGuard pkg e 0 va o.guard, o)
        let o := r.2
        let s := if firstp && (o.code == 1 || o.code == 2) then r.1.hostWrite pkg (a + 16) (bytesOfNat 8 o.firstp) else r.1
        (s.tick.hostWrite pkg (a + 12) (bytesOfNat 4 (statusWord o.code o.mis o.count).toNat), some stOk)) s

/-- HGACQ (R325): acts as GACQ does, with OWNER = 0xFFFF_FFF0 + agent. -/
def execHgacq (s : State) : Out := hostGuard (fun g x o _ => g.acquire x o) true s

/-- HGREL (R325): acts as GREL does. -/
def execHgrel (s : State) : Out := hostGuard (fun g x o b => g.release x o b) false s

/-- GFREE (R325): 64 zero bytes at the guard, in every copy. -/
def execGfree (s : State) : Out :=
  let pkg := s.ev.k
  hostCommand (fun s c =>
    let va := c.addr 3
    if va % 64 ≠ 0 ∨ 2 ^ 42 ≤ va then (s, some stBadCmd)
    else
      match s.guardEntry pkg va with
      | none => (s, some stRefused)
      | some e =>
        let z := List.replicate 64 (0 : Byte)
        let s := s.tick.writeLine pkg e 0 va z
        (if entDup e then s.writeLine pkg e 1 va z else s, some stOk)) s

/-! ### The log, checkpoints, pools, handover, attestation (R265, R307, R319 to R321, R325, R330) -/

/-- LOGREAD (R325): the oldest records move to the host. -/
def execLogread (s : State) : Out :=
  let pkg := s.ev.k
  hostCommand (fun s c =>
    if 2 ≤ (c.word 3).toNat then (s, some stBadCmd)
    else
      let die := 2 * pkg + (c.word 3).toNat
      let n := (c.word 6).toNat
      let recs := (s.die die).log.take n
      let s := s.hostWrite pkg (c.addr 4) (wordBytes recs.flatten)
      (s.modDie die fun d => { d with log := d.log.drop n }, some stOk)) s

/-- CKPT (R320, R325): both dies run to their next boundaries and hold; the command completes at the commit. -/
def execCkpt (s : State) : Out :=
  let pkg := s.ev.k
  hostCommand (fun s c =>
    if 2 ≤ (c.word 3).toNat then (s, some stBadCmd)
    else
      let hold (d : Die) : Die := { d with holdReq := true }
      ((s.modDie (2 * pkg) hold).modDie (2 * pkg + 1) hold, none)) s

/-- RESTORE (R321, R325): refused where the slot holds no committed checkpoint. -/
def execRestore (s : State) : Out :=
  let pkg := s.ev.k
  hostCommand (fun s c =>
    if 2 ≤ (c.word 3).toNat then (s, some stBadCmd)
    else
      match (if (c.word 3).toNat = 0 then (s.pkg pkg).slot0 else (s.pkg pkg).slot1) with
      | none => (s, some stRefused)
      | some k => (s.restoreDevice pkg k, some stOk)) s

/-- BKPOOL (R307, R325): refused below the blocks in use. -/
def execBkpool (s : State) : Out :=
  let pkg := s.ev.k
  hostCommand (fun s c =>
    let stack := (c.word 3).toNat
    let n := (c.word 4).toNat
    if 8 ≤ stack ∨ 976562 < n then (s, some stBadCmd)
    else if n < ((s.pkg pkg).bramble.taken stack).length then (s, some stRefused)
    else (s.modPkg pkg fun p => { p with bramble := { p.bramble with pool := sset 0 p.bramble.pool stack n } }, some stOk)) s

/-- HANDOVER (R326): for 1 s only the named agent may claim. -/
def execHandover (s : State) : Out :=
  let pkg := s.ev.k
  hostCommand (fun s c =>
    let b := (c.word 3).toNat
    if 4 ≤ b ∨ (s.pkg pkg).owns b then (s, some stBadCmd)
    else
      let t := s.fab + handoverTime
      let s := s.unschedule fun e => e.k == pkg && e.event == .handoverWindowExpiry
      ((s.modPkg pkg fun p => { p with handover := some (b, t) }).scheduleFab t (evK .handoverWindowExpiry pkg), some stOk)) s

/-- The retired cores of a package. -/
def State.retiredCores (s : State) (pkg : Nat) : Nat :=
  ((srange s.cores (1024 * pkg) (1024 * pkg + 1024)).filter fun x => x.2.retired).length

def State.retiredCols (s : State) (pkg : Nat) : Nat :=
  ((srange s.columns (256 * pkg) (256 * pkg + 256)).filter fun x => x.2.retired).length

/-- ATTEST (R330): the report, signed by the device identity key. -/
def execAttest (s : State) : Out :=
  let pkg := s.ev.k
  hostCommand (fun s c =>
    let p := s.pkg pkg
    let body := wordBytes ((List.range 8).map fun i => c.word (3 + i)) ++ bytesOfNat 4 (0x0512 * 2 ^ 16 + pkg % 2 ^ 13) ++
      bytesOfNat 32 p.measure0.toNat ++ bytesOfNat 32 p.measure1.toNat ++ bytesOfNat 4 (s.retiredCores pkg) ++
      bytesOfNat 4 (s.retiredCols pkg) ++ bytesOfNat 8 p.jrnlSeq.toNat
    (s.hostWrite pkg (c.addr 11) (body ++ bytesOfNat 29792 (Config.identitySign body).toNat), some stOk)) s

/-! ### Reset and boot (R7, R328 to R330) -/

/-- The package at its reset values: what the tier, the flash and the host hold and the links' training counts stay, and a command that was
accepted is remembered by the journal; its units go on with what other packages sent them, and its sequencer, if it has one, is
standby (R361). -/
def Pkg.afterReset (p : Pkg) : Pkg :=
  { Pkg.reset with
    tier := p.tier, tierPoison := p.tierPoison, tierTags := p.tierTags, tierPorts := p.tierPorts, tierFast := p.tierFast,
    cmd := p.cmd.map fun c => { c with waiting := false }, jrnlSeq := p.jrnlSeq, journal := p.journal, host := p.host,
    slot0 := p.slot0, slot1 := p.slot1, lastSlot := p.lastSlot, fwA := p.fwA, fwB := p.fwB, ports := p.ports,
    collId := p.collId, nmu := p.nmu, programs := p.programs,
    medlar := { Medlar.reset with standby := p.medlar.primary || p.medlar.standby, leader := p.medlar.leader } }

/-- A core at its reset values, the findings of the array test apart. -/
def Core.afterReset (c : Core) : Core := { Core.reset with rowOff := c.rowOff, retired := c.retired }

def Column.afterReset (x : Column) : Column := { Column.reset with spares := x.spares, retired := x.retired }

/-- The events of a package: at its dies, or in the fabric about it. -/
def ofPkg (pkg : Nat) (d : Due) : Bool :=
  match d.dom with
  | .die n => n / 2 == pkg
  | .fabric =>
    [Instr.ownerLeaseExpiry, .handoverWindowExpiry, .submit, .preempt, .resume, .discard, .hgacq, .hgrel, .gfree, .logread,
     .ckpt, .restore, .bkpool, .handover, .attest, .unknownCommand, .bootComplete, .deviceCheckpointCommit, .collectiveStart,
     .heartbeat, .failover, .numberingResume].contains d.ev.event && d.ev.k == pkg

/-- The links of a package lose their alignment: they are down until they are trained again, as the packages at their other
ends report (R7, R340, R359). -/
def State.dropLinks (s : State) (pkg : Nat) : State :=
  (List.range 6).foldl (fun s i =>
    if s.nullPort pkg i then s
    else
      let o := s.portTo pkg i
      let n := oppositePort i
      ((s.portDown pkg i).portDown o n).reportLink o n false) s

/-- A package is reset and starts to boot; `trip` when its tasks resume from the last checkpoint (R332). -/
def State.resetPackage (s : State) (pkg : Nat) (trip : Bool) : State :=
  let s := (({ s with agenda := s.agenda.filter fun d => !ofPkg pkg d } : State).dropCommands pkg).dropLinks pkg
  let cores := (srange s.cores (1024 * pkg) (1024 * pkg + 1024)).map fun x => (x.1, x.2.afterReset)
  let cols := (srange s.columns (256 * pkg) (256 * pkg + 256)).map fun x => (x.1, x.2.afterReset)
  let s := { s with cores := ssetAll Core.reset (sclear s.cores (1024 * pkg) (1024 * pkg + 1024)) cores,
                    columns := ssetAll Column.reset (sclear s.columns (256 * pkg) (256 * pkg + 256)) cols }
  let die (d : Die) : Die := { Die.reset with phi := d.phi, baseFab := s.fab }
  let s := ((s.modDie (2 * pkg) die).modDie (2 * pkg + 1) die).modPkg pkg Pkg.afterReset
  s.tick.scheduleFab (s.fab + 1 + Config.bootTime s.fresh) (evB .bootComplete pkg 0 trip)

/-- POWER_ON_RESET (R7, R329). -/
def execPowerOnReset (s : State) : Out := .next (s.resetPackage s.ev.k false)

/-- PACKAGE_RESET (R7, R328, R329). -/
def execPackageReset (s : State) : Out := .next (s.resetPackage s.ev.k false)

/-- The cores of a die: nine site columns of eight. -/
def dieCores (die : Nat) : List Nat :=
  ((List.range 4).map fun l => (List.range 72).map fun i => die * 512 + l * 128 + i).flatten

/-- The set bits of a row mask. -/
def onesIn (b : BitVec 132) : Nat := ((List.range 132).filter fun i => b.getLsbD i).length

/-- The array test of a die (R329, R40, R216, R242): row maps, spare wires, retirements and the grid. -/
def State.arrayTest (s : State) (die : Nat) : State :=
  let boot := s.fresh
  let s := (dieCores die).foldl (fun s k =>
    let bad := Config.failingRows boot k
    let out := decide (4 < onesIn bad) || Config.failingAcc boot k
    let s := s.modCore k fun c => { c with rowOff := if out then 0 else bad, retired := out }
    if out then s.post die 3 0 (coreId k) (causeWord 0 6) 0 0 [] else s) s
  let s := (List.range 72).foldl (fun s i =>
    let col := die * 128 + i
    let ws := Config.failingWires boot col
    let n := ws.length
    let s := s.modCol col fun x => { x with spares := ws.take 8, fault := false, repair := none, retired := decide (8 < n) }
    if 8 < n then
      (coresOfCol col).foldl (fun s k =>
        if (s.core k).retired then s
        else (s.modCore k fun c => { c with retired := true }).post die 3 0 (coreId k) (causeWord 0 6) 0 0 []) s
    else s) s
  let bad (px : Nat) : Bool := (List.range 8).any fun y =>
    (s.col (die * 128 + px * 8 + y)).retired || (coresOfCol (die * 128 + px * 8 + y)).any fun k => (s.core k).retired
  s.modDie die fun d => { d with xsite := BitVec.ofNat 9 ((List.range 9).foldl (fun a px => if bad px then a + 2 ^ px else a) 0) }

/-- A command that boot runs to its end (R328). -/
def HostCmd.run (c : HostCmd) : State → Out :=
  match c.event with
  | .submit => execSubmit
  | .preempt => execPreempt
  | .resume => execResume
  | .hgacq => execHgacq
  | .hgrel => execHgrel
  | .gfree => execGfree
  | .ckpt => execCkpt
  | .restore => execRestore
  | .handover => execHandover
  | _ => execUnknownCommand

/-- A command pending since before the reset (R328): DISCARD, LOGREAD, ATTEST and BKPOOL are refused, the others run to
their end. -/
def State.pendingCommand (s : State) (k : Nat) : State :=
  match (s.pkg k).cmd with
  | none => s
  | some c =>
    if [0x04, 0x08, 0x0B, 0x0D].contains c.op then s.completeAs k c stRefused (c.acceptSeq % 2 ^ 32)
    else
      match c.run s with
      | .next s => s
      | _ => s

/-- The key slots of a package from the firmware configuration (R336, R346). -/
def Pkg.loadKeys (p : Pkg) (k : Nat) : Pkg :=
  { p with xtsKeys := ssetAll 0 [] ((List.range 63).map fun i => (i + 1, Config.xtsKey k (i + 1))),
           macKeys := ssetAll 0 [] ((List.range 63).map fun i => (i + 1, Config.macKey k (i + 1))) }

/-- The configuration of a package as bytes: the pod's geometry, its sequencers, the key slots and the pod secret (R336). -/
def State.configBytes (s : State) (k : Nat) : List Byte :=
  bytesOfNat 4 s.dx ++ bytesOfNat 4 s.dy ++ bytesOfNat 4 s.dz ++ bytesOfNat 4 s.primary ++ bytesOfNat 4 s.standby ++
  ((List.range 63).map fun i => bytesOfNat 64 (Config.xtsKey k (i + 1)).toNat ++ bytesOfNat 32 (Config.macKey k (i + 1)).toNat).flatten ++
  Config.podSecret

/-- Measurement register 1 of a package (R329, R336). -/
def State.measureConfig (s : State) (k : Nat) : State :=
  s.modPkg k fun p => { p with measure1 := Config.firmwareConfig (s.configBytes k) }

/-- After a trip the tasks resume from the last committed checkpoint (R332). -/
def State.resumeLast (s : State) (k : Nat) : State :=
  let p := s.pkg k
  match p.lastSlot.bind fun n => if n = 0 then p.slot0 else p.slot1 with
  | none => s
  | some c => s.restoreDevice k c

/-- The end of boot (R329, step 4): once the pending command is complete the boot is journaled and READY is set. -/
def State.endBoot (s : State) (k : Nat) : State :=
  if (s.pkg k).cmd.isSome then s.scheduleFab (s.fab + 1) ⟨.bootComplete, k, 0, 1, 0, false⟩
  else
    let s := s.modPkg k fun p => { p.journalAdd 4 0xFF 0 0 0 0 [] with ready := true }
    if (s.pkg k).medlar.standby then s.watch k else s

/-- BOOT_COMPLETE (R329, R330): with both firmware slots failing the package is in recovery mode; otherwise the
measurements, the array test, after a trip the checkpoint (R332), the pending command on top of it (R328), the journal and READY;
`j` is 1 while a pending command is not over. -/
def execBootComplete (s : State) : Out :=
  let k := s.ev.k
  if s.ev.j = 1 then .next (s.endBoot k)
  else
    match (s.pkg k).fwA.orElse fun _ => (s.pkg k).fwB with
    | none => .next (s.modPkg k fun p => { p with recov := true })
    | some digest =>
      let s := (s.modPkg k fun p => { p.loadKeys k with measure0 := digest, recov := false }).measureConfig k
      let t := ((s.arrayTest (2 * k)).arrayTest (2 * k + 1)).tick
      .next (((if s.ev.b then t.resumeLast k else t).pendingCommand k).endBoot k)

/-- FIRMWARE_WRITE (R330): in recovery mode the management port takes a signed image into slot B. -/
def execFirmwareWrite (s : State) : Out :=
  .next (s.modPkg s.ev.k fun p =>
    if p.recov && decide (2 ≤ s.ev.i) && decide (s.ev.i ≤ 3) && s.ev.b then { p with fwB := some (BitVec.ofNat 256 s.ev.w) } else p)

/-! ### Power and cooling (R332) -/

/-- THERMAL_THROTTLE: the die's clock steps down at its next boundary. -/
def execThermalThrottle (s : State) : Out := .next (s.modDie s.ev.k fun d => { d with slow := true })

/-- THERMAL_TRIP: the package resets, and its tasks resume from the last committed checkpoint. -/
def execThermalTrip (s : State) : Out := .next (s.resetPackage s.ev.k true)

/-! ### The pod (R336, R337, R348, R361) -/

/-- The packages of the pod. -/
def State.pkgs' (s : State) : List Nat :=
  ((List.range s.dz).map fun z => ((List.range s.dy).map fun y => (List.range s.dx).map fun x => mkPkg x y z).flatten).flatten

/-- POD_BOOT (R337): the geometry and the sequencers of the firmware configuration, the pod clock at 0, and the dies locked
to it. -/
def execPodBoot (s : State) : Out :=
  let g := s.ev.i
  let primary := s.ev.j
  let standby := s.ev.w
  let boots := s.agenda.filter fun d => decide (d.dom = Domain.fabric ∧ d.ev.event = Instr.bootComplete)
  let s := ({ s with dx := g % 32 + 1, dy := g / 32 % 16 + 1, dz := g / 512 % 16 + 1, primary := primary, standby := standby,
                     fab := 0, agenda := boots,
                     msgs := [] } : State)
  let s := s.pkgs'.foldl (fun s p =>
    let s := (List.range 2).foldl (fun s h => s.modDie (2 * p + h) fun d =>
      { d with clk := 0, phi := Config.dieOffset (2 * p + h), baseFab := 0, baseClk := 0 }) s
    let rest (x : Port) : Port := { x with queue := [], wire := [], remoteNext := 0, chanNext := 0 }
    (s.modPkg p fun q =>
      { q with medlar := { Medlar.reset with
                 primary := p == primary, standby := p == standby && p != primary, leader := primary }, colls := [],
               ports := ssetAll Port.reset [] (q.ports.map fun x => (x.1, rest x.2)) }).measureConfig p) s
  let down := (s.pkgs'.map fun p => ((List.range 6).filter fun i => decide (1 < s.extentOf i) && s.nullPort p i).map fun i => (p, i)).flatten
  let s := s.modMedlar primary fun m => { m with down := down }
  .next ((s.scheduleFab 0 (evK .heartbeat primary)).watch standby)

/-! ### What a package controller tests every fabric cycle -/

/-- A checkpoint command: the copy starts once both dies hold and all is quiet, and the command completes after the
commit (R320). -/
def State.pollCheckpoint (s : State) (k : Nat) : State :=
  let p := s.pkg k
  match p.cmd with
  | none => s
  | some c =>
    let going := (List.range 2).any fun h => (s.die (2 * k + h)).holdReq || (s.die (2 * k + h)).holding
    if !c.waiting || p.copying.isSome then s
    else if s.deviceQuiet k then { s with todo := .op (evI .deviceCheckpointStart k (c.word 3).toNat) :: s.todo }
    else if going then s
    else s.completeAs k c stOk (c.acceptSeq % 2 ^ 32)

/-- Collectives that are over leave the package, and the marks of this cycle's link flits are cleared (R338). -/
def Pkg.tidy (p : Pkg) (held : Nat → Nat → Bool) (fab : Nat) : Pkg :=
  let gone (c : PkgColl) : Bool :=
    !held c.core c.far && (match c.grant with
      | none => true
      | some g => decide (g.start + 2 ^ 22 < fab))
  { p with colls := p.colls.filter fun c => !gone c,
           ports := p.ports.map fun x => (x.1, { x.2 with spoil := false, unauth := false, bad := if x.2.spoil then x.2.bad else 0 }) }

/-- The conditions of a package. -/
def State.pollPkg (s : State) (k : Nat) : State :=
  let held (core far : Nat) : Bool := ((s.core core).farReq far).isSome
  ((s.modPkg k fun p => p.tidy held s.fab).acceptCommand k).pollCheckpoint k

end Sys2Proof.Machine
end

