-- ==== Sys2Proof/Machine/Sequence.lean ====
section
/-! DEFINITION. The sequencing instructions: transfers, the loop engine, rotation, barriers, PHASE and HALT
(05_core_scalar_branch.md R123 to R137; 12_die_supersteps.md R245, R246). -/

namespace Sys2Proof.Machine

/-! ### Transfers (R123) -/

/-- A form that a loop body forbids: LOOP_FORM while ACT = 1, whatever the guard (R128). -/
def notInLoop (s : State) (f : State → Out) : Out :=
  if s.cur.bank.loop.act then .next (s.trap cLoopForm) else f s

/-- A transfer with a true guard; a call saves the offset of the next bundle in s47. -/
def transfer (gn : Bool) (g : BitVec 4) (target : State → PC) (call : Bool) (s : State) : Out :=
  notInLoop s fun s =>
    if s.guard gn g then
      .next (s.upd fun c =>
        let c := { c with pc := target s }
        if call then c.send 1 (.reg 47 (s.ictx.next.zeroExtend 32)) else c)
    else .next s

/-- The target of form BJ.  DEDUCED: a sum below 0 or beyond the 26 bits of an offset wraps (R123 names no such case; log 11). -/
def relTarget (off : BitVec 21) (s : State) : PC := s.ictx.pc + (off.signExtend 26 <<< 2)

/-- The target that a register holds: bits [25:2]. -/
def regTarget (a : BitVec 6) (s : State) : PC := (s.rs 0 a).extractLsb' 0 26 &&& 0x3FFFFFC#26

/-- BR (R123). -/
def execBr (f : FmtBJ) (s : State) : Out := transfer f.gn f.g (relTarget f.off) false s

/-- CALL (R123). -/
def execCall (f : FmtBJ) (s : State) : Out := transfer f.gn f.g (relTarget f.off) true s

/-- BRI (R123). -/
def execBri (f : FmtBX) (s : State) : Out := transfer f.gn f.g (regTarget f.a) false s

/-- CALLI (R123). -/
def execCalli (f : FmtBX) (s : State) : Out := transfer f.gn f.g (regTarget f.a) true s

/-- RET (R123). -/
def execRet (f : FmtG) (s : State) : Out := transfer f.gn f.g (regTarget 47) false s

/-! ### The loop engine (R124 to R132) -/

/-- The loop registers of the executing bank changed. -/
def Core.modLoop (c : Core) (f : LoopRegs → LoopRegs) : Core := c.modBank fun b => { b with loop := f b.loop }

/-- The stage predicates that LOOP sets: p8 true, p9 to p15 false, by name. -/
def armPreds (prb : BitVec 3) : List (Nat × Bool) := (List.range 8).map fun i => (physP prb (8 + i), i == 0)

/-- LOOP (R126): arms the engine, resumes a drained loop, or skips the body. A resumption leaves no drain pending, so LRES
reads 0 after it (R132). -/
def execLoop (f : FmtLoop) (s : State) : Out :=
  notInLoop s fun s =>
    if !s.guard f.gn f.g then .next s
    else
      let c := s.cur
      let l := c.bank.loop
      let resume := l.drn && l.lpc == s.ictx.pc
      let n := if resume then l.rem else s.rs 0 f.a
      match c.skip c.cur (f.len.toNat + 1) s.ictx.next with
      | .error pc => .next (s.trapAt cFetchPage pc)
      | .ok after =>
        let drn := l.drn && !resume
        let res := if resume then 0 else l.res
        if n = 0 then
          .next (s.upd fun c => { c.modLoop (fun l => { l with drn := drn, res := res, linc := [], act := false }) with pc := after })
        else
          let armed (l : LoopRegs) : LoopRegs :=
            { l with drn := drn, res := res, trip := n, pass := 0, pass32 := false, idx := if resume then l.res else 0,
                     act := true, div := f.div, nst := f.nst, len := f.len, body := s.ictx.next, cnt := 0, arm := s.ictx.pc,
                     after := some after }
          .next (s.upd fun c => (c.modLoop armed).send 1 (.preds (armPreds c.bank.prb)))

/-- The lowest invalid LINC entry. -/
def LoopRegs.freeLinc (l : LoopRegs) : Option Nat := (List.range 8).find? fun n => !(sget 0 l.linc n).getLsbD 31

/-- The word of a LINC entry (R124). -/
def lincWord (k : Bool) (d : BitVec 6) (inc : BitVec 14) : W :=
  BitVec.ofNat 32 (packFields [(1, 1), (1, k.toNat), (6, d.toNat), (10, 0), (14, inc.toNat)])

/-- LINC (R125). -/
def execLinc (f : FmtLinc) (s : State) : Out :=
  notInLoop s fun s =>
    if !s.guard f.gn f.g then .next s
    else
      match s.cur.bank.loop.freeLinc with
      | none => .next (s.trap cLoopForm)
      | some n =>
        .next (s.upd fun c => c.modLoop fun l => { l with linc := sset 0 l.linc n (lincWord f.k f.d f.inc) })

/-- LEXIT (R129): the next bundle is the first after the body, as its LOOP found it; a loop that no LOOP armed finds it from
the headers (log 11). -/
def execLexit (f : FmtG) (s : State) : Out :=
  let c := s.cur
  let l := c.bank.loop
  if !l.act then .next (s.trap cLoopForm)
  else if !s.guard f.gn f.g then .next s
  else
    let leave (after : PC) : Out :=
      .next (s.upd fun c => { c.modLoop (fun l => { l with linc := [], act := false }) with pc := after })
    match l.after with
    | some after => leave after
    | none =>
      match c.skip c.cur (l.len.toNat - l.cnt) s.ictx.next with
      | .error pc => .next (s.trapAt cFetchPage pc)
      | .ok after => leave after

/-- ROT (R130). -/
def execRot (f : FmtRot) (s : State) : Out :=
  if s.guard f.gn f.g then
    let b := s.cur.bank
    .next (s.upd fun c => c.send 1 (.rot (if f.brb then b.brb + 7 else b.brb) (if f.prb then b.prb + 7 else b.prb)))
  else .next s

/-- The rotation bases in force after the ROT writes of the cycle (R127). -/
def Core.nextRot (c : Core) : BitVec 3 × BitVec 3 :=
  c.pend.foldl (fun a e =>
    match e.kind, e.left with
    | .rot br pr, 1 => if e.bank = c.cur then (br, pr) else a
    | _, _ => a) (c.bank.brb, c.bank.prb)

/-- The 33-bit pass number (R127). -/
def LoopRegs.passNo (l : LoopRegs) : Nat := l.pass32.toNat * 2 ^ 32 + l.pass.toNat

/-- The register a LINC entry names: the base register's physical number, or the scalar code.  DEDUCED: of an entry that MTC
wrote with D beyond form BI's range, a base register is D mod 8, and a scalar code from 48 on is written as any result is
(R124 names no such case; log 11). -/
def lincReg (brb : BitVec 3) (e : W) : Bool × Nat :=
  let d := (e.extractLsb' 24 6).toNat
  if e.getLsbD 30 then (true, physB brb (d % 8)) else (false, d)

/-- The increments of the valid entries, one write for each register named (R127). -/
def Core.increments (c : Core) (brb : BitVec 3) (u : Nat → W) : List PendKind :=
  let b := c.bank
  let es := (List.range 8).filterMap fun n =>
    let e := sget 0 b.loop.linc n
    if e.getLsbD 31 then some (lincReg brb e, (e.extractLsb' 0 14).signExtend 32) else none
  let regs := (es.map (·.1)).eraseDups
  regs.map fun r =>
    let inc : W := (es.filter fun e => e.1 = r).foldl (fun a e => a + e.2) 0
    if r.1 then .base r.2 (sget 0 b.b r.2 + inc.extractLsb' 0 23)
    else .reg (BitVec.ofNat 6 r.2) (b.readS 0 u (BitVec.ofNat 6 r.2) + inc)

/-- Whether the loop drains at this loop-back (R131). -/
def LoopRegs.drainNow (l : LoopRegs) (request : Bool) : Bool :=
  l.div && request && !l.drn && decide (l.passNo + 1 < l.trip.toNat)

/-- The loop registers after the drain test of a loop-back (R131). -/
def LoopRegs.drained (l : LoopRegs) (request : Bool) : LoopRegs :=
  let nxt := l.passNo + 1
  if l.drainNow request then
    { l with res := l.idx + 1, rem := l.trip - BitVec.ofNat 32 nxt, lpc := l.arm, drn := true, drnNew := true,
             trip := BitVec.ofNat 32 nxt }
  else l

/-- The loop-back that ends the loop (R127). -/
def LoopRegs.endsNow (l : LoopRegs) : Bool := decide (l.trip.toNat + l.nst.toNat ≤ l.passNo + 1)

/-- A pre-emption request stands for a core's task. -/
def State.preqOf (s : State) (k : Nat) : Bool := ((s.taskOf k).map (·.preq)).getD false

/-- LOOP_BACK (R127, R131): after the effects of the last body bundle. PASS, PASS32 and IDX are written with latency 1. -/
def execLoopBack (s : State) : Out :=
  let k := s.ev.k
  let c := s.core k
  let l := c.bank.loop.drained (s.preqOf k)
  let nxt := l.passNo + 1
  let put (l : LoopRegs) (c : Core) : Core := c.modBank fun b => { b with loop := l }
  if l.endsNow then
    .next (s.modCore k (put { l with linc := [], act := false, cnt := 0 }))
  else
    let (brb, prb) := c.nextRot
    let n := l.trip.toNat
    let preds := (List.range (l.nst.toNat + 1)).map fun i => (physP prb (8 + i), decide (i ≤ nxt) && decide (nxt - i < n))
    let incs := c.increments brb (fun r => Config.unpredictable s.fresh (65536 + r) 0)
    let step := PendKind.loopPass (BitVec.ofNat 32 nxt) (decide (2 ^ 32 ≤ nxt)) (if nxt < n then l.idx + 1 else l.idx)
    .next (s.modCore k fun c =>
      let c := { put { l with cnt := 0 } c with pc := l.body }
      (step :: PendKind.preds preds :: incs).foldl (fun c p => c.send 1 p) c)

/-! ### Named barriers (R133 to R136) -/

/-- PART is not the same in every layer it names, or does not name the core's own (R134). -/
def State.barMismatch (s : State) (n : Nat) : Bool :=
  let k := s.ictx.core
  let p := (s.cur.bar n).part
  !p.getLsbD (layerOf k) ||
  (List.range 4).any fun z => p.getLsbD z && ((s.core (coreIn (colOf k) z)).bar n).part != p

/-- Every layer that PART names has arrived in its own copy: ARR equals PART (R134). -/
def State.allArrived (s : State) (col n : Nat) (p : BitVec 4) : Bool :=
  (List.range 4).all fun z => !p.getLsbD z || ((s.core (coreIn col z)).bar n).arr.getLsbD z

/-- An arrival of the executing core; the one that makes ARR equal PART completes the barrier three cycles later (R134,
R136). -/
def State.arrive (s : State) (n : Nat) : State :=
  let k := s.ictx.core
  let c := s.cur
  let z := layerOf k
  if s.barMismatch n then s.trap cBarMismatch
  else
    match (if c.cur then none else c.barLog[c.barPos]?) with
    | some m =>
      let s := s.upd fun c => { c with barPos := c.barPos + 1 }
      if m = n then s else s.disagree k
    | none =>
      if (c.bar n).arr.getLsbD z then s.trap cBarRearrive
      else if !c.cur && decide (32 ≤ c.barPos) then s.trap cCkpBudget
      else
        let s := s.upd fun c =>
          let c := c.modBar n fun b => b.arrived z
          if c.cur then c else { c with barLog := c.barLog ++ [n], barPos := c.barPos + 1 }
        let t := s.clkOf k + 3
        let s := s.scheduleCore k t (evI .arrivalPropagate k n)
        if s.allArrived (colOf k) n (s.cur.bar n).part then
          s.schedule (.die (dieOf k)) t (evI .barrierComplete (colOf k) n)
        else s

/-- The wait of the executing core: barrier wait cycles until its own arrival has completed (R135, R136). -/
def State.barWait (s : State) (n : Nat) : State :=
  if s.cur.awaits n (layerOf s.ictx.core) then s.upd fun c => { c with run := .barWait n } else s

/-- BARR (R134). -/
def execBarr (f : FmtBB) (s : State) : Out :=
  if s.guard f.gn f.g then .next (s.arrive f.bar.toNat) else .next s

/-- BWAIT (R135). -/
def execBwait (f : FmtBB) (s : State) : Out :=
  if s.guard f.gn f.g then .next (s.barWait f.bar.toNat) else .next s

/-- BSYNC (R134, R135). -/
def execBsync (f : FmtBB) (s : State) : Out :=
  if s.guard f.gn f.g then
    let s := s.arrive f.bar.toNat
    .next (if s.ictx.trap.isSome || s.cur.retired then s else s.barWait f.bar.toNat)
  else .next s

/-- ARRIVAL_PROPAGATE: the arrival in the other cores' copies (R134). -/
def execArrivalPropagate (s : State) : Out :=
  let k := s.ev.k
  let n := s.ev.i
  .next ((coresOfCol (colOf k)).foldl (fun s c =>
    s.modCore c fun x => x.modBar n fun b => b.arrived (layerOf k)) s)

/-- BARRIER_COMPLETE: every copy clears ARR and toggles GEN (R134). -/
def execBarrierComplete (s : State) : Out :=
  let n := s.ev.i
  .next ((coresOfCol s.ev.k).foldl (fun s k =>
    s.modCore k fun c => c.modBar n Bar.completed) s)

/-! ### PHASE and HALT (R137, R245, R246) -/

/-- PHASE with a declared budget: in bank 0 the bundle is a checkpoint bundle and the core arrives after its dwell. -/
def phaseWith (gn : Bool) (g : BitVec 4) (budget : Nat) (s : State) : Out :=
  notInLoop s fun s =>
    if s.guard gn g && !s.cur.cur then
      .next { s.upd fun c => { c with run := .phase budget false } with ictx := { s.ictx with ckp := true } }
    else .next s

/-- PHASE (R245, R246). -/
def execPhase (f : FmtPhase) (s : State) : Out := phaseWith f.gn f.g (64 * f.body.toNat) s

/-- PHASE with the budget in a register (R245). -/
def execPhaseRg (f : FmtPhaseRg) (s : State) : Out :=
  phaseWith f.gn f.g (Nat.min (64 * ceilDiv (s.rs 0 f.a).toNat 64) 67108800) s

/-- PHASE_ARRIVAL: the arrival is recorded with its budget (R246). -/
def execPhaseArrival (s : State) : Out :=
  .next (s.modCore s.ev.k fun c =>
    match c.run with
    | .phase b _ => { c with run := .phase b true }
    | _ => c)

/-- HALT (R137): bank 0 waits for its outstanding work and then counts as arrived; bank 1 posts the trap report and the
task aborts (R200, R250). -/
def execHalt (f : FmtG) (s : State) : Out :=
  notInLoop s fun s =>
    if !s.guard f.gn f.g then .next s
    else
      let k := s.ictx.core
      let c := s.cur
      if c.cur then
        let tag := c.task.getD 0
        let s := s.post (dieOf k) 1 tag (coreId k) (causeWord c.causeSlot.toNat c.causeCode.toNat)
          (c.trapPc.zeroExtend 32) (c.ckpPc.zeroExtend 32) c.drainRec
        let s := s.upd fun c => { c with run := .stopped }
        .next (s.abortTask (dieOf k) tag true)
      else .next (s.upd fun c => { c with run := .halt false })

end Sys2Proof.Machine
end

