-- ==== Sys2Proof/Machine/Vector.lean ====
section
/-! DEFINITION. The vector instructions at issue: operands, masks, and the result put on its way
(06_core_vector.md R138 to R160). -/

namespace Sys2Proof.Machine

/-- The rounding mode of a form without a MODE field, or of a MODE field (R141). -/
def State.rmode (s : State) (f : BitVec 3) : RMode := .ofCode f s.cur.bank.round

/-- A V result of the executing unit. -/
def State.vres (s : State) (d : BitVec 6) (mask : BitVec 64) (form : VForm) (mode : RMode) (a b c e : VReg) : VRes :=
  { unit := s.unit, d := d, mask := mask, form := form, a := a, b := b, c := c, e := e, mode := mode, push := true }

/-- The file number of the executing unit in a release. -/
def State.vfile (s : State) : Nat := if s.unit then 2 else 1

/-- Issues a V operation under a GS field: where it does not run it writes nothing and pushes nothing (R89); the
last-use bits release in either case (R87). -/
def vIssue (s : State) (gs : BitVec 5) (d : BitVec 6) (lat : Nat) (form : VForm) (a b c : VReg)
    (rel : Core → Core) : Out :=
  match s.lanes gs with
  | none => .next (s.upd rel)
  | some m => .next (s.upd fun k => rel (k.send lat (.vres (s.vres d m form (s.rmode 7) a b c 0))))

/-- A two-source VR form (R89, R138). -/
def vBin (f : FmtVR) (lat : Nat) (form : VForm) (s : State) : Out :=
  vIssue s f.gs f.d lat form (s.rv s.unit 0 f.a) (s.rv s.unit 1 f.b) 0
    fun k => (k.lastUse s.vfile f.la f.a).lastUse s.vfile f.lb f.b

/-- A two-source integer form with the saturation bit (R144). -/
def vInt (f : FmtVRX) (op : IOp) (n : Nat) (s : State) : Out :=
  vBin ⟨f.gs, f.d, f.a, f.b, f.la, f.lb⟩ 4 (.iarith op n f.x) s

/-- A VFMA form: D is read as a source at issue (R138). -/
def vFma (f : FmtVR) (t : FTy) (s : State) : Out :=
  vIssue s f.gs f.d 5 (.fma t) (s.rv s.unit 0 f.a) (s.rv s.unit 1 f.b) (s.rv s.unit 2 f.d)
    fun k => (k.lastUse s.vfile f.la f.a).lastUse s.vfile f.lb f.b

/-- A form whose lanes are a function of the lanes of its two sources (R144, R146). -/
def vLanes (f : FmtVR) (lat : Nat) (g : VReg → VReg → Nat → W) (s : State) : Out :=
  vIssue s f.gs f.d lat .value (ofLanes (g (s.rv s.unit 0 f.a) (s.rv s.unit 1 f.b))) 0 0
    fun k => (k.lastUse s.vfile f.la f.a).lastUse s.vfile f.lb f.b

/-- A logical or shift form (R144). -/
def vLogic (f : FmtVR) (g : W → W → W) (s : State) : Out := vLanes f 4 (fun a b l => g (lane a l) (lane b l)) s

/-- A one-source form. -/
def vUn (f : FmtVRA) (lat : Nat) (form : VForm) (s : State) : Out :=
  vIssue s f.gs f.d lat form (s.rv s.unit 0 f.a) 0 0 fun k => k.lastUse s.vfile f.la f.a

/-! ### Compares (R145) -/

/-- The mask and the values of the lanes a compare writes in one vector predicate. -/
def predWrite (f : Nat → Option Bool) : BitVec 64 × BitVec 64 :=
  (maskOf fun l => (f l).isSome, maskOf fun l => (f l).getD false)

/-- A vector compare: `c` is the condition of a lane (R145). -/
def vCmp (f : FmtVP) (c : W → W → Bool) (s : State) : Out :=
  let g := s.cur.bank.readP f.g.toNat
  let a := s.rv s.unit 0 f.a
  let b := s.rv s.unit 1 f.b
  let r (l : Nat) := combine f.ct g (c (lane a l) (lane b l))
  let w1 := predWrite fun l => (r l).1
  let w2 := predWrite fun l => (r l).2
  .next (s.upd fun k => k.send 4 (.vpreds s.unit [(f.p1.toNat, w1.1, w1.2), (f.p2.toNat, w2.1, w2.2)]))

/-- The condition of a lane from the condition of its sub-elements of width n. -/
def allSubs (n : Nat) (c : Nat → Nat → Bool) (a b : W) : Bool :=
  (List.range (32 / n)).all fun i => c (subElem a n i) (subElem b n i)

/-- A float compare (R145). -/
def vfCmp (f : FmtVP) (c : XVal → XVal → Bool) (s : State) : Out :=
  let t : FTy := if f.ty = 0 then .f32 else if f.ty = 1 then .f16 else .bf16
  vCmp f (allSubs t.fmt.width fun x y => c (t.fmt.decode x) (t.fmt.decode y)) s

/-- The width of the sub-elements of an integer compare. -/
def icmpWidth (ty : BitVec 2) : Nat := if ty = 0 then 32 else if ty = 1 then 16 else 8

def viCmp (f : FmtVP) (c : Int → Int → Bool) (s : State) : Out :=
  let n := icmpWidth f.ty
  vCmp f (allSubs n fun x y => c (sextNat n x) (sextNat n y)) s

def viCmpU (f : FmtVP) (c : Nat → Nat → Bool) (s : State) : Out := vCmp f (allSubs (icmpWidth f.ty) c) s

/-- Ordered comparison of values that are no NaN. -/
def ordered (p : Ordering → Bool) (a b : XVal) : Bool := !a.isNan && !b.isNan && p (XVal.cmp a b)

/-! ### Conversions and blocks (R150 to R158) -/

/-- VCVT and VCVTS: the tensor exponents stand in the literal (R92), which is zero when the bundle has none. -/
def vCvt (f : FmtVC) (sat : Bool) (s : State) : Out :=
  let teS := (s.ictx.lit.extractLsb' 0 8).toInt
  let teD := (s.ictx.lit.extractLsb' 8 8).toInt
  .next (s.upd fun k =>
    (k.send 3 (.vres (s.vres f.d (BitVec.allOnes 64) (.cvt f.df.toNat f.sf.toNat teS teD sat) (s.rmode f.mode)
      (s.rv s.unit 0 f.a) 0 0 0))).lastUse s.vfile f.la f.a)

/-- Whether VBCVT's register B is released at issue (R156). -/
def Bank.stale (b : Bank) (unit : Bool) (r : BitVec 6) : Bool := decide (r.toNat < 48) && b.releasedV unit r.toNat

/-! ### The instructions -/

/-- VADD.F32 (R142, R143). -/
def execVaddF32 (f : FmtVR) (s : State) : Out := vBin f 4 (.fbin .add .f32) s

/-- VADD.F16 (R142, R143). -/
def execVaddF16 (f : FmtVR) (s : State) : Out := vBin f 4 (.fbin .add .f16) s

/-- VADD.BF16 (R142, R143). -/
def execVaddBf16 (f : FmtVR) (s : State) : Out := vBin f 4 (.fbin .add .bf16) s

/-- VSUB.F32 (R142, R143). -/
def execVsubF32 (f : FmtVR) (s : State) : Out := vBin f 4 (.fbin .sub .f32) s

/-- VSUB.F16 (R142, R143). -/
def execVsubF16 (f : FmtVR) (s : State) : Out := vBin f 4 (.fbin .sub .f16) s

/-- VSUB.BF16 (R142, R143). -/
def execVsubBf16 (f : FmtVR) (s : State) : Out := vBin f 4 (.fbin .sub .bf16) s

/-- VMUL.F32 (R142, R143). -/
def execVmulF32 (f : FmtVR) (s : State) : Out := vBin f 4 (.fbin .mul .f32) s

/-- VMUL.F16 (R142, R143). -/
def execVmulF16 (f : FmtVR) (s : State) : Out := vBin f 4 (.fbin .mul .f16) s

/-- VMUL.BF16 (R142, R143). -/
def execVmulBf16 (f : FmtVR) (s : State) : Out := vBin f 4 (.fbin .mul .bf16) s

/-- VMIN.F32 (R142, R143). -/
def execVminF32 (f : FmtVR) (s : State) : Out := vBin f 4 (.fbin .min .f32) s

/-- VMIN.F16 (R142, R143). -/
def execVminF16 (f : FmtVR) (s : State) : Out := vBin f 4 (.fbin .min .f16) s

/-- VMIN.BF16 (R142, R143). -/
def execVminBf16 (f : FmtVR) (s : State) : Out := vBin f 4 (.fbin .min .bf16) s

/-- VMAX.F32 (R142, R143). -/
def execVmaxF32 (f : FmtVR) (s : State) : Out := vBin f 4 (.fbin .max .f32) s

/-- VMAX.F16 (R142, R143). -/
def execVmaxF16 (f : FmtVR) (s : State) : Out := vBin f 4 (.fbin .max .f16) s

/-- VMAX.BF16 (R142, R143). -/
def execVmaxBf16 (f : FmtVR) (s : State) : Out := vBin f 4 (.fbin .max .bf16) s

/-- VFMA.F32 (R142, R143). -/
def execVfmaF32 (f : FmtVR) (s : State) : Out := vFma f .f32 s

/-- VFMA.F16 (R142, R143). -/
def execVfmaF16 (f : FmtVR) (s : State) : Out := vFma f .f16 s

/-- VFMA.BF16 (R142, R143). -/
def execVfmaBf16 (f : FmtVR) (s : State) : Out := vFma f .bf16 s

/-- VIADD.I32 (R144). -/
def execViaddI32 (f : FmtVRX) (s : State) : Out := vInt f .add 32 s

/-- VIADD.I16 (R144). -/
def execViaddI16 (f : FmtVRX) (s : State) : Out := vInt f .add 16 s

/-- VIADD.I8 (R144). -/
def execViaddI8 (f : FmtVRX) (s : State) : Out := vInt f .add 8 s

/-- VISUB.I32 (R144). -/
def execVisubI32 (f : FmtVRX) (s : State) : Out := vInt f .sub 32 s

/-- VISUB.I16 (R144). -/
def execVisubI16 (f : FmtVRX) (s : State) : Out := vInt f .sub 16 s

/-- VISUB.I8 (R144). -/
def execVisubI8 (f : FmtVRX) (s : State) : Out := vInt f .sub 8 s

/-- VIMUL.I32 (R144). -/
def execVimulI32 (f : FmtVRX) (s : State) : Out := vInt f .mul 32 s

/-- VIMUL.I16 (R144). -/
def execVimulI16 (f : FmtVRX) (s : State) : Out := vInt f .mul 16 s

/-- VIMUL.I8 (R144). -/
def execVimulI8 (f : FmtVRX) (s : State) : Out := vInt f .mul 8 s

/-- VIMIN.I32 (R144). -/
def execViminI32 (f : FmtVR) (s : State) : Out := vBin f 4 (.iarith .min 32 false) s

/-- VIMIN.I16 (R144). -/
def execViminI16 (f : FmtVR) (s : State) : Out := vBin f 4 (.iarith .min 16 false) s

/-- VIMIN.I8 (R144). -/
def execViminI8 (f : FmtVR) (s : State) : Out := vBin f 4 (.iarith .min 8 false) s

/-- VIMAX.I32 (R144). -/
def execVimaxI32 (f : FmtVR) (s : State) : Out := vBin f 4 (.iarith .max 32 false) s

/-- VIMAX.I16 (R144). -/
def execVimaxI16 (f : FmtVR) (s : State) : Out := vBin f 4 (.iarith .max 16 false) s

/-- VIMAX.I8 (R144). -/
def execVimaxI8 (f : FmtVR) (s : State) : Out := vBin f 4 (.iarith .max 8 false) s

/-- VAND (R144). -/
def execVand (f : FmtVR) (s : State) : Out := vLogic f (fun a b => a &&& b) s

/-- VOR (R144). -/
def execVor (f : FmtVR) (s : State) : Out := vLogic f (fun a b => a ||| b) s

/-- VXOR (R144). -/
def execVxor (f : FmtVR) (s : State) : Out := vLogic f (fun a b => a ^^^ b) s

/-- VANDN (R144). -/
def execVandn (f : FmtVR) (s : State) : Out := vLogic f (fun a b => a &&& ~~~b) s

/-- VSHL (R144). -/
def execVshl (f : FmtVR) (s : State) : Out := vLogic f (fun a b => a <<< (b.toNat % 32)) s

/-- VSHR (R144). -/
def execVshr (f : FmtVR) (s : State) : Out := vLogic f (fun a b => a >>> (b.toNat % 32)) s

/-- VSRA (R144). -/
def execVsra (f : FmtVR) (s : State) : Out := vLogic f (fun a b => a.sshiftRight (b.toNat % 32)) s

/-- VSEL: D is read as a source at issue (R138, R146). -/
def execVsel (f : FmtVSel) (s : State) : Out :=
  vIssue s f.gs f.d 4 .value
    (mergeLanes (s.cur.bank.readVP s.unit f.n.toNat) (s.rv s.unit 0 f.a) (s.rv s.unit 2 f.d)) 0 0
    fun k => k.lastUse s.vfile f.la f.a

/-- VMOV (R146). -/
def execVmov (f : FmtVRA) (s : State) : Out := vUn f 4 .value s

/-- VPERM (R146). -/
def execVperm (f : FmtVR) (s : State) : Out := vLanes f 6 (fun a b l => lane a ((lane b l).toNat % 64)) s

/-- VBCST (R146). -/
def execVbcst (f : FmtVR) (s : State) : Out := vLanes f 6 (fun a b _ => lane a ((lane b 0).toNat % 64)) s

/-- VRED.ADD.F32 (R147). -/
def execVredAddF32 (f : FmtVRA) (s : State) : Out := vUn f 6 (.red .addF) s

/-- VRED.ADD.I32 (R147). -/
def execVredAddI32 (f : FmtVRA) (s : State) : Out := vUn f 6 (.red .addI) s

/-- VRED.MAX.F32 (R147). -/
def execVredMaxF32 (f : FmtVRA) (s : State) : Out := vUn f 6 (.red .maxF) s

/-- VRED.MAX.I32 (R147). -/
def execVredMaxI32 (f : FmtVRA) (s : State) : Out := vUn f 6 (.red .maxI) s

/-- VRED.MIN.F32 (R147). -/
def execVredMinF32 (f : FmtVRA) (s : State) : Out := vUn f 6 (.red .minF) s

/-- VRED.MIN.I32 (R147). -/
def execVredMinI32 (f : FmtVRA) (s : State) : Out := vUn f 6 (.red .minI) s

/-- VEXP2 (R148). -/
def execVexp2 (f : FmtVRA) (s : State) : Out := vUn f 8 (.fn .exp2) s

/-- VLOG2 (R148). -/
def execVlog2 (f : FmtVRA) (s : State) : Out := vUn f 8 (.fn .log2) s

/-- VRCP (R148). -/
def execVrcp (f : FmtVRA) (s : State) : Out := vUn f 8 (.fn .rcp) s

/-- VRSQ (R148). -/
def execVrsq (f : FmtVRA) (s : State) : Out := vUn f 8 (.fn .rsq) s

/-- VFLG: the sample at issue, the masked flags cleared in the active lanes (R149). -/
def execVflg (f : FmtVFlg) (s : State) : Out :=
  match s.lanes f.gs with
  | none => .next s
  | some m =>
    let off := if s.unit then 64 else 0
    let b := s.cur.bank
    let v := ofLanes fun l => (sget 0 b.flags (off + l)).zeroExtend 32
    .next (s.upd fun k =>
      (k.modBank fun b => (List.range 64).foldl (fun b l => if m.getLsbD l then b.clearLane (off + l) f.mask else b) b).send 4
        (.vres (s.vres f.d m .value .rne v 0 0 0)))

/-- VCVT (R150, R151). -/
def execVcvt (f : FmtVC) (s : State) : Out := vCvt f false s

/-- VCVTS: the saturating option (R152). -/
def execVcvts (f : FmtVC) (s : State) : Out := vCvt f true s

/-- VBMAX (R154). -/
def execVbmax (f : FmtVBMax) (s : State) : Out :=
  .next (s.upd fun k =>
    (k.send 6 (.vres (s.vres f.d (BitVec.allOnes 64) (.bmax f.bt.toNat) .rne (s.rv s.unit 0 f.a) 0 0 0))).lastUse
      s.vfile f.la f.a)

/-- VBCVT: A is read at issue, B three issue cycles later (R155, R156). -/
def execVbcvt (f : FmtVBCvt) (s : State) : Out :=
  let r := s.vres f.d (BitVec.allOnes 64) (.bcvt f.bt.toNat) (s.rmode f.mode) (s.rv s.unit 0 f.a) 0 0 0
  .next (s.upd fun k =>
    ((k.send 3 (.lateB r f.b s.ictx.lit (s.cur.bank.stale s.unit f.b))).lastUse s.vfile f.la f.a).lastUse
      s.vfile f.lb f.b)

/-- VQDUAL: the four registers of the region (R158). -/
def execVqdual (f : FmtVQDual) (s : State) : Out :=
  .next (s.upd fun k =>
    ((((k.send 8 (.vres (s.vres f.d (BitVec.allOnes 64) (.qdual f.bt.toNat) (s.rmode f.mode) (s.rv s.unit 0 f.a)
      (s.rv s.unit 1 (f.a + 1)) (s.rv s.unit 2 (f.a + 2)) (s.rv s.unit 3 (f.a + 3))))).lastUse s.vfile f.la f.a).lastUse
      s.vfile f.la (f.a + 1)).lastUse s.vfile f.la (f.a + 2)).lastUse s.vfile f.la (f.a + 3))

/-- VDQ (R157). -/
def execVdq (f : FmtVDq) (s : State) : Out :=
  .next (s.upd fun k =>
    ((k.send 3 (.vres (s.vres f.d (BitVec.allOnes 64) (.dq f.bt.toNat) .rne (s.rv s.unit 0 f.a) (s.rv s.unit 1 f.b)
      0 0))).lastUse s.vfile f.la f.a).lastUse s.vfile f.lb f.b)

/-- The key of a statistics-buffer word: entry (IDX + l) mod 4,096, word w (R159). -/
def statKey (idx : BitVec 12) (l : Nat) (w : BitVec 2) : Nat := (idx.toNat + l) % 4096 * 4 + w.toNat

/-- VSTR (R159). -/
def execVstr (f : FmtVStr) (s : State) : Out :=
  .next (s.upd fun k => k.send 6 (.vres (s.vres f.v (BitVec.allOnes 64) .value .rne
    (ofLanes fun l => sget 0 s.cur.stat (statKey f.idx l f.w)) 0 0 0)))

/-- VSTW: 256 undo bytes (R159, R208). -/
def execVstw (f : FmtVStw) (s : State) : Out :=
  if s.cur.undoOver 256 then .next (s.trap cCkpBudget)
  else
    let v := s.rv s.unit 0 f.v
    .next (s.upd fun k =>
      ((k.countUndo 256).send 2 (.statw ((List.range 64).map fun l => (statKey f.idx l f.w, lane v l)))).lastUse
        s.vfile f.la f.v)

/-- VFCMPEQ (R145). -/
def execVfcmpeq (f : FmtVP) (s : State) : Out := vfCmp f (ordered fun o => o == .eq) s

/-- VFCMPNE (R145). -/
def execVfcmpne (f : FmtVP) (s : State) : Out := vfCmp f (fun a b => !ordered (fun o => o == .eq) a b) s

/-- VFCMPLT (R145). -/
def execVfcmplt (f : FmtVP) (s : State) : Out := vfCmp f (ordered fun o => o == .lt) s

/-- VFCMPLE (R145). -/
def execVfcmple (f : FmtVP) (s : State) : Out := vfCmp f (ordered fun o => o != .gt) s

/-- VFCMPUN (R145). -/
def execVfcmpun (f : FmtVP) (s : State) : Out := vfCmp f (fun a b => a.isNan || b.isNan) s

/-- VICMPEQ (R145). -/
def execVicmpeq (f : FmtVP) (s : State) : Out := viCmp f (fun a b => decide (a = b)) s

/-- VICMPNE (R145). -/
def execVicmpne (f : FmtVP) (s : State) : Out := viCmp f (fun a b => decide (a ≠ b)) s

/-- VICMPLT (R145). -/
def execVicmplt (f : FmtVP) (s : State) : Out := viCmp f (fun a b => decide (a < b)) s

/-- VICMPLE (R145). -/
def execVicmple (f : FmtVP) (s : State) : Out := viCmp f (fun a b => decide (a ≤ b)) s

/-- VICMPLTU (R145). -/
def execVicmpltu (f : FmtVP) (s : State) : Out := viCmpU f (fun a b => decide (a < b)) s

/-- VICMPLEU (R145). -/
def execVicmpleu (f : FmtVP) (s : State) : Out := viCmpU f (fun a b => decide (a ≤ b)) s

end Sys2Proof.Machine
end

