-- ==== Sys2Proof/Machine/Dispatch.lean ====
section
/-! DEFINITION. The dispatch: one direct call of a meaning for every constructor. -/

namespace Sys2Proof.Machine

/-- The meaning of an instruction or event in a state (log 1). -/
def exec (i : Instr) (s : State) : Host.Outcome State Fault Refusal :=
  match i with
  | .nop => Sys2Proof.Machine.execNop s
  | .iadd f => Sys2Proof.Machine.execIadd f s
  | .isub f => Sys2Proof.Machine.execIsub f s
  | .imul f => Sys2Proof.Machine.execImul f s
  | .imulh f => Sys2Proof.Machine.execImulh f s
  | .imulhu f => Sys2Proof.Machine.execImulhu f s
  | .and f => Sys2Proof.Machine.execAnd f s
  | .or f => Sys2Proof.Machine.execOr f s
  | .xor f => Sys2Proof.Machine.execXor f s
  | .andn f => Sys2Proof.Machine.execAndn f s
  | .shl f => Sys2Proof.Machine.execShl f s
  | .shr f => Sys2Proof.Machine.execShr f s
  | .sra f => Sys2Proof.Machine.execSra f s
  | .rotl f => Sys2Proof.Machine.execRotl f s
  | .min f => Sys2Proof.Machine.execMin f s
  | .max f => Sys2Proof.Machine.execMax f s
  | .minu f => Sys2Proof.Machine.execMinu f s
  | .maxu f => Sys2Proof.Machine.execMaxu f s
  | .shadd1 f => Sys2Proof.Machine.execShadd1 f s
  | .shadd2 f => Sys2Proof.Machine.execShadd2 f s
  | .shadd3 f => Sys2Proof.Machine.execShadd3 f s
  | .clz f => Sys2Proof.Machine.execClz f s
  | .popc f => Sys2Proof.Machine.execPopc f s
  | .mov f => Sys2Proof.Machine.execMov f s
  | .sel f => Sys2Proof.Machine.execSel f s
  | .iadds f => Sys2Proof.Machine.execIadds f s
  | .isubs f => Sys2Proof.Machine.execIsubs f s
  | .cmpeq f => Sys2Proof.Machine.execCmpeq f s
  | .cmpne f => Sys2Proof.Machine.execCmpne f s
  | .cmplt f => Sys2Proof.Machine.execCmplt f s
  | .cmple f => Sys2Proof.Machine.execCmple f s
  | .cmpltu f => Sys2Proof.Machine.execCmpltu f s
  | .cmpleu f => Sys2Proof.Machine.execCmpleu f s
  | .cmpbit f => Sys2Proof.Machine.execCmpbit f s
  | .mfc f => Sys2Proof.Machine.execMfc f s
  | .mtc f => Sys2Proof.Machine.execMtc f s
  | .mfp f => Sys2Proof.Machine.execMfp f s
  | .mtp f => Sys2Proof.Machine.execMtp f s
  | .mfb f => Sys2Proof.Machine.execMfb f s
  | .mtb f => Sys2Proof.Machine.execMtb f s
  | .mfq f => Sys2Proof.Machine.execMfq f s
  | .mtq f => Sys2Proof.Machine.execMtq f s
  | .mftask f => Sys2Proof.Machine.execMftask f s
  | .mttask f => Sys2Proof.Machine.execMttask f s
  | .trapi f => Sys2Proof.Machine.execTrapi f s
  | .rft => Sys2Proof.Machine.execRft s
  | .br f => Sys2Proof.Machine.execBr f s
  | .call f => Sys2Proof.Machine.execCall f s
  | .bri f => Sys2Proof.Machine.execBri f s
  | .calli f => Sys2Proof.Machine.execCalli f s
  | .ret f => Sys2Proof.Machine.execRet f s
  | .loop f => Sys2Proof.Machine.execLoop f s
  | .linc f => Sys2Proof.Machine.execLinc f s
  | .lexit f => Sys2Proof.Machine.execLexit f s
  | .rot f => Sys2Proof.Machine.execRot f s
  | .barr f => Sys2Proof.Machine.execBarr f s
  | .bwait f => Sys2Proof.Machine.execBwait f s
  | .bsync f => Sys2Proof.Machine.execBsync f s
  | .phase f => Sys2Proof.Machine.execPhase f s
  | .phaseRg f => Sys2Proof.Machine.execPhaseRg f s
  | .halt f => Sys2Proof.Machine.execHalt f s
  | .vaddF32 f => Sys2Proof.Machine.execVaddF32 f s
  | .vaddF16 f => Sys2Proof.Machine.execVaddF16 f s
  | .vaddBf16 f => Sys2Proof.Machine.execVaddBf16 f s
  | .vsubF32 f => Sys2Proof.Machine.execVsubF32 f s
  | .vsubF16 f => Sys2Proof.Machine.execVsubF16 f s
  | .vsubBf16 f => Sys2Proof.Machine.execVsubBf16 f s
  | .vmulF32 f => Sys2Proof.Machine.execVmulF32 f s
  | .vmulF16 f => Sys2Proof.Machine.execVmulF16 f s
  | .vmulBf16 f => Sys2Proof.Machine.execVmulBf16 f s
  | .vfmaF32 f => Sys2Proof.Machine.execVfmaF32 f s
  | .vfmaF16 f => Sys2Proof.Machine.execVfmaF16 f s
  | .vfmaBf16 f => Sys2Proof.Machine.execVfmaBf16 f s
  | .vminF32 f => Sys2Proof.Machine.execVminF32 f s
  | .vminF16 f => Sys2Proof.Machine.execVminF16 f s
  | .vminBf16 f => Sys2Proof.Machine.execVminBf16 f s
  | .vmaxF32 f => Sys2Proof.Machine.execVmaxF32 f s
  | .vmaxF16 f => Sys2Proof.Machine.execVmaxF16 f s
  | .vmaxBf16 f => Sys2Proof.Machine.execVmaxBf16 f s
  | .viaddI32 f => Sys2Proof.Machine.execViaddI32 f s
  | .viaddI16 f => Sys2Proof.Machine.execViaddI16 f s
  | .viaddI8 f => Sys2Proof.Machine.execViaddI8 f s
  | .visubI32 f => Sys2Proof.Machine.execVisubI32 f s
  | .visubI16 f => Sys2Proof.Machine.execVisubI16 f s
  | .visubI8 f => Sys2Proof.Machine.execVisubI8 f s
  | .vimulI32 f => Sys2Proof.Machine.execVimulI32 f s
  | .vimulI16 f => Sys2Proof.Machine.execVimulI16 f s
  | .vimulI8 f => Sys2Proof.Machine.execVimulI8 f s
  | .viminI32 f => Sys2Proof.Machine.execViminI32 f s
  | .viminI16 f => Sys2Proof.Machine.execViminI16 f s
  | .viminI8 f => Sys2Proof.Machine.execViminI8 f s
  | .vimaxI32 f => Sys2Proof.Machine.execVimaxI32 f s
  | .vimaxI16 f => Sys2Proof.Machine.execVimaxI16 f s
  | .vimaxI8 f => Sys2Proof.Machine.execVimaxI8 f s
  | .vand f => Sys2Proof.Machine.execVand f s
  | .vor f => Sys2Proof.Machine.execVor f s
  | .vxor f => Sys2Proof.Machine.execVxor f s
  | .vandn f => Sys2Proof.Machine.execVandn f s
  | .vshl f => Sys2Proof.Machine.execVshl f s
  | .vshr f => Sys2Proof.Machine.execVshr f s
  | .vsra f => Sys2Proof.Machine.execVsra f s
  | .vsel f => Sys2Proof.Machine.execVsel f s
  | .vperm f => Sys2Proof.Machine.execVperm f s
  | .vbcst f => Sys2Proof.Machine.execVbcst f s
  | .vredAddF32 f => Sys2Proof.Machine.execVredAddF32 f s
  | .vredMaxF32 f => Sys2Proof.Machine.execVredMaxF32 f s
  | .vredMinF32 f => Sys2Proof.Machine.execVredMinF32 f s
  | .vredAddI32 f => Sys2Proof.Machine.execVredAddI32 f s
  | .vredMaxI32 f => Sys2Proof.Machine.execVredMaxI32 f s
  | .vredMinI32 f => Sys2Proof.Machine.execVredMinI32 f s
  | .vexp2 f => Sys2Proof.Machine.execVexp2 f s
  | .vlog2 f => Sys2Proof.Machine.execVlog2 f s
  | .vrcp f => Sys2Proof.Machine.execVrcp f s
  | .vrsq f => Sys2Proof.Machine.execVrsq f s
  | .vflg f => Sys2Proof.Machine.execVflg f s
  | .vmov f => Sys2Proof.Machine.execVmov f s
  | .vcvt f => Sys2Proof.Machine.execVcvt f s
  | .vcvts f => Sys2Proof.Machine.execVcvts f s
  | .vbmax f => Sys2Proof.Machine.execVbmax f s
  | .vbcvt f => Sys2Proof.Machine.execVbcvt f s
  | .vqdual f => Sys2Proof.Machine.execVqdual f s
  | .vdq f => Sys2Proof.Machine.execVdq f s
  | .vstr f => Sys2Proof.Machine.execVstr f s
  | .vstw f => Sys2Proof.Machine.execVstw f s
  | .vfcmpeq f => Sys2Proof.Machine.execVfcmpeq f s
  | .vfcmpne f => Sys2Proof.Machine.execVfcmpne f s
  | .vfcmplt f => Sys2Proof.Machine.execVfcmplt f s
  | .vfcmple f => Sys2Proof.Machine.execVfcmple f s
  | .vfcmpun f => Sys2Proof.Machine.execVfcmpun f s
  | .vicmpeq f => Sys2Proof.Machine.execVicmpeq f s
  | .vicmpne f => Sys2Proof.Machine.execVicmpne f s
  | .vicmplt f => Sys2Proof.Machine.execVicmplt f s
  | .vicmple f => Sys2Proof.Machine.execVicmple f s
  | .vicmpltu f => Sys2Proof.Machine.execVicmpltu f s
  | .vicmpleu f => Sys2Proof.Machine.execVicmpleu f s
  | .mldw f => Sys2Proof.Machine.execMldw f s
  | .mldwb f => Sys2Proof.Machine.execMldwb f s
  | .mswap f => Sys2Proof.Machine.execMswap f s
  | .mstream f => Sys2Proof.Machine.execMstream f s
  | .mstreamb f => Sys2Proof.Machine.execMstreamb f s
  | .mclr f => Sys2Proof.Machine.execMclr f s
  | .msetp f => Sys2Proof.Machine.execMsetp f s
  | .mdrain f => Sys2Proof.Machine.execMdrain f s
  | .mflg f => Sys2Proof.Machine.execMflg f s
  | .mclrf f => Sys2Proof.Machine.execMclrf f s
  | .ldw f => Sys2Proof.Machine.execLdw f s
  | .ldwReg f => Sys2Proof.Machine.execLdwReg f s
  | .ldh f => Sys2Proof.Machine.execLdh f s
  | .ldhReg f => Sys2Proof.Machine.execLdhReg f s
  | .ldhu f => Sys2Proof.Machine.execLdhu f s
  | .ldhuReg f => Sys2Proof.Machine.execLdhuReg f s
  | .ldb f => Sys2Proof.Machine.execLdb f s
  | .ldbReg f => Sys2Proof.Machine.execLdbReg f s
  | .ldbu f => Sys2Proof.Machine.execLdbu f s
  | .ldbuReg f => Sys2Proof.Machine.execLdbuReg f s
  | .stw f => Sys2Proof.Machine.execStw f s
  | .stwReg f => Sys2Proof.Machine.execStwReg f s
  | .sth f => Sys2Proof.Machine.execSth f s
  | .sthReg f => Sys2Proof.Machine.execSthReg f s
  | .stb f => Sys2Proof.Machine.execStb f s
  | .stbReg f => Sys2Proof.Machine.execStbReg f s
  | .vldV0 f => Sys2Proof.Machine.execVldV0 f s
  | .vldV0Reg f => Sys2Proof.Machine.execVldV0Reg f s
  | .vldV1 f => Sys2Proof.Machine.execVldV1 f s
  | .vldV1Reg f => Sys2Proof.Machine.execVldV1Reg f s
  | .vstV0 f => Sys2Proof.Machine.execVstV0 f s
  | .vstV0Reg f => Sys2Proof.Machine.execVstV0Reg f s
  | .vstV1 f => Sys2Proof.Machine.execVstV1 f s
  | .vstV1Reg f => Sys2Proof.Machine.execVstV1Reg f s
  | .vgthV0 f => Sys2Proof.Machine.execVgthV0 f s
  | .vgthV1 f => Sys2Proof.Machine.execVgthV1 f s
  | .vsctV0 f => Sys2Proof.Machine.execVsctV0 f s
  | .vsctV1 f => Sys2Proof.Machine.execVsctV1 f s
  | .qpushV0 f => Sys2Proof.Machine.execQpushV0 f s
  | .qpushV1 f => Sys2Proof.Machine.execQpushV1 f s
  | .qpopV0 f => Sys2Proof.Machine.execQpopV0 f s
  | .qpopV1 f => Sys2Proof.Machine.execQpopV1 f s
  | .spadd f => Sys2Proof.Machine.execSpadd f s
  | .spaddReg f => Sys2Proof.Machine.execSpaddReg f s
  | .spmax f => Sys2Proof.Machine.execSpmax f s
  | .spmaxReg f => Sys2Proof.Machine.execSpmaxReg f s
  | .spswp f => Sys2Proof.Machine.execSpswp f s
  | .spswpReg f => Sys2Proof.Machine.execSpswpReg f s
  | .cpyld f => Sys2Proof.Machine.execCpyld f s
  | .cpygo f => Sys2Proof.Machine.execCpygo f s
  | .cpystat f => Sys2Proof.Machine.execCpystat f s
  | .vbcpySs f => Sys2Proof.Machine.execVbcpySs f s
  | .vbcpyBs f => Sys2Proof.Machine.execVbcpyBs f s
  | .vbcpySb f => Sys2Proof.Machine.execVbcpySb f s
  | .wbzero f => Sys2Proof.Machine.execWbzero f s
  | .wbcopy f => Sys2Proof.Machine.execWbcopy f s
  | .wbcmp f => Sys2Proof.Machine.execWbcmp f s
  | .wbfence f => Sys2Proof.Machine.execWbfence f s
  | .lupd f => Sys2Proof.Machine.execLupd f s
  | .wbtag f => Sys2Proof.Machine.execWbtag f s
  | .tload f => Sys2Proof.Machine.execTload f s
  | .tstore f => Sys2Proof.Machine.execTstore f s
  | .tloadz f => Sys2Proof.Machine.execTloadz f s
  | .gacq f => Sys2Proof.Machine.execGacq f s
  | .gacqX f => Sys2Proof.Machine.execGacqX f s
  | .gacqS f => Sys2Proof.Machine.execGacqS f s
  | .grel f => Sys2Proof.Machine.execGrel f s
  | .grelX f => Sys2Proof.Machine.execGrelX f s
  | .grelS f => Sys2Proof.Machine.execGrelS f s
  | .fadd f => Sys2Proof.Machine.execFadd f s
  | .fcas f => Sys2Proof.Machine.execFcas f s
  | .fswap f => Sys2Proof.Machine.execFswap f s
  | .nmsadd f => Sys2Proof.Machine.execNmsadd f s
  | .nmsgd f => Sys2Proof.Machine.execNmsgd f s
  | .nmzero f => Sys2Proof.Machine.execNmzero f s
  | .nmcopy f => Sys2Proof.Machine.execNmcopy f s
  | .nmcmp f => Sys2Proof.Machine.execNmcmp f s
  | .nmfence f => Sys2Proof.Machine.execNmfence f s
  | .bkalloc f => Sys2Proof.Machine.execBkalloc f s
  | .bkxlat f => Sys2Proof.Machine.execBkxlat f s
  | .bkshare f => Sys2Proof.Machine.execBkshare f s
  | .bkfree f => Sys2Proof.Machine.execBkfree f s
  | .bkload f => Sys2Proof.Machine.execBkload f s
  | .bkstore f => Sys2Proof.Machine.execBkstore f s
  | .fstat f => Sys2Proof.Machine.execFstat f s
  | .collAr f => Sys2Proof.Machine.execCollAr f s
  | .collRs f => Sys2Proof.Machine.execCollRs f s
  | .collAg f => Sys2Proof.Machine.execCollAg f s
  | .collBc f => Sys2Proof.Machine.execCollBc f s
  | .ccancel f => Sys2Proof.Machine.execCcancel f s
  | .cstat f => Sys2Proof.Machine.execCstat f s
  | .cpld f => Sys2Proof.Machine.execCpld f s
  | .xsend f => Sys2Proof.Machine.execXsend f s
  | .xrecv f => Sys2Proof.Machine.execXrecv f s
  | .xfwd f => Sys2Proof.Machine.execXfwd f s
  | .fsend f => Sys2Proof.Machine.execFsend f s
  | .frecv f => Sys2Proof.Machine.execFrecv f s
  | .resultVisible => Sys2Proof.Machine.execResultVisible s
  | .c0WriteApplied => Sys2Proof.Machine.execC0WriteApplied s
  | .vbcvtLateRead => Sys2Proof.Machine.execVbcvtLateRead s
  | .rollback => Sys2Proof.Machine.execRollback s
  | .serviceHandlerEntry => Sys2Proof.Machine.execServiceHandlerEntry s
  | .bank0Resume => Sys2Proof.Machine.execBank0Resume s
  | .checkpointCommit => Sys2Proof.Machine.execCheckpointCommit s
  | .dataError => Sys2Proof.Machine.execDataError s
  | .rerunCompare => Sys2Proof.Machine.execRerunCompare s
  | .loopBack => Sys2Proof.Machine.execLoopBack s
  | .arrivalPropagate => Sys2Proof.Machine.execArrivalPropagate s
  | .barrierComplete => Sys2Proof.Machine.execBarrierComplete s
  | .streamVectorBegin => Sys2Proof.Machine.execStreamVectorBegin s
  | .lineSumAdd => Sys2Proof.Machine.execLineSumAdd s
  | .streamRetire => Sys2Proof.Machine.execStreamRetire s
  | .planeRowWrite => Sys2Proof.Machine.execPlaneRowWrite s
  | .planeLoadComplete => Sys2Proof.Machine.execPlaneLoadComplete s
  | .tileOpComplete => Sys2Proof.Machine.execTileOpComplete s
  | .drainRowWrite => Sys2Proof.Machine.execDrainRowWrite s
  | .drainComplete => Sys2Proof.Machine.execDrainComplete s
  | .busBeat => Sys2Proof.Machine.execBusBeat s
  | .busCopyRequest => Sys2Proof.Machine.execBusCopyRequest s
  | .copyStart => Sys2Proof.Machine.execCopyStart s
  | .copyBeat => Sys2Proof.Machine.execCopyBeat s
  | .copyComplete => Sys2Proof.Machine.execCopyComplete s
  | .copyRestart => Sys2Proof.Machine.execCopyRestart s
  | .multicastLand => Sys2Proof.Machine.execMulticastLand s
  | .vbSlotsTakeEffect => Sys2Proof.Machine.execVbSlotsTakeEffect s
  | .cpldComplete => Sys2Proof.Machine.execCpldComplete s
  | .tvmapUpdate => Sys2Proof.Machine.execTvmapUpdate s
  | .bankOpStart => Sys2Proof.Machine.execBankOpStart s
  | .lupdGradientBeat => Sys2Proof.Machine.execLupdGradientBeat s
  | .lupdRowUpdate => Sys2Proof.Machine.execLupdRowUpdate s
  | .bankOpEnd => Sys2Proof.Machine.execBankOpEnd s
  | .wbfenceRelease => Sys2Proof.Machine.execWbfenceRelease s
  | .busWireFailure => Sys2Proof.Machine.execBusWireFailure s
  | .busWireRepairStart => Sys2Proof.Machine.execBusWireRepairStart s
  | .busWireRepairEnd => Sys2Proof.Machine.execBusWireRepairEnd s
  | .phaseArrival => Sys2Proof.Machine.execPhaseArrival s
  | .boundaryComplete => Sys2Proof.Machine.execBoundaryComplete s
  | .phaseCounterAdvance => Sys2Proof.Machine.execPhaseCounterAdvance s
  | .superstepStart => Sys2Proof.Machine.execSuperstepStart s
  | .emptyBoundary => Sys2Proof.Machine.execEmptyBoundary s
  | .stragglerDeadline => Sys2Proof.Machine.execStragglerDeadline s
  | .stragglerStopComplete => Sys2Proof.Machine.execStragglerStopComplete s
  | .meshFlitDepart => Sys2Proof.Machine.execMeshFlitDepart s
  | .meshFlitArrive => Sys2Proof.Machine.execMeshFlitArrive s
  | .farRequestSend => Sys2Proof.Machine.execFarRequestSend s
  | .tileTransferComplete => Sys2Proof.Machine.execTileTransferComplete s
  | .taggedStoreAtGuard => Sys2Proof.Machine.execTaggedStoreAtGuard s
  | .gacqAtGuard => Sys2Proof.Machine.execGacqAtGuard s
  | .grelAtGuard => Sys2Proof.Machine.execGrelAtGuard s
  | .atomicAtMemory => Sys2Proof.Machine.execAtomicAtMemory s
  | .dupCopyAck => Sys2Proof.Machine.execDupCopyAck s
  | .nmCommandAtNmu => Sys2Proof.Machine.execNmCommandAtNmu s
  | .nmLineStep => Sys2Proof.Machine.execNmLineStep s
  | .nmCommandComplete => Sys2Proof.Machine.execNmCommandComplete s
  | .nmfenceComplete => Sys2Proof.Machine.execNmfenceComplete s
  | .brambleDirectoryOp => Sys2Proof.Machine.execBrambleDirectoryOp s
  | .brambleComplete => Sys2Proof.Machine.execBrambleComplete s
  | .blockReturnToPool => Sys2Proof.Machine.execBlockReturnToPool s
  | .tloadzComplete => Sys2Proof.Machine.execTloadzComplete s
  | .segmentMoveComplete => Sys2Proof.Machine.execSegmentMoveComplete s
  | .deviceCheckpointStart => Sys2Proof.Machine.execDeviceCheckpointStart s
  | .deviceCheckpointCommit => Sys2Proof.Machine.execDeviceCheckpointCommit s
  | .registerWrite => Sys2Proof.Machine.execRegisterWrite s
  | .ownClaim => Sys2Proof.Machine.execOwnClaim s
  | .ownBeat => Sys2Proof.Machine.execOwnBeat s
  | .denyClear => Sys2Proof.Machine.execDenyClear s
  | .ownerLeaseExpiry => Sys2Proof.Machine.execOwnerLeaseExpiry s
  | .handoverWindowExpiry => Sys2Proof.Machine.execHandoverWindowExpiry s
  | .submit => Sys2Proof.Machine.execSubmit s
  | .preempt => Sys2Proof.Machine.execPreempt s
  | .resume => Sys2Proof.Machine.execResume s
  | .discard => Sys2Proof.Machine.execDiscard s
  | .hgacq => Sys2Proof.Machine.execHgacq s
  | .hgrel => Sys2Proof.Machine.execHgrel s
  | .gfree => Sys2Proof.Machine.execGfree s
  | .logread => Sys2Proof.Machine.execLogread s
  | .ckpt => Sys2Proof.Machine.execCkpt s
  | .restore => Sys2Proof.Machine.execRestore s
  | .bkpool => Sys2Proof.Machine.execBkpool s
  | .handover => Sys2Proof.Machine.execHandover s
  | .attest => Sys2Proof.Machine.execAttest s
  | .unknownCommand => Sys2Proof.Machine.execUnknownCommand s
  | .powerOnReset => Sys2Proof.Machine.execPowerOnReset s
  | .packageReset => Sys2Proof.Machine.execPackageReset s
  | .bootComplete => Sys2Proof.Machine.execBootComplete s
  | .firmwareWrite => Sys2Proof.Machine.execFirmwareWrite s
  | .thermalThrottle => Sys2Proof.Machine.execThermalThrottle s
  | .thermalTrip => Sys2Proof.Machine.execThermalTrip s
  | .podBoot => Sys2Proof.Machine.execPodBoot s
  | .linkFlitDelivery => Sys2Proof.Machine.execLinkFlitDelivery s
  | .linkDown => Sys2Proof.Machine.execLinkDown s
  | .linkTraining => Sys2Proof.Machine.execLinkTraining s
  | .fabricFlitDepart => Sys2Proof.Machine.execFabricFlitDepart s
  | .fabricFlitArrive => Sys2Proof.Machine.execFabricFlitArrive s
  | .creditReturn => Sys2Proof.Machine.execCreditReturn s
  | .remoteMemoryHop => Sys2Proof.Machine.execRemoteMemoryHop s
  | .channelMessageReceive => Sys2Proof.Machine.execChannelMessageReceive s
  | .channelRetransmit => Sys2Proof.Machine.execChannelRetransmit s
  | .collRequestAtPrimary => Sys2Proof.Machine.execCollRequestAtPrimary s
  | .grantReceived => Sys2Proof.Machine.execGrantReceived s
  | .collectiveStart => Sys2Proof.Machine.execCollectiveStart s
  | .collectiveComplete => Sys2Proof.Machine.execCollectiveComplete s
  | .cancelAtPrimary => Sys2Proof.Machine.execCancelAtPrimary s
  | .voidCollectiveComplete => Sys2Proof.Machine.execVoidCollectiveComplete s
  | .heartbeat => Sys2Proof.Machine.execHeartbeat s
  | .failover => Sys2Proof.Machine.execFailover s
  | .collectRequest => Sys2Proof.Machine.execCollectRequest s
  | .numberingResume => Sys2Proof.Machine.execNumberingResume s

end Sys2Proof.Machine
end

