-- ==== Sys2Proof/Machine/Stall.lean ====
section
/-! DEFINITION. What holds a bundle back before it issues: the decode traps that look at the bank and the superstep, and
the three interlocks (03_core_state.md R81; 04_core_encoding.md R98, R106, R107; 07_core_matrix.md R164, R166;
08_core_local_memory.md R185; 09_core_faults.md R207; 11_column.md R226; 12_die_supersteps.md R244, R253;
19_fabric.md R343, R344). -/

namespace Sys2Proof.Machine

/-! ### Guards -/

/-- The scalar guard field of an instruction: negate and predicate; none where it has none, or a GS field. -/
def guardOf : Instr → Option (Bool × BitVec 4)
  | .nop => none
  | .iadd f => some (f.gn, f.g)
  | .isub f => some (f.gn, f.g)
  | .imul f => some (f.gn, f.g)
  | .imulh f => some (f.gn, f.g)
  | .imulhu f => some (f.gn, f.g)
  | .and f => some (f.gn, f.g)
  | .or f => some (f.gn, f.g)
  | .xor f => some (f.gn, f.g)
  | .andn f => some (f.gn, f.g)
  | .shl f => some (f.gn, f.g)
  | .shr f => some (f.gn, f.g)
  | .sra f => some (f.gn, f.g)
  | .rotl f => some (f.gn, f.g)
  | .min f => some (f.gn, f.g)
  | .max f => some (f.gn, f.g)
  | .minu f => some (f.gn, f.g)
  | .maxu f => some (f.gn, f.g)
  | .shadd1 f => some (f.gn, f.g)
  | .shadd2 f => some (f.gn, f.g)
  | .shadd3 f => some (f.gn, f.g)
  | .clz f => some (f.gn, f.g)
  | .popc f => some (f.gn, f.g)
  | .mov f => some (f.gn, f.g)
  | .sel f => some (f.gn, f.g)
  | .iadds f => some (f.gn, f.g)
  | .isubs f => some (f.gn, f.g)
  | .cmpeq f => some (false, f.g.zeroExtend 4)
  | .cmpne f => some (false, f.g.zeroExtend 4)
  | .cmplt f => some (false, f.g.zeroExtend 4)
  | .cmple f => some (false, f.g.zeroExtend 4)
  | .cmpltu f => some (false, f.g.zeroExtend 4)
  | .cmpleu f => some (false, f.g.zeroExtend 4)
  | .cmpbit f => some (false, f.g.zeroExtend 4)
  | .mfc f => some (f.gn, f.g)
  | .mtc f => some (f.gn, f.g)
  | .mfp f => some (f.gn, f.g)
  | .mtp f => some (f.gn, f.g)
  | .mfb f => some (f.gn, f.g)
  | .mtb f => some (f.gn, f.g)
  | .mfq f => some (f.gn, f.g)
  | .mtq f => some (f.gn, f.g)
  | .mftask f => some (f.gn, f.g)
  | .mttask f => some (f.gn, f.g)
  | .trapi f => some (f.gn, f.g)
  | .rft => none
  | .br f => some (f.gn, f.g)
  | .call f => some (f.gn, f.g)
  | .bri f => some (f.gn, f.g)
  | .calli f => some (f.gn, f.g)
  | .ret f => some (f.gn, f.g)
  | .loop f => some (f.gn, f.g)
  | .linc f => some (f.gn, f.g)
  | .lexit f => some (f.gn, f.g)
  | .rot f => some (f.gn, f.g)
  | .barr f => some (f.gn, f.g)
  | .bwait f => some (f.gn, f.g)
  | .bsync f => some (f.gn, f.g)
  | .phase f => some (f.gn, f.g)
  | .phaseRg f => some (f.gn, f.g)
  | .halt f => some (f.gn, f.g)
  | .vaddF32 _ => none
  | .vaddF16 _ => none
  | .vaddBf16 _ => none
  | .vsubF32 _ => none
  | .vsubF16 _ => none
  | .vsubBf16 _ => none
  | .vmulF32 _ => none
  | .vmulF16 _ => none
  | .vmulBf16 _ => none
  | .vfmaF32 _ => none
  | .vfmaF16 _ => none
  | .vfmaBf16 _ => none
  | .vminF32 _ => none
  | .vminF16 _ => none
  | .vminBf16 _ => none
  | .vmaxF32 _ => none
  | .vmaxF16 _ => none
  | .vmaxBf16 _ => none
  | .viaddI32 _ => none
  | .viaddI16 _ => none
  | .viaddI8 _ => none
  | .visubI32 _ => none
  | .visubI16 _ => none
  | .visubI8 _ => none
  | .vimulI32 _ => none
  | .vimulI16 _ => none
  | .vimulI8 _ => none
  | .viminI32 _ => none
  | .viminI16 _ => none
  | .viminI8 _ => none
  | .vimaxI32 _ => none
  | .vimaxI16 _ => none
  | .vimaxI8 _ => none
  | .vand _ => none
  | .vor _ => none
  | .vxor _ => none
  | .vandn _ => none
  | .vshl _ => none
  | .vshr _ => none
  | .vsra _ => none
  | .vsel _ => none
  | .vperm _ => none
  | .vbcst _ => none
  | .vredAddF32 _ => none
  | .vredMaxF32 _ => none
  | .vredMinF32 _ => none
  | .vredAddI32 _ => none
  | .vredMaxI32 _ => none
  | .vredMinI32 _ => none
  | .vexp2 _ => none
  | .vlog2 _ => none
  | .vrcp _ => none
  | .vrsq _ => none
  | .vflg _ => none
  | .vmov _ => none
  | .vcvt _ => none
  | .vcvts _ => none
  | .vbmax _ => none
  | .vbcvt _ => none
  | .vqdual _ => none
  | .vdq _ => none
  | .vstr _ => none
  | .vstw _ => none
  | .vfcmpeq f => some (false, f.g.zeroExtend 4)
  | .vfcmpne f => some (false, f.g.zeroExtend 4)
  | .vfcmplt f => some (false, f.g.zeroExtend 4)
  | .vfcmple f => some (false, f.g.zeroExtend 4)
  | .vfcmpun f => some (false, f.g.zeroExtend 4)
  | .vicmpeq f => some (false, f.g.zeroExtend 4)
  | .vicmpne f => some (false, f.g.zeroExtend 4)
  | .vicmplt f => some (false, f.g.zeroExtend 4)
  | .vicmple f => some (false, f.g.zeroExtend 4)
  | .vicmpltu f => some (false, f.g.zeroExtend 4)
  | .vicmpleu f => some (false, f.g.zeroExtend 4)
  | .mldw f => some (f.gn, f.g)
  | .mldwb f => some (f.gn, f.g)
  | .mswap f => some (f.gn, f.g)
  | .mstream f => some (f.gn, f.g)
  | .mstreamb f => some (f.gn, f.g)
  | .mclr f => some (f.gn, f.g)
  | .msetp f => some (f.gn, f.g)
  | .mdrain f => some (f.gn, f.g)
  | .mflg f => some (f.gn, f.g)
  | .mclrf f => some (f.gn, f.g)
  | .ldw f => some (f.gn, f.g)
  | .ldwReg f => some (f.gn, f.g)
  | .ldh f => some (f.gn, f.g)
  | .ldhReg f => some (f.gn, f.g)
  | .ldhu f => some (f.gn, f.g)
  | .ldhuReg f => some (f.gn, f.g)
  | .ldb f => some (f.gn, f.g)
  | .ldbReg f => some (f.gn, f.g)
  | .ldbu f => some (f.gn, f.g)
  | .ldbuReg f => some (f.gn, f.g)
  | .stw f => some (f.gn, f.g)
  | .stwReg f => some (f.gn, f.g)
  | .sth f => some (f.gn, f.g)
  | .sthReg f => some (f.gn, f.g)
  | .stb f => some (f.gn, f.g)
  | .stbReg f => some (f.gn, f.g)
  | .vldV0 f => some (f.gn, f.g)
  | .vldV0Reg f => some (f.gn, f.g)
  | .vldV1 f => some (f.gn, f.g)
  | .vldV1Reg f => some (f.gn, f.g)
  | .vstV0 f => some (f.gn, f.g)
  | .vstV0Reg f => some (f.gn, f.g)
  | .vstV1 f => some (f.gn, f.g)
  | .vstV1Reg f => some (f.gn, f.g)
  | .vgthV0 f => some (f.gn, f.g)
  | .vgthV1 f => some (f.gn, f.g)
  | .vsctV0 f => some (f.gn, f.g)
  | .vsctV1 f => some (f.gn, f.g)
  | .qpushV0 f => some (f.gn, f.g)
  | .qpushV1 f => some (f.gn, f.g)
  | .qpopV0 f => some (f.gn, f.g)
  | .qpopV1 f => some (f.gn, f.g)
  | .spadd f => some (f.gn, f.g)
  | .spaddReg f => some (f.gn, f.g)
  | .spmax f => some (f.gn, f.g)
  | .spmaxReg f => some (f.gn, f.g)
  | .spswp f => some (f.gn, f.g)
  | .spswpReg f => some (f.gn, f.g)
  | .cpyld f => some (f.gn, f.g)
  | .cpygo f => some (f.gn, f.g)
  | .cpystat f => some (f.gn, f.g)
  | .vbcpySs f => some (f.gn, f.g)
  | .vbcpyBs f => some (f.gn, f.g)
  | .vbcpySb f => some (f.gn, f.g)
  | .wbzero f => some (f.gn, f.g)
  | .wbcopy f => some (f.gn, f.g)
  | .wbcmp f => some (f.gn, f.g)
  | .wbfence f => some (f.gn, f.g)
  | .lupd f => some (f.gn, f.g)
  | .wbtag f => some (f.gn, f.g)
  | .tload f => some (f.gn, f.g)
  | .tstore f => some (f.gn, f.g)
  | .tloadz f => some (f.gn, f.g)
  | .gacq f => some (f.gn, f.g)
  | .gacqX f => some (f.gn, f.g)
  | .gacqS f => some (f.gn, f.g)
  | .grel f => some (f.gn, f.g)
  | .grelX f => some (f.gn, f.g)
  | .grelS f => some (f.gn, f.g)
  | .fadd f => some (f.gn, f.g)
  | .fcas f => some (f.gn, f.g)
  | .fswap f => some (f.gn, f.g)
  | .nmsadd f => some (f.gn, f.g)
  | .nmsgd f => some (f.gn, f.g)
  | .nmzero f => some (f.gn, f.g)
  | .nmcopy f => some (f.gn, f.g)
  | .nmcmp f => some (f.gn, f.g)
  | .nmfence f => some (f.gn, f.g)
  | .bkalloc f => some (f.gn, f.g)
  | .bkxlat f => some (f.gn, f.g)
  | .bkshare f => some (f.gn, f.g)
  | .bkfree f => some (f.gn, f.g)
  | .bkload f => some (f.gn, f.g)
  | .bkstore f => some (f.gn, f.g)
  | .fstat f => some (f.gn, f.g)
  | .collAr f => some (f.gn, f.g)
  | .collRs f => some (f.gn, f.g)
  | .collAg f => some (f.gn, f.g)
  | .collBc f => some (f.gn, f.g)
  | .ccancel f => some (f.gn, f.g)
  | .cstat f => some (f.gn, f.g)
  | .cpld f => some (f.gn, f.g)
  | .xsend f => some (f.gn, f.g)
  | .xrecv f => some (f.gn, f.g)
  | .xfwd f => some (f.gn, f.g)
  | .fsend f => some (f.gn, f.g)
  | .frecv f => some (f.gn, f.g)
  | .resultVisible => none
  | .c0WriteApplied => none
  | .vbcvtLateRead => none
  | .rollback => none
  | .serviceHandlerEntry => none
  | .bank0Resume => none
  | .checkpointCommit => none
  | .dataError => none
  | .rerunCompare => none
  | .loopBack => none
  | .arrivalPropagate => none
  | .barrierComplete => none
  | .streamVectorBegin => none
  | .lineSumAdd => none
  | .streamRetire => none
  | .planeRowWrite => none
  | .planeLoadComplete => none
  | .tileOpComplete => none
  | .drainRowWrite => none
  | .drainComplete => none
  | .busBeat => none
  | .busCopyRequest => none
  | .copyStart => none
  | .copyBeat => none
  | .copyComplete => none
  | .copyRestart => none
  | .multicastLand => none
  | .vbSlotsTakeEffect => none
  | .cpldComplete => none
  | .tvmapUpdate => none
  | .bankOpStart => none
  | .lupdGradientBeat => none
  | .lupdRowUpdate => none
  | .bankOpEnd => none
  | .wbfenceRelease => none
  | .busWireFailure => none
  | .busWireRepairStart => none
  | .busWireRepairEnd => none
  | .phaseArrival => none
  | .boundaryComplete => none
  | .phaseCounterAdvance => none
  | .superstepStart => none
  | .emptyBoundary => none
  | .stragglerDeadline => none
  | .stragglerStopComplete => none
  | .meshFlitDepart => none
  | .meshFlitArrive => none
  | .farRequestSend => none
  | .tileTransferComplete => none
  | .taggedStoreAtGuard => none
  | .gacqAtGuard => none
  | .grelAtGuard => none
  | .atomicAtMemory => none
  | .dupCopyAck => none
  | .nmCommandAtNmu => none
  | .nmLineStep => none
  | .nmCommandComplete => none
  | .nmfenceComplete => none
  | .brambleDirectoryOp => none
  | .brambleComplete => none
  | .blockReturnToPool => none
  | .tloadzComplete => none
  | .segmentMoveComplete => none
  | .deviceCheckpointStart => none
  | .deviceCheckpointCommit => none
  | .registerWrite => none
  | .ownClaim => none
  | .ownBeat => none
  | .denyClear => none
  | .ownerLeaseExpiry => none
  | .handoverWindowExpiry => none
  | .submit => none
  | .preempt => none
  | .resume => none
  | .discard => none
  | .hgacq => none
  | .hgrel => none
  | .gfree => none
  | .logread => none
  | .ckpt => none
  | .restore => none
  | .bkpool => none
  | .handover => none
  | .attest => none
  | .unknownCommand => none
  | .powerOnReset => none
  | .packageReset => none
  | .bootComplete => none
  | .firmwareWrite => none
  | .thermalThrottle => none
  | .thermalTrip => none
  | .podBoot => none
  | .linkFlitDelivery => none
  | .linkDown => none
  | .linkTraining => none
  | .fabricFlitDepart => none
  | .fabricFlitArrive => none
  | .creditReturn => none
  | .remoteMemoryHop => none
  | .channelMessageReceive => none
  | .channelRetransmit => none
  | .collRequestAtPrimary => none
  | .grantReceived => none
  | .collectiveStart => none
  | .collectiveComplete => none
  | .cancelAtPrimary => none
  | .voidCollectiveComplete => none
  | .heartbeat => none
  | .failover => none
  | .collectRequest => none
  | .numberingResume => none

/-- Whether an instruction's scalar guard lets it run; one without a guard runs. -/
def State.runs (s : State) (i : Instr) : Bool :=
  match guardOf i with
  | some (gn, g) => s.guard gn g
  | none => true

/-! ### The decode traps of bank and superstep (R107, R244) -/

/-- A form that bank 0 may not issue (R75, R106). -/
def bank1Form : Instr → Bool
  | .mftask _ => true
  | .mttask _ => true
  | .rft => true
  | .cpld _ => true
  | .mtc f => bank1Reg f.sel
  | _ => false

/-- A form of compute supersteps only (R244). -/
def computeForm : Instr → Bool
  | .mstream _ => true
  | .mstreamb _ => true
  | .mclr _ => true
  | .mdrain _ => true
  | _ => false

/-- A form of exchange supersteps only (R244). -/
def exchangeForm : Instr → Bool
  | .tload _ => true
  | .tstore _ => true
  | .tloadz _ => true
  | .gacq _ => true
  | .gacqX _ => true
  | .gacqS _ => true
  | .grel _ => true
  | .grelX _ => true
  | .grelS _ => true
  | .fadd _ => true
  | .fcas _ => true
  | .fswap _ => true
  | .nmsadd _ => true
  | .nmsgd _ => true
  | .nmzero _ => true
  | .nmcopy _ => true
  | .nmcmp _ => true
  | .nmfence _ => true
  | .bkalloc _ => true
  | .bkxlat _ => true
  | .bkshare _ => true
  | .bkfree _ => true
  | .bkload _ => true
  | .bkstore _ => true
  | .collAr _ => true
  | .collRs _ => true
  | .collAg _ => true
  | .collBc _ => true
  | .ccancel _ => true
  | .xsend _ => true
  | .xrecv _ => true
  | .xfwd _ => true
  | .fsend _ => true
  | .frecv _ => true
  | _ => false

/-- The lowest slot that holds a form of a kind. -/
def slotWith (p : Instr → Bool) (l : List (Slot × Instr)) : Option Slot := (l.find? fun x => p x.2).map (·.1)

/-- PRIV and PHASE_ILLEGAL, which follow the traps of the words themselves (R107): the slot and the cause. -/
def decodeTrap (bank1 compute : Bool) (l : List (Slot × Instr)) : Option (Slot × Nat) :=
  match (if bank1 then none else slotWith bank1Form l) with
  | some k => some (k, cPriv)
  | none => (slotWith (if compute then exchangeForm else computeForm) l).map fun k => (k, cPhaseIllegal)

/-! ### The tile scoreboard (R81) -/

/-- A form that takes a ring slot: at the tail, which waits for readers, or at the head, which waits for writers; the
ring; and whether the pointer moves. -/
structure RingTake where
  tail : Bool
  q : Nat
  adv : Bool
deriving DecidableEq, Repr

/-- The ring that a descriptor in the scratchpad names as the destination of a fill: DRING in bit 31 of a word and DQ in
[30:28]. -/
def State.fillTake (s : State) (a : BitVec 6) (word : Nat) : Option RingTake :=
  let a := (s.rs 0 a).toNat
  let w := BitVec.ofNat 32 (s.cur.sp.nat (a + 4 * word) 4)
  if decide (a + 64 ≤ 0x400000) && w.getLsbD 31 then some ⟨true, (w.extractLsb' 28 3).toNat, true⟩ else none

/-- A far-request entry is free (R270). -/
def Core.farRoom (c : Core) : Bool := decide (c.farHeld < 768)

/-- A copy can start: bank 0 issues it and the queue has room (R192, R196). -/
def Core.copyRoom (c : Core) : Bool := !c.cur && decide (c.seq.queue.length < 4)

/-- What an instruction takes of a ring: in the M and C0 slots whatever its guard (R162, R179), in the C1 slot with a true
guard. -/
def State.ringTake (s : State) (i : Instr) : Option RingTake :=
  let on := s.runs i
  match i with
  | .mldw f => some ⟨false, f.q.toNat, on⟩
  | .mstream f => some ⟨false, f.q.toNat, on⟩
  | .mstreamb f => some ⟨false, f.q.toNat, on⟩
  | .mdrain f => some ⟨true, f.q.toNat, on⟩
  | .qpushV0 f => some ⟨true, f.q.toNat, on && f.adv⟩
  | .qpushV1 f => some ⟨true, f.q.toNat, on && f.adv⟩
  | .qpopV0 f => some ⟨false, f.q.toNat, on && f.adv⟩
  | .qpopV1 f => some ⟨false, f.q.toNat, on && f.adv⟩
  | .cpygo _ =>
    let d := CopyDesc.ofBits s.cur.seq.staging
    if on && s.cur.seq.loaded && d.dring && s.cur.copyRoom then some ⟨true, d.dq.toNat, true⟩ else none
  | .vbcpyBs f => if on && s.cur.copyRoom then s.fillTake f.a 2 else none
  | .tload f => if on && s.cur.farRoom then s.fillTake f.a 2 else none
  | .bkload f => if on && s.cur.farRoom then s.fillTake f.a 4 else none
  | .tloadz f => if on && s.cur.farRoom then s.fillTake f.a 6 else none
  | _ => none

/-- A ring slot that a copy, a drain or a far load still fills (R81, R185). -/
def Core.writerBusy (c : Core) (x : RingSlot) : Bool :=
  c.seq.queue.any (fun y => y.slot == some x) || c.drains.any (fun y => y.slot == x) ||
  c.far.any fun y => !y.orphan && y.slot == some x

/-- A ring slot that a stream or a weight load still reads (R81, R164, R169). -/
def Core.readerBusy (c : Core) (x : RingSlot) : Bool :=
  c.streams.any (fun y => !y.retired && y.slot == x) ||
  c.loads.any fun y => y.slot == some x && decide (y.rows < 128)

/-- The slot a pointer names after n advances (R163). -/
def Ring.pointAfter (r : Ring) (p : Nat) : Nat → Nat
  | 0 => p
  | n + 1 => r.pointAfter (r.next p false).1 n

/-- A slot that the bundle takes is busy; earlier takers of the bundle have moved the pointers (R163). -/
def State.ringStall (s : State) : List (Slot × Instr) → List RingTake → Bool
  | [], _ => false
  | (_, i) :: rest, before =>
    match s.ringTake i with
    | none => s.ringStall rest before
    | some x =>
      let r := s.ring (BitVec.ofNat 3 x.q)
      let n := (before.filter fun y => y.adv && y.tail == x.tail && y.q == x.q).length
      let p := r.pointAfter (if x.tail then r.tail else r.head) n
      (if x.tail then s.cur.readerBusy ⟨s.cur.cur, x.q, p⟩ else s.cur.writerBusy ⟨s.cur.cur, x.q, p⟩) || s.ringStall rest (before ++ [x])

/-- A weight load waits: the shadow plane loads, or a wavefront of before the last swap uses it (R164). -/
def Core.shadowBusy (c : Core) : Bool :=
  c.loads.any (fun l => l.wp == !c.act) || c.streams.any fun x => x.plane == c.physOf (!c.act)

/-- The vertical bus does not let the core place a request now, failures aside (R226). -/
def State.busHeld (s : State) (k : Nat) : Bool :=
  let y := s.clkOf k
  let c := s.core k
  c.portBusy || decide (y < c.portFrom) || (s.col (colOf k)).slotOwner y != layerOf k

/-- The scoreboard and bus stalls of an M instruction, whatever its guard (R81, R162). -/
def State.matrixStall (s : State) (k : Nat) (i : Instr) : Bool :=
  let c := s.core k
  match i with
  | .mldw _ => c.shadowBusy
  | .mldwb _ => c.shadowBusy || s.busHeld k || (s.col (colOf k)).blocked
  | .mswap _ => !c.loads.isEmpty
  | .mstream f => c.tileBusy f.t.toNat
  | .mstreamb f => c.tileBusy f.t.toNat
  | .mclr f => c.tileBusy f.t.toNat
  | .msetp f => c.tileBusy f.t.toNat
  | .mdrain f => c.tileBusy f.t.toNat
  | .mflg f => c.tileBusy f.t.toNat
  | .mclrf f => c.tileBusy f.t.toNat
  | _ => false

/-- A PHASE that takes effect (R246). -/
def State.phaseRuns (s : State) (i : Instr) : Bool :=
  !s.cur.bank.loop.act &&
  match i with
  | .phase f => s.guard f.gn f.g
  | .phaseRg f => s.guard f.gn f.g
  | _ => false

/-- The FIFO interlock of an X instruction with a true guard (R253, R343, R344). -/
def State.fifoStall (s : State) (k : Nat) (i : Instr) : Bool :=
  s.runs i &&
  match i with
  | .xsend f => s.sendWaits k f.port.toNat (f.nf.toNat + 1)
  | .xrecv f => s.takeWaits k f.port.toNat (f.nf.toNat + 1)
  | .xfwd f =>
    s.takeWaits k f.port.toNat (f.nf.toNat + 1) ||
    ((s.meshPeer k f.port.toNat).isSome && s.sendWaits k f.port2.toNat (f.nf.toNat + 1))
  | .fsend f => s.fsendWaits k f.port.toNat (f.nf.toNat + 1)
  | .frecv f => s.frecvWaits k f.port.toNat (f.nf.toNat + 1)
  | _ => false

/-- A bundle stalls in this clock cycle (R81, R207). -/
def State.stalls (s : State) (k : Nat) (b : Bundle) : Bool :=
  s.ringStall b.slots [] || b.slots.any (fun x => s.matrixStall k x.2 || s.fifoStall k x.2) ||
  (!s.cur.cur && (b.header.ckp || b.slots.any fun x => s.phaseRuns x.2) && s.cur.matrixBusy)

/-- A weight load's request that only a bus failure or its repair holds off is late (R241). -/
def State.lateLoad (s : State) (k : Nat) (b : Bundle) : Bool :=
  b.slots.any fun x =>
    match x.2 with
    | .mldwb f => s.guard f.gn f.g && !s.cur.shadowBusy && !s.busHeld k && (s.col (colOf k)).blocked
    | _ => false

end Sys2Proof.Machine
end

