-- ==== Sys2Proof/Machine/Debug.lean ====
section
/-! DEFINITION. Debug mode: the pending bits of registers and scratchpad words, and the reads that raise EARLY_READ
(03_core_state.md R80; 06_core_vector.md R156; 08_core_local_memory.md R198). -/

namespace Sys2Proof.Machine

/-! ### The register sources of an instruction -/

/-- A register that an instruction reads: a scalar code, a bank 0 scalar (MFTASK), a vector code of a unit, a vector
predicate of a unit, or a vector code read late (VBCVT). -/
inductive Src where
  | s (r : BitVec 6)
  | s0 (r : BitVec 6)
  | v (unit : Bool) (r : BitVec 6)
  | vp (unit : Bool) (n : Nat)
  | late (unit : Bool) (r : BitVec 6)
deriving DecidableEq, Repr

/-- The predicate of a GS field (R89). -/
def gsSrc (u : Bool) (gs : BitVec 5) : List Src := if gs.toNat < 16 then [] else [.vp u (gs.toNat % 8)]

/-- The sources of format R. -/
def srcR (f : FmtR) : List Src := .s f.a :: (if f.x then [] else [.s f.b])

/-- The registers an instruction reads; `u` is the unit of a V slot. -/
def sources (u : Bool) : Instr → List Src
  | .nop => []
  | .iadd f => srcR f
  | .isub f => srcR f
  | .imul f => srcR f
  | .imulh f => srcR f
  | .imulhu f => srcR f
  | .and f => srcR f
  | .or f => srcR f
  | .xor f => srcR f
  | .andn f => srcR f
  | .shl f => srcR f
  | .shr f => srcR f
  | .sra f => srcR f
  | .rotl f => srcR f
  | .min f => srcR f
  | .max f => srcR f
  | .minu f => srcR f
  | .maxu f => srcR f
  | .shadd1 f => srcR f
  | .shadd2 f => srcR f
  | .shadd3 f => srcR f
  | .clz f => [.s f.a]
  | .popc f => [.s f.a]
  | .mov f => [.s f.a]
  | .sel f => srcR f
  | .iadds f => srcR f
  | .isubs f => srcR f
  | .cmpeq f => [.s f.a, .s f.b]
  | .cmpne f => [.s f.a, .s f.b]
  | .cmplt f => [.s f.a, .s f.b]
  | .cmple f => [.s f.a, .s f.b]
  | .cmpltu f => [.s f.a, .s f.b]
  | .cmpleu f => [.s f.a, .s f.b]
  | .cmpbit f => [.s f.a, .s f.b]
  | .mfc _ => []
  | .mtc f => [.s f.a]
  | .mfp _ => []
  | .mtp f => .s f.a :: (if f.x then [] else [.s f.b])
  | .mfb _ => []
  | .mtb f => [.s f.a]
  | .mfq _ => []
  | .mtq f => [.s f.a]
  | .mftask f => [.s0 f.n]
  | .mttask f => [.s f.a]
  | .trapi _ => []
  | .rft => []
  | .br _ => []
  | .call _ => []
  | .bri f => [.s f.a]
  | .calli f => [.s f.a]
  | .ret _ => [.s 47]
  | .loop f => [.s f.a]
  | .linc _ => []
  | .lexit _ => []
  | .rot _ => []
  | .barr _ => []
  | .bwait _ => []
  | .bsync _ => []
  | .phase _ => []
  | .phaseRg f => [.s f.a]
  | .halt _ => []
  | .vaddF32 f => gsSrc u f.gs ++ [.v u f.a, .v u f.b]
  | .vaddF16 f => gsSrc u f.gs ++ [.v u f.a, .v u f.b]
  | .vaddBf16 f => gsSrc u f.gs ++ [.v u f.a, .v u f.b]
  | .vsubF32 f => gsSrc u f.gs ++ [.v u f.a, .v u f.b]
  | .vsubF16 f => gsSrc u f.gs ++ [.v u f.a, .v u f.b]
  | .vsubBf16 f => gsSrc u f.gs ++ [.v u f.a, .v u f.b]
  | .vmulF32 f => gsSrc u f.gs ++ [.v u f.a, .v u f.b]
  | .vmulF16 f => gsSrc u f.gs ++ [.v u f.a, .v u f.b]
  | .vmulBf16 f => gsSrc u f.gs ++ [.v u f.a, .v u f.b]
  | .vfmaF32 f => gsSrc u f.gs ++ [.v u f.a, .v u f.b, .v u f.d]
  | .vfmaF16 f => gsSrc u f.gs ++ [.v u f.a, .v u f.b, .v u f.d]
  | .vfmaBf16 f => gsSrc u f.gs ++ [.v u f.a, .v u f.b, .v u f.d]
  | .vminF32 f => gsSrc u f.gs ++ [.v u f.a, .v u f.b]
  | .vminF16 f => gsSrc u f.gs ++ [.v u f.a, .v u f.b]
  | .vminBf16 f => gsSrc u f.gs ++ [.v u f.a, .v u f.b]
  | .vmaxF32 f => gsSrc u f.gs ++ [.v u f.a, .v u f.b]
  | .vmaxF16 f => gsSrc u f.gs ++ [.v u f.a, .v u f.b]
  | .vmaxBf16 f => gsSrc u f.gs ++ [.v u f.a, .v u f.b]
  | .viaddI32 f => gsSrc u f.gs ++ [.v u f.a, .v u f.b]
  | .viaddI16 f => gsSrc u f.gs ++ [.v u f.a, .v u f.b]
  | .viaddI8 f => gsSrc u f.gs ++ [.v u f.a, .v u f.b]
  | .visubI32 f => gsSrc u f.gs ++ [.v u f.a, .v u f.b]
  | .visubI16 f => gsSrc u f.gs ++ [.v u f.a, .v u f.b]
  | .visubI8 f => gsSrc u f.gs ++ [.v u f.a, .v u f.b]
  | .vimulI32 f => gsSrc u f.gs ++ [.v u f.a, .v u f.b]
  | .vimulI16 f => gsSrc u f.gs ++ [.v u f.a, .v u f.b]
  | .vimulI8 f => gsSrc u f.gs ++ [.v u f.a, .v u f.b]
  | .viminI32 f => gsSrc u f.gs ++ [.v u f.a, .v u f.b]
  | .viminI16 f => gsSrc u f.gs ++ [.v u f.a, .v u f.b]
  | .viminI8 f => gsSrc u f.gs ++ [.v u f.a, .v u f.b]
  | .vimaxI32 f => gsSrc u f.gs ++ [.v u f.a, .v u f.b]
  | .vimaxI16 f => gsSrc u f.gs ++ [.v u f.a, .v u f.b]
  | .vimaxI8 f => gsSrc u f.gs ++ [.v u f.a, .v u f.b]
  | .vand f => gsSrc u f.gs ++ [.v u f.a, .v u f.b]
  | .vor f => gsSrc u f.gs ++ [.v u f.a, .v u f.b]
  | .vxor f => gsSrc u f.gs ++ [.v u f.a, .v u f.b]
  | .vandn f => gsSrc u f.gs ++ [.v u f.a, .v u f.b]
  | .vshl f => gsSrc u f.gs ++ [.v u f.a, .v u f.b]
  | .vshr f => gsSrc u f.gs ++ [.v u f.a, .v u f.b]
  | .vsra f => gsSrc u f.gs ++ [.v u f.a, .v u f.b]
  | .vsel f => gsSrc u f.gs ++ [.v u f.a, .v u f.d, .vp u f.n.toNat]
  | .vperm f => gsSrc u f.gs ++ [.v u f.a, .v u f.b]
  | .vbcst f => gsSrc u f.gs ++ [.v u f.a, .v u f.b]
  | .vredAddF32 f => gsSrc u f.gs ++ [.v u f.a]
  | .vredMaxF32 f => gsSrc u f.gs ++ [.v u f.a]
  | .vredMinF32 f => gsSrc u f.gs ++ [.v u f.a]
  | .vredAddI32 f => gsSrc u f.gs ++ [.v u f.a]
  | .vredMaxI32 f => gsSrc u f.gs ++ [.v u f.a]
  | .vredMinI32 f => gsSrc u f.gs ++ [.v u f.a]
  | .vexp2 f => gsSrc u f.gs ++ [.v u f.a]
  | .vlog2 f => gsSrc u f.gs ++ [.v u f.a]
  | .vrcp f => gsSrc u f.gs ++ [.v u f.a]
  | .vrsq f => gsSrc u f.gs ++ [.v u f.a]
  | .vflg f => gsSrc u f.gs
  | .vmov f => gsSrc u f.gs ++ [.v u f.a]
  | .vcvt f => [.v u f.a]
  | .vcvts f => [.v u f.a]
  | .vbmax f => [.v u f.a]
  | .vbcvt f => [.v u f.a, .late u f.b]
  | .vqdual f => [.v u f.a, .v u (f.a + 1), .v u (f.a + 2), .v u (f.a + 3)]
  | .vdq f => [.v u f.a, .v u f.b]
  | .vstr _ => []
  | .vstw f => [.v u f.v]
  | .vfcmpeq f => [.v u f.a, .v u f.b]
  | .vfcmpne f => [.v u f.a, .v u f.b]
  | .vfcmplt f => [.v u f.a, .v u f.b]
  | .vfcmple f => [.v u f.a, .v u f.b]
  | .vfcmpun f => [.v u f.a, .v u f.b]
  | .vicmpeq f => [.v u f.a, .v u f.b]
  | .vicmpne f => [.v u f.a, .v u f.b]
  | .vicmplt f => [.v u f.a, .v u f.b]
  | .vicmple f => [.v u f.a, .v u f.b]
  | .vicmpltu f => [.v u f.a, .v u f.b]
  | .vicmpleu f => [.v u f.a, .v u f.b]
  | .mldw _ => []
  | .mldwb _ => []
  | .mswap _ => []
  | .mstream _ => []
  | .mstreamb _ => []
  | .mclr _ => []
  | .msetp _ => []
  | .mdrain _ => []
  | .mflg _ => []
  | .mclrf _ => []
  | .ldw _ => []
  | .ldwReg f => [.s f.a]
  | .ldh _ => []
  | .ldhReg f => [.s f.a]
  | .ldhu _ => []
  | .ldhuReg f => [.s f.a]
  | .ldb _ => []
  | .ldbReg f => [.s f.a]
  | .ldbu _ => []
  | .ldbuReg f => [.s f.a]
  | .stw f => [.s f.d]
  | .stwReg f => [.s f.a, .s f.d]
  | .sth f => [.s f.d]
  | .sthReg f => [.s f.a, .s f.d]
  | .stb f => [.s f.d]
  | .stbReg f => [.s f.a, .s f.d]
  | .vldV0 _ => []
  | .vldV0Reg f => [.s f.a]
  | .vldV1 _ => []
  | .vldV1Reg f => [.s f.a]
  | .vstV0 f => [.v false f.d]
  | .vstV0Reg f => [.s f.a, .v false f.d]
  | .vstV1 f => [.v true f.d]
  | .vstV1Reg f => [.s f.a, .v true f.d]
  | .vgthV0 f => [.v false f.a]
  | .vgthV1 f => [.v true f.a]
  | .vsctV0 f => [.v false f.a, .v false f.d]
  | .vsctV1 f => [.v true f.a, .v true f.d]
  | .qpushV0 f => [.v false f.d]
  | .qpushV1 f => [.v true f.d]
  | .qpopV0 _ => []
  | .qpopV1 _ => []
  | .spadd f => [.s f.d]
  | .spaddReg f => [.s f.a, .s f.d]
  | .spmax f => [.s f.d]
  | .spmaxReg f => [.s f.a, .s f.d]
  | .spswp f => [.s f.d]
  | .spswpReg f => [.s f.a, .s f.d]
  | .cpyld f => [.s f.a]
  | .cpygo _ => []
  | .cpystat _ => []
  | .vbcpySs f => [.s f.a, .s f.b]
  | .vbcpyBs f => [.s f.a, .s f.b]
  | .vbcpySb f => [.s f.a, .s f.b]
  | .wbzero f => [.s f.a]
  | .wbcopy f => [.s f.a, .s f.b]
  | .wbcmp f => [.s f.a, .s f.b]
  | .wbfence _ => []
  | .lupd f => [.s f.a]
  | .wbtag f => [.s f.a]
  | .tload f => [.s f.a]
  | .tstore f => [.s f.a]
  | .tloadz f => [.s f.a]
  | .gacq f => [.s f.a]
  | .gacqX f => [.s f.a]
  | .gacqS f => [.s f.a]
  | .grel f => [.s f.a, .s f.b]
  | .grelX f => [.s f.a, .s f.b]
  | .grelS f => [.s f.a, .s f.b]
  | .fadd f => [.s f.a]
  | .fcas f => [.s f.a]
  | .fswap f => [.s f.a]
  | .nmsadd f => [.s f.a]
  | .nmsgd f => [.s f.a]
  | .nmzero f => [.s f.a]
  | .nmcopy f => [.s f.a]
  | .nmcmp f => [.s f.a]
  | .nmfence f => [.s f.a]
  | .bkalloc f => [.s f.a]
  | .bkxlat f => [.s f.a]
  | .bkshare f => [.s f.a]
  | .bkfree f => [.s f.a]
  | .bkload f => [.s f.a]
  | .bkstore f => [.s f.a]
  | .fstat _ => []
  | .collAr f => [.s f.a]
  | .collRs f => [.s f.a]
  | .collAg f => [.s f.a]
  | .collBc f => [.s f.a]
  | .ccancel f => [.s f.a]
  | .cstat _ => []
  | .cpld f => [.s f.a, .s f.b]
  | .xsend f => [.v f.un f.v]
  | .xrecv _ => []
  | .xfwd _ => []
  | .fsend f => [.v f.un f.v]
  | .frecv _ => []
  | .resultVisible => []
  | .c0WriteApplied => []
  | .vbcvtLateRead => []
  | .rollback => []
  | .serviceHandlerEntry => []
  | .bank0Resume => []
  | .checkpointCommit => []
  | .dataError => []
  | .rerunCompare => []
  | .loopBack => []
  | .arrivalPropagate => []
  | .barrierComplete => []
  | .streamVectorBegin => []
  | .lineSumAdd => []
  | .streamRetire => []
  | .planeRowWrite => []
  | .planeLoadComplete => []
  | .tileOpComplete => []
  | .drainRowWrite => []
  | .drainComplete => []
  | .busBeat => []
  | .busCopyRequest => []
  | .copyStart => []
  | .copyBeat => []
  | .copyComplete => []
  | .copyRestart => []
  | .multicastLand => []
  | .vbSlotsTakeEffect => []
  | .cpldComplete => []
  | .tvmapUpdate => []
  | .bankOpStart => []
  | .lupdGradientBeat => []
  | .lupdRowUpdate => []
  | .bankOpEnd => []
  | .wbfenceRelease => []
  | .busWireFailure => []
  | .busWireRepairStart => []
  | .busWireRepairEnd => []
  | .phaseArrival => []
  | .boundaryComplete => []
  | .phaseCounterAdvance => []
  | .superstepStart => []
  | .emptyBoundary => []
  | .stragglerDeadline => []
  | .stragglerStopComplete => []
  | .meshFlitDepart => []
  | .meshFlitArrive => []
  | .farRequestSend => []
  | .tileTransferComplete => []
  | .taggedStoreAtGuard => []
  | .gacqAtGuard => []
  | .grelAtGuard => []
  | .atomicAtMemory => []
  | .dupCopyAck => []
  | .nmCommandAtNmu => []
  | .nmLineStep => []
  | .nmCommandComplete => []
  | .nmfenceComplete => []
  | .brambleDirectoryOp => []
  | .brambleComplete => []
  | .blockReturnToPool => []
  | .tloadzComplete => []
  | .segmentMoveComplete => []
  | .deviceCheckpointStart => []
  | .deviceCheckpointCommit => []
  | .registerWrite => []
  | .ownClaim => []
  | .ownBeat => []
  | .denyClear => []
  | .ownerLeaseExpiry => []
  | .handoverWindowExpiry => []
  | .submit => []
  | .preempt => []
  | .resume => []
  | .discard => []
  | .hgacq => []
  | .hgrel => []
  | .gfree => []
  | .logread => []
  | .ckpt => []
  | .restore => []
  | .bkpool => []
  | .handover => []
  | .attest => []
  | .unknownCommand => []
  | .powerOnReset => []
  | .packageReset => []
  | .bootComplete => []
  | .firmwareWrite => []
  | .thermalThrottle => []
  | .thermalTrip => []
  | .podBoot => []
  | .linkFlitDelivery => []
  | .linkDown => []
  | .linkTraining => []
  | .fabricFlitDepart => []
  | .fabricFlitArrive => []
  | .creditReturn => []
  | .remoteMemoryHop => []
  | .channelMessageReceive => []
  | .channelRetransmit => []
  | .collRequestAtPrimary => []
  | .grantReceived => []
  | .collectiveStart => []
  | .collectiveComplete => []
  | .cancelAtPrimary => []
  | .voidCollectiveComplete => []
  | .heartbeat => []
  | .failover => []
  | .collectRequest => []
  | .numberingResume => []

/-! ### Pending registers (R80) -/

/-- Two vector codes name one register: the main files belong to the units, vk is shared (R61). -/
def sameV (u u' : Bool) (r r' : BitVec 6) : Bool := r == r' && (u == u' || decide (48 ≤ r.toNat))

/-- The result writes a scalar register. -/
def PendKind.writesS (r : BitVec 6) : PendKind → Bool
  | .sres d _ => d == r
  | .reg d _ => d == r
  | .atom _ _ d _ => d == r
  | _ => false

def VRes.writes (x : VRes) (u : Bool) (r : BitVec 6) : Bool :=
  sameV x.unit u x.d r ||
  match x.form with
  | .qdual _ => sameV x.unit u (x.d + 1) r
  | _ => false

/-- The result writes a vector register of a unit. -/
def PendKind.writesV (u : Bool) (r : BitVec 6) : PendKind → Bool
  | .vres x => x.writes u r
  | .lateB x _ _ _ => x.writes u r
  | .vload u' d _ _ => sameV u' u d r
  | _ => false

def PendKind.writesVP (u : Bool) (n : Nat) : PendKind → Bool
  | .vpreds u' w => u' == u && w.any fun x => x.1 == n
  | _ => false

/-- The issue cycles until an entry's register is written. -/
def Pend.visibleIn (e : Pend) : Nat :=
  match e.kind with
  | .lateB _ _ _ _ => e.left + 3
  | .atom _ _ _ _ => e.left + 4
  | _ => e.left

/-- A source is pending or released, as the core stands before its bundle. -/
def Core.earlySrc (c : Core) : Src → Bool
  | .s r =>
    (decide (r.toNat < 48) && c.bank.releasedS r.toNat) ||
    (decide (r.toNat < 56) && c.pend.any fun e => e.bank == c.cur && e.kind.writesS r)
  | .s0 r =>
    (decide (r.toNat < 48) && c.bank0.releasedS r.toNat) ||
    (decide (r.toNat < 56) && c.pend.any fun e => !e.bank && e.kind.writesS r)
  | .v u r =>
    (decide (r.toNat < 48) && c.bank.releasedV u r.toNat) ||
    (decide (r.toNat < 56) && c.pend.any fun e => e.bank == c.cur && e.kind.writesV u r)
  | .vp u n => n != 0 && c.pend.any fun e => e.bank == c.cur && e.kind.writesVP u n
  | .late u r =>
    let w := c.pend.filter fun e => e.bank == c.cur && decide (r.toNat < 56) && e.kind.writesV u r
    (decide (r.toNat < 48) && c.bank.releasedV u r.toNat && w.all fun e => decide (3 < e.visibleIn)) ||
    w.any fun e => decide (3 < e.visibleIn)

/-- Whether the sources of a slot are read whatever its guard: those of the S and V slots are (R87, R139). -/
def readsAlways : Slot → Bool
  | .s => true
  | .v0 => true
  | .v1 => true
  | _ => false

/-- A register source of a slot raises EARLY_READ; `s` is the core before its bundle. -/
def State.earlyReg (s : State) (x : Slot × Instr) : Bool :=
  (readsAlways x.1 || s.runs x.2) && (sources (x.1 == .v1) x.2).any s.cur.earlySrc

/-! ### Pending scratchpad words (R198) -/

/-- Two byte ranges share a 32-bit word. -/
def sameWords (a n b m : Nat) : Bool :=
  decide (0 < n) && decide (0 < m) && decide (a / 4 ≤ (b + m - 1) / 4) && decide (b / 4 ≤ (a + n - 1) / 4)

/-- A range holds a word that a copy has still to write, in this core's scratchpad (R198, R229). -/
def Copy.willWrite (cp : Copy) (a n : Nat) : Bool :=
  let d := CopyDesc.ofBits cp.desc
  cp.flight.any (fun x => sameWords x.2.1 x.2.2.1.length a n) ||
  (cp.reading &&
    (List.range (d.runs - cp.run)).any fun i =>
      let dst := runStart cp.db d.cnt d.dstr (cp.run + i)
      let pos := if i = 0 && decide (0 < cp.beat) then 128 * cp.beat - dst % 128 else 0
      sameWords (dst + pos) (d.run + 1 - pos) a n)

/-- A range holds a word that a drain has still to write in clock cycle y (R173, R175). -/
def Drain.willWrite (d : Drain) (y a n : Nat) : Bool :=
  (List.range d.rows).any fun i =>
    let row := 128 * storedBits d.fmt / 8
    let nb := blockBytes d.fmt
    decide (y ≤ d.issued + 9 + i) &&
    (sameWords (d.base + i * row) row a n ||
      (isBlockFmt d.fmt && sameWords (d.bw + 2 * (i * row / nb)) (2 * (row / nb)) a n))

/-- A range of a core's scratchpad holds a pending word: of its C0 writes and copies and drains, of the copies of its
column into it, or of a multicast store on its way. -/
def State.pendingWords (s : State) (k a n : Nat) : Bool :=
  let c := s.core k
  let y := s.clkOf k
  c.pend.any (fun e => match e.kind with
    | .spw w => w.any fun x => sameWords x.1 1 a n
    | .atom _ ea _ _ => sameWords ea 4 a n
    | _ => false) ||
  c.drains.any (fun d => d.willWrite y a n) ||
  (coresOfCol (colOf k)).any fun j =>
    (s.core j).pend.any (fun e => match e.kind with
      | .mcast ls w => ls.getLsbD (layerOf k) && w.any fun x => sameWords x.1 1 a n
      | _ => false) ||
    (s.core j).seq.queue.any fun cp => (match cp.kind with
      | .local_ => j == k
      | .bs _ => j == k
      | .ss z => z == layerOf k
      | .sb _ => false) && cp.willWrite a n

/-- A range lies across the source bounding range of a queued or active copy of the core. -/
def Core.copySource (c : Core) (a n : Nat) : Bool :=
  c.seq.queue.any fun cp =>
    let d := CopyDesc.ofBits cp.desc
    (match cp.kind with
     | .bs _ => false
     | _ => true) && overlap d.srcLo d.srcHi a (a + n - 1 : Nat)

/-- What a C0 instruction accesses: whether it reads and writes, its addresses, and the bytes at each. -/
structure SpAccess where
  reads : Bool
  writes : Bool
  eas : List Int
  n : Nat

def State.spLanes (s : State) (u : Bool) (f : FmtC0R) : List Int :=
  let v := s.rv u 0 f.a
  (List.range 64).map (s.eaLane f.bq v)

/-- The scratchpad access of an instruction of the C0 slot. -/
def State.spAccess (s : State) : Instr → Option SpAccess
  | .ldw f => some ⟨true, false, [s.eaImm f.bq f.off 4], 4⟩
  | .ldwReg f => some ⟨true, false, [s.eaReg f.bq f.a], 4⟩
  | .ldh f => some ⟨true, false, [s.eaImm f.bq f.off 2], 2⟩
  | .ldhReg f => some ⟨true, false, [s.eaReg f.bq f.a], 2⟩
  | .ldhu f => some ⟨true, false, [s.eaImm f.bq f.off 2], 2⟩
  | .ldhuReg f => some ⟨true, false, [s.eaReg f.bq f.a], 2⟩
  | .ldb f => some ⟨true, false, [s.eaImm f.bq f.off 1], 1⟩
  | .ldbReg f => some ⟨true, false, [s.eaReg f.bq f.a], 1⟩
  | .ldbu f => some ⟨true, false, [s.eaImm f.bq f.off 1], 1⟩
  | .ldbuReg f => some ⟨true, false, [s.eaReg f.bq f.a], 1⟩
  | .vldV0 f => some ⟨true, false, [s.eaImm f.bq f.off 256], 256⟩
  | .vldV0Reg f => some ⟨true, false, [s.eaReg f.bq f.a], 256⟩
  | .vldV1 f => some ⟨true, false, [s.eaImm f.bq f.off 256], 256⟩
  | .vldV1Reg f => some ⟨true, false, [s.eaReg f.bq f.a], 256⟩
  | .vgthV0 f => some ⟨true, false, s.spLanes false f, 4⟩
  | .vgthV1 f => some ⟨true, false, s.spLanes true f, 4⟩
  | .qpopV0 f => let r := s.ringHead f.q; some ⟨true, false, [(r.slotAt r.head + f.off.toNat * 256 : Nat)], 256⟩
  | .qpopV1 f => let r := s.ringHead f.q; some ⟨true, false, [(r.slotAt r.head + f.off.toNat * 256 : Nat)], 256⟩
  | .stw f => some ⟨false, true, [s.eaImm f.bq f.off 4], 4⟩
  | .stwReg f => some ⟨false, true, [s.eaReg f.bq f.a], 4⟩
  | .sth f => some ⟨false, true, [s.eaImm f.bq f.off 2], 2⟩
  | .sthReg f => some ⟨false, true, [s.eaReg f.bq f.a], 2⟩
  | .stb f => some ⟨false, true, [s.eaImm f.bq f.off 1], 1⟩
  | .stbReg f => some ⟨false, true, [s.eaReg f.bq f.a], 1⟩
  | .vstV0 f => some ⟨false, true, [s.eaImm f.bq f.off 256], 256⟩
  | .vstV0Reg f => some ⟨false, true, [s.eaReg f.bq f.a], 256⟩
  | .vstV1 f => some ⟨false, true, [s.eaImm f.bq f.off 256], 256⟩
  | .vstV1Reg f => some ⟨false, true, [s.eaReg f.bq f.a], 256⟩
  | .vsctV0 f => some ⟨false, true, s.spLanes false f, 4⟩
  | .vsctV1 f => some ⟨false, true, s.spLanes true f, 4⟩
  | .qpushV0 f => let r := s.ringTail f.q; some ⟨false, true, [(r.slotAt r.tail + f.off.toNat * 256 : Nat)], 256⟩
  | .qpushV1 f => let r := s.ringTail f.q; some ⟨false, true, [(r.slotAt r.tail + f.off.toNat * 256 : Nat)], 256⟩
  | .spadd f => some ⟨true, true, [s.eaImm f.bq f.off 4], 4⟩
  | .spaddReg f => some ⟨true, true, [s.eaReg f.bq f.a], 4⟩
  | .spmax f => some ⟨true, true, [s.eaImm f.bq f.off 4], 4⟩
  | .spmaxReg f => some ⟨true, true, [s.eaReg f.bq f.a], 4⟩
  | .spswp f => some ⟨true, true, [s.eaImm f.bq f.off 4], 4⟩
  | .spswpReg f => some ⟨true, true, [s.eaReg f.bq f.a], 4⟩
  | _ => none

/-- An access of a slot raises EARLY_READ: `s0` is the core before its bundle, `s` as the slot finds it. -/
def State.earlyWord (s0 s : State) (i : Instr) : Bool :=
  let k := s.ictx.core
  let c := s0.core k
  s.runs i &&
  match i with
  | .cpygo _ =>
    let d := CopyDesc.ofBits c.seq.staging
    !c.cur && c.seq.loaded && s0.pendingWords k d.srcLo.toNat (d.srcHi - d.srcLo + 1).toNat
  | _ =>
    match s.spAccess i with
    | none => false
    | some x =>
      (x.reads && x.eas.any fun a => s0.pendingWords k a.toNat x.n) ||
      (x.writes && x.eas.any fun a => spRow a.toNat != 2 && c.copySource a.toNat x.n)

end Sys2Proof.Machine
end

