-- ==== Sys2Proof/Machine/Issue.lean ====
section
/-! DEFINITION. A clock cycle of a core: its pipelines and interlocks, and the issue of a bundle (03_core_state.md R81;
04_core_encoding.md R82 to R86, R107; 05_core_scalar_branch.md R122, R126 to R129, R135, R137; 09_core_faults.md R201 to
R207; 12_die_supersteps.md R246). -/

namespace Sys2Proof.Machine

/-- One outcome after another. -/
def andThen (o : Out) (f : State → Out) : Out :=
  match o with
  | .next s => f s
  | .fault r => .fault r
  | .refused r => .refused r

/-- An event executes (log 1). -/
def State.happen (s : State) (e : Ev) : Out := exec e.event { s with ev := e }

/-! ### Fetching and decoding (R82, R86, R106, R107) -/

/-- The cause code of a rejection. -/
def rejectCode : DecodeReject → Nat
  | .malformed => cMalformed
  | .illegalSlot => cIllegalSlot
  | .truncated => cMalformed

/-- The bundle at a core's pc, or the decode trap. -/
def State.fetchBundle (s : State) (k : Nat) : Except TrapInfo Bundle :=
  let c := s.core k
  match c.bundleBytes c.cur c.pc.toNat with
  | none => .error ⟨0, cFetchPage, c.pc⟩
  | some bs =>
    match decodeBundle bs with
    | .error e => .error ⟨e.2.num, rejectCode e.1, c.pc⟩
    | .ok (b, _) =>
      match decodeTrap c.cur (s.die (dieOf k)).compute b.slots with
      | some (i, code) => .error ⟨i.num, code, c.pc⟩
      | none => .ok b

/-! ### The pipelines (R4, R202) -/

/-- A multicast store of the core lands in this clock cycle. -/
def Core.mcastDue (c : Core) : Bool :=
  c.pend.any fun e => e.left == 0 && (match e.kind with | .mcast _ _ => true | _ => false)

/-- The multicast stores that are due land among the arrivals of the cycle. -/
def State.landMcast (s : State) (k : Nat) : State :=
  if (s.core k).mcastDue then s.scheduleCore k (s.clkOf k) (evK .multicastLand k) else s

/-- The pipelines of a core advance by one cycle: results become visible, C0 writes are applied, and VBCVT reads late. -/
def State.advanceCore (s : State) (k : Nat) : Out :=
  if (s.core k).pend.isEmpty then .next s
  else
    let s := s.modCore k Core.advance
    andThen (s.happen (evK .resultVisible k)) fun s =>
      andThen (s.happen (evK .c0WriteApplied k)) fun s =>
        andThen (s.happen (evK .vbcvtLateRead k)) fun s => .next (s.tick.landMcast k)

/-- After the eight cycles of a drain only multicast stores advance. -/
def State.advanceMcast (s : State) (k : Nat) : State :=
  (s.modCore k fun c =>
    { c with pend := c.pend.map fun e =>
        match e.kind with
        | .mcast _ _ => { e with left := e.left - 1 }
        | _ => e }).landMcast k

/-- An issue cycle is counted: in ICYCLE and in a rerun, for bank 0 (R206, R213). -/
def Core.countCycle (c : Core) : Core :=
  if c.cur then c
  else { c with icycle := c.icycle + 1, rerun := c.rerun.map fun r => { r with cycles := r.cycles + 1 } }

/-! ### RFT (R122) -/

/-- Nothing of bank 1 is in flight after this cycle. -/
def Core.bank1Done (c : Core) : Bool :=
  c.dwell == 0 && c.pend.all fun e => !e.owner ||
    (decide (e.left ≤ 1) && match e.kind with
      | .atom _ _ _ _ => false
      | .lateB _ _ _ _ => false
      | _ => true)

/-- Bank 0 resumes in the next cycle when bank 1 is done. -/
def State.endService (s : State) (k : Nat) : State :=
  match (s.core k).run with
  | .rftRun _ => if (s.core k).bank1Done && (s.core k).fence.isNone then s.scheduleCore k (s.clkOf k) (evK .bank0Resume k) else s
  | _ => s

/-! ### The issue of a bundle -/

/-- The slots of a bundle execute in ascending order; a trap ends it. `s0` is the core before its bundle. -/
def State.runSlots (s0 : State) : List (Slot × Instr) → State → Out
  | [], s => .next s
  | (i, ins) :: rest, s =>
    let k := s.ictx.core
    let debug := (s0.core k).debugPend
    let s := { s with ictx := { s.ictx with slot := i.num } }
    if debug && s0.earlyReg (i, ins) then .next (s.trap cEarlyRead)
    else
      match exec ins s with
      | .next t =>
        if t.ictx.trap.isSome then .next t
        else if debug && s0.earlyWord s ins then .next (t.trap cEarlyRead)
        else if (t.core k).task != (s0.core k).task then .next t
        else s0.runSlots rest t
      | .fault r => .fault r
      | .refused r => .refused r

/-- The slots that execute: an RFT's bundle does nothing else in its B slot (R122). -/
def activeSlots (b : Bundle) : List (Slot × Instr) :=
  if b.slots.any fun x => x.2 == .rft then b.slots.filter fun x => x.1 != .b else b.slots

/-- The loop engine counts a body bundle (R127): whether it was the last. -/
def Core.countBody (c : Core) : Core × Bool :=
  let l := c.bank.loop
  if l.cnt = l.len.toNat then (c, true) else (c.modBank fun b => { b with loop := { l with cnt := l.cnt + 1 } }, false)

/-- A halted core's outstanding work is done (R137). -/
def Core.haltQuiet (c : Core) : Bool :=
  c.pend.isEmpty && !c.matrixBusy && c.seq.queue.isEmpty && c.farHeld == 0 && c.fence.isNone

/-- What follows the slots of a bundle in its issue cycle: releases, the cycle count, the loop engine, the checkpoint,
which waits for M-slot work that the bundle itself issued (R58), and the restart of recorded copies. The releases of a last
body bundle follow its loop-back, which reads LINC registers as part of that bundle (R64, R127). `c0` is the core before its
bundle. -/
def State.endBundle (s : State) (k : Nat) (c0 : Core) (b : Bundle) : State :=
  let ckp := s.ictx.ckp
  let s := { s with ictx := .reset }
  let c := s.core k
  if c.task != c0.task || c.run == .stopped then s
  else
    let body := c0.bank.loop.act && c.bank.loop.act
    let s := (if body && c.countBody.2 then s else s.flushReleases k).tick
    let c := (s.core k).countCycle
    let (c, last) := if body then c.countBody else (c, false)
    let c := match c.run with
      | .halt _ => { c with pc := c0.pc }
      | _ => c
    let ops : List Micro :=
      (if last then [.op (evK .loopBack k), .release k] else []) ++
      (if c0.seqHold && !c0.cur then [.op (evK .copyRestart k)] else [])
    let s : State := { s.setCore k c with todo := ops ++ s.todo }
    let s := if !c0.cur && (b.header.ckp || ckp) then
        (if c.matrixBusy then s.setCore k { c with ckpWait := true }
         else s.scheduleCore k (s.clkOf k) (evK .checkpointCommit k))
      else s
    let s := if c.run == .halt false && c.haltQuiet then s.scheduleCore k (s.clkOf k) (evB .checkpointCommit k 0 true) else s
    s.endService k

/-- The loop-back of a body bundle that has issued reads a LINC register which is pending or released: EARLY_READ in debug
mode (R64, R80). `c0` is the core before its bundle. -/
def State.lincEarly (s : State) (k : Nat) (c0 : Core) : Bool :=
  let c := s.core k
  let l := c.bank.loop
  c0.debugPend && c0.bank.loop.act && l.act && l.cnt == l.len.toNat && !(l.drained (s.preqOf k)).endsNow &&
    (List.range 8).any fun n =>
      let e := sget 0 l.linc n
      e.getLsbD 31 && !e.getLsbD 30 && c0.earlySrc (.s (e.extractLsb' 24 6))

/-- A decoded bundle issues (R82 to R85, R126). -/
def State.issueBundle (s : State) (k : Nat) (b : Bundle) : Out :=
  let c := s.core k
  let l := c.bank.loop
  if l.act && l.cnt == 0 && !b.header.lcap then .next (s.beginTrap k ⟨0, cLoopForm, c.pc⟩)
  else
    let next := c.pc + BitVec.ofNat 26 b.header.size
    let s0 := { s.setCore k { c with pc := next, dwell := b.header.dwell.toNat } with
      ictx := { core := k, slot := 0, lit := b.literal.getD 0, pc := c.pc, next := next, trap := none, ckp := false } }
    andThen (s0.runSlots (activeSlots b) s0) fun t =>
      match t.ictx.trap with
      | some r => .next (s.beginTrap k r)
      | none =>
        if t.lincEarly k c then .next (s.beginTrap k ⟨7, cEarlyRead, c.pc⟩) else .next (t.endBundle k c b)

/-- A core issues the bundle at its pc; the bundle of a trap takes no effect (R107, R201). -/
def State.issueCore (s : State) (k : Nat) : Out :=
  if (s.core k).run != .issue then .next s
  else
    match s.fetchBundle k with
    | .error t => .next (s.beginTrap k t)
    | .ok b => s.issueBundle k b

/-! ### A core at the start of its clock cycle -/

/-- A core's issue follows the gates of its die. -/
def insertIssue (k : Nat) : List Micro → List Micro
  | .gate j :: r => .gate j :: insertIssue k r
  | .issue j :: r => .issue j :: insertIssue k r
  | l => .issue k :: l

def State.willIssue (s : State) (k : Nat) : State := { s with todo := insertIssue k s.todo }

/-- The bundle at the pc issues in this cycle unless an interlock holds it: then the pipelines freeze with it (R81). -/
def State.gateIssue (s : State) (k : Nat) : Out :=
  andThen (s.advanceCore k) fun t =>
    match t.fetchBundle k with
    | .error _ => .next (t.willIssue k)
    | .ok b =>
      let u := { t with ictx := { Ictx.reset with core := k, lit := b.literal.getD 0 } }
      if u.stalls k b then .next (if u.lateLoad k b then s.lateTransfer k false else s) else .next (t.willIssue k)

/-- A cycle in which no bundle issues but the pipelines advance. -/
def State.passCycle (s : State) (k : Nat) (f : Core → Core) : Out :=
  andThen (s.advanceCore k) fun s => .next (s.modCore k f)

/-- One dwell cycle (R85). -/
def Core.dwellCycle (c : Core) : Core := { c with dwell := c.dwell - 1 }.countCycle

/-- The M-slot work of a drain is over: every vector begun has added its sums, and loads, tile operations and drains have
ended (R53, R176, R202). -/
def Core.matrixDrained (c : Core) : Bool :=
  c.streams.all (fun x => x.data.isEmpty) && c.loads.isEmpty && c.tileOps.isEmpty && c.drains.isEmpty

/-- A core that issues, or waits between its bundles. -/
def Run.live : Run → Bool
  | .issue => true
  | .barWait _ => true
  | .rftRun _ => true
  | .phase _ _ => true
  | .halt _ => true
  | _ => false

/-- A fence wait cycle (R238): before what else follows the bundle. -/
def State.fenceCycle (s : State) (k : Nat) : Out :=
  let s := if (s.core k).fenceOps = 0 then s.scheduleCore k (s.clkOf k) (evK .wbfenceRelease k) else s
  s.passCycle k fun c => c.countCycle.waitOver (layerOf k)

/-- A core whose checkpoint waits for M-slot work (R58): frozen until that work is done, and then it commits before the
cycle's own work. -/
def State.ckpCycle (s : State) (k : Nat) : Out :=
  let c := s.core k
  if c.matrixBusy then .next s
  else .next { s.setCore k { c with ckpWait := false } with
    todo := .op ⟨.checkpointCommit, k, 0, 0, 1, false⟩ :: .gate k :: s.todo }

/-- What a core does in a clock cycle in which neither a checkpoint nor a fence waits. -/
def State.runCycle (s : State) (k : Nat) : Out :=
  let c := s.core k
  let y := s.clkOf k
  match c.run with
  | .idle => .next s
  | .stopped => .next s
  | .launched => .next s
  | .issue => if 0 < c.dwell then s.passCycle k Core.dwellCycle else s.gateIssue k
  | .barWait _ => s.passCycle k fun c => c.countCycle.waitOver (layerOf k)
  | .drain t _ =>
    if t + 8 ≤ y ∧ c.matrixDrained then .next ((s.advanceMcast k).atOnce (evK .rollback k))
    else if y < t + 8 then s.advanceCore k
    else .next (s.advanceMcast k)
  | .rollback _ _ => .next (s.advanceMcast k)
  | .rftRun _ =>
    andThen (s.passCycle k fun c => { c with dwell := c.dwell - 1 }) fun s => .next (s.endService k)
  | .phase _ arrived =>
    if 0 < c.dwell then s.passCycle k Core.dwellCycle
    else andThen (s.advanceCore k) fun s => .next (if arrived then s else s.atOnce (evK .phaseArrival k))
  | .halt done =>
    if done then s.advanceCore k
    else
      andThen (s.passCycle k fun c => if 0 < c.dwell then c.dwellCycle else c) fun s =>
        .next (if (s.core k).haltQuiet then s.atOnce (evB .checkpointCommit k 0 true) else s)

/-- A core at the start of its clock cycle. -/
def State.gateCore (s : State) (k : Nat) : Out :=
  let c := s.core k
  if c.run.live && c.ckpWait then s.ckpCycle k
  else if c.run.live && c.fence.isSome then s.fenceCycle k
  else s.runCycle k

end Sys2Proof.Machine
end

