-- ==== Sys2Proof/Machine/Clock.lean ====
section
/-! DEFINITION. Time: the operations of a fabric cycle and of the die cycles that begin in it, and the order of the events
of a cycle (00_scope.md R3; 08_core_local_memory.md R182; 11_column.md R230; 19_fabric.md R337; log 1). -/

namespace Sys2Proof.Machine

/-! ### The order of a die cycle's events (log 1) -/

/-- An event that stands at the start of its die cycle: the state of barriers, in which a wait of the cycle is checked
(R134, R135), requests for the vertical bus, the reads of its beats, which copy no store applied in their own cycle (R230), and
the engine's reads of the banks, which see no write of the cycle. -/
def Ev.early (e : Ev) : Bool :=
  match e.event with
  | .busWireRepairStart => true
  | .arrivalPropagate => true
  | .barrierComplete => true
  | .copyStart => true
  | .busCopyRequest => true
  | .busBeat => !e.b
  | .bankOpStart => !e.b
  | .lupdRowUpdate => !e.b
  | _ => false

/-- The place of an event at the end of its cycle (R182, R230): reads, arrivals from the column, copy and far writes, drain
rows, completions, what follows from them, and last a deadline, by which the arrivals of its cycle count (R249). -/
def Ev.rank (e : Ev) : Nat :=
  match e.event with
  | .copyStart => 0
  | .copyBeat => if e.b then 4 else 1
  | .streamVectorBegin => 1
  | .planeRowWrite => 1
  | .lineSumAdd => 1
  | .lupdGradientBeat => 1
  | .tileTransferComplete => if e.w = 0 then 1 else 4
  | .brambleComplete => if e.w = 0 then 1 else 4
  | .tloadzComplete => 4
  | .atomicAtMemory => 4
  | .gacqAtGuard => 4
  | .grelAtGuard => 4
  | .nmCommandComplete => 4
  | .nmfenceComplete => 4
  | .cancelAtPrimary => if e.b && e.w == 3 then 4 else 9
  | .voidCollectiveComplete => 4
  | .collectiveComplete => 4
  | .multicastLand => 2
  | .busBeat => 3
  | .bankOpStart => 4
  | .lupdRowUpdate => 4
  | .drainRowWrite => 5
  | .drainComplete => 6
  | .copyComplete => 6
  | .streamRetire => 6
  | .planeLoadComplete => 6
  | .tileOpComplete => 6
  | .bankOpEnd => 6
  | .wbfenceRelease => 7
  | .tvmapUpdate => 7
  | .loopBack => 10
  | .dataError => 11
  | .checkpointCommit => 12
  | .rerunCompare => 12
  | .stragglerDeadline => 13
  | _ => 9

/-- What orders events of one rank: the core's layer for arrivals and tag updates (R230, R233), the sending package for
channel messages; otherwise the order they were scheduled in. -/
def Ev.key (e : Ev) : Nat :=
  match e.event with
  | .multicastLand => e.k
  | .tvmapUpdate => e.k
  | .collRequestAtPrimary => e.j
  | .cancelAtPrimary => e.j
  | _ => 0

/-- One event goes before another that was scheduled before it. -/
def Ev.before (a b : Ev) : Bool := decide (a.rank < b.rank) || (a.rank == b.rank && decide (a.key < b.key))

/-- The clock of a domain. -/
def State.now (s : State) : Domain → Nat
  | .die d => (s.die d).clk
  | .fabric => s.fab

/-- An event due in a domain by a cycle. -/
def Due.isDue (d : Due) (dom : Domain) (y : Nat) : Bool := decide (d.dom = dom) && decide (d.at_ ≤ y)

/-- The first of the events due. -/
def firstDue (dom : Domain) (y : Nat) : List Due → Option Due
  | [] => none
  | d :: r =>
    match firstDue dom y r with
    | none => if d.isDue dom y then some d else none
    | some e => if d.isDue dom y && !e.ev.before d.ev then some d else some e

/-- The next event that is due executes, and the rest after it. -/
def State.takeDue (s : State) (dom : Domain) : State :=
  match firstDue dom (s.now dom) s.agenda with
  | none => s
  | some d => { s with agenda := s.agenda.erase d, todo := .op d.ev :: .due dom :: s.todo }

/-! ### The next fabric cycle (R337) -/

/-- The dies of a pod. -/
def State.podDies (s : State) : List Nat := (s.pkgs'.map fun p => [2 * p, 2 * p + 1]).flatten

/-- A clock cycle of a die begins in this fabric cycle. -/
def State.dieTicks (s : State) (die : Nat) : Bool := decide ((s.die die).fabOf ((s.die die).clk + 1) ≤ s.fab)

/-- The cores of a die that are not idle. -/
def State.activeCores (s : State) (die : Nat) : List Nat :=
  ((srange s.cores (die * 512) (die * 512 + 512)).filter fun x => x.2.run != .idle).map (·.1)

/-- A die's clock cycle begins: its early events, a repair of the bus before the beats that it holds up (R240), its cores, the events due at its end, and its controller. -/
def State.beginDie (s : State) (die : Nat) : State :=
  let s := s.modDie die fun d => { d with clk := d.clk + 1 }
  let y := (s.die die).clk
  let isEarly (d : Due) : Bool := d.isDue (.die die) y && d.ev.early
  let early := s.agenda.filter isEarly
  let (beats, first) := early.partition fun d => d.ev.event == .busBeat
  { s with agenda := s.agenda.filter fun d => !isEarly d,
           todo := s.todo ++ (first ++ beats).map (fun d => .op d.ev) ++ (s.activeCores die).map .gate ++ [.due (.die die), .poll die] }

/-- An error of the hardware happens: CORR_CNT counts a corrected fault and saturates (R57, R77); a word is marked. -/
def State.mishap (s : State) : Mishap → State
  | .accBit k => s.modCore k fun c => { c with corr := if c.corr = 0xFFFFFFFF#32 then c.corr else c.corr + 1 }
  | .bankWord col w => s.modCol col fun x => { x with bankBad := sset false x.bankBad w true }
  | .hbmLine p l => s.modPkg p fun x => { x with hbmPoison := sset false x.hbmPoison l true }
  | .tierLine p l => s.modPkg p fun x => { x with tierPoison := sset false x.tierPoison l true }
  | .brambleLine p l => s.modPkg p fun x => { x with bramble := { x.bramble with poison := sset false x.bramble.poison l true } }
  | .farMessage k id j => s.failMessage k id j

/-- The agents for which an event claims its package, one bit each: OWN_CLAIM, or a write of that register (R322, R326). -/
def Ev.claims (e : Ev) : Option (BitVec 4) :=
  match e.event with
  | .ownClaim => some (BitVec.ofNat 4 e.w)
  | .registerWrite => if e.j = 0x10 then some (1#4 <<< (e.i % 4)) else none
  | _ => none

/-- The claims of a package among events of one cycle, together (R326). -/
def claimsOf (pkg : Nat) (es : List Ev) : BitVec 4 :=
  es.foldl (fun m e => if e.k = pkg then m ||| e.claims.getD 0 else m) 0

/-- The events of a cycle, with the claims of a package as one, in the place of the first of them: the lowest agent becomes owner
(R326). -/
def mergeClaims (es : List Ev) : List Ev :=
  ((List.range es.length).zip es).filterMap fun x =>
    if x.2.claims.isNone then some x.2
    else if (es.take x.1).any fun e => e.claims.isSome && e.k == x.2.k then none
    else some ⟨.ownClaim, x.2.k, 0, 0, (claimsOf x.2.k es).toNat, false⟩

/-- What the outside does in a fabric cycle: the errors of the hardware, the host's writes to its own memory and the
programs it loads, then the events. A data error is found in the cycle of its core that is under way or comes next, before a checkpoint of that cycle
commits (R58). -/
def State.takeInputs (s : State) : State :=
  let ins := s.inputs.filter fun i => decide (i.at_ ≤ s.fab)
  let (errors, evs) := (mergeClaims (ins.map fun i => i.ev)).partition fun e => e.event == .dataError
  let s := { s with inputs := s.inputs.filter fun i => !decide (i.at_ ≤ s.fab), todo := s.todo ++ evs.map .op }
  let s := errors.foldl (fun s e => s.scheduleCore e.k (s.clkOf e.k) e) s
  ins.foldl (fun s i => (i.mishaps.foldl State.mishap s).modPkg i.pkg fun p =>
    { p with host := i.mem.foldl (fun m c => m.setByte c.1 c.2) p.host, programs := i.programs ++ p.programs }) s

/-- A fabric cycle begins: the die cycles that begin in it, and after them what the outside does and the events of the
fabric, which a die sees from its next cycle on (R337). -/
def State.nextCycle (s : State) : State :=
  let s := { s with fab := s.fab + 1 }
  let s := ((s.podDies.filter s.dieTicks).foldl State.beginDie s).takeInputs
  { s with todo := s.todo ++ .due .fabric :: s.pkgs'.map .pollPkg }

/-! ### A program placed for the next step (log 12) -/

/-- A task with one column and one code page, resident at the origin. -/
def benchTask : Task :=
  { desc := { tag := 1, ldie := 0, ndm1 := 0, imgInt := 0, ny := 1, nx := 1, bk := false, img := false, budget0 := 0,
              seed := 0, code := 0, codeSize := 4096, imgBase := 0, imgStride := 0, stages := [], segs := [], preds := [],
              compl := 0, vbSlots := 0, vbBank := 0, mcmask := 0 },
    queue := 0, place := .resident [0], held := false, placed := 0, exchange := false, rs := 0, steps := 0, sinceImage := 0,
    preq := false, start := 0, budget := 0, imaged := false, cols := [], imgBudget := 0, imgExchange := false, table := [],
    idle := [], started := true, stopped := none, ready := 0 }

/-- A core in service of bank 0 or bank 1 that issues the bundle at offset 0 next: its code page or the handler's
first frame holds the bytes, and its state is its checkpoint. -/
def Core.benched (c : Core) (bank1 : Bool) (bs : List Byte) : Core :=
  let c := { c with task := some 1, run := .issue, cur := bank1, pc := 0, dwell := 0,
                    codeMap := sset 0 c.codeMap 0 (0x80000000#32),
                    imem := c.imem.setBytes (if bank1 then 60 * 4096 else 0) bs }
  { c with ckpt := some c.snapshot }

/-- A die with that task, in a superstep that the form is legal in. -/
def Die.benched (d : Die) (i : Instr) : Die :=
  { d with tasks := benchTask :: d.tasks.filter fun t => t.desc.tag != 1,
           phase := if computeForm i then d.phase &&& ~~~1 else if exchangeForm i then d.phase ||| 1 else d.phase }

/-- The machine about to issue one word: core 0 holds the bench task, in the bank the form belongs to, and issues next. -/
def State.bench (s : State) (w : W) : State :=
  match firstSlot w tableSlots with
  | some (k, i) =>
    let s := (s.modDie 0 fun d => d.benched i).modCore 0 fun c => c.benched (bank1Form i) (oneSlotBundle k w (readsLiteral i))
    { s with todo := [.issue 0] }
  | none =>
    let s := (s.modDie 0 fun d => d.benched .nop).modCore 0 fun c => c.benched false (oneSlotBundle .s w false)
    { s with todo := [.issue 0] }

end Sys2Proof.Machine
end

