-- ==== Sys2Proof/Machine/Step.lean ====
section
/-! DEFINITION. The step: the next of the operations of the present fabric cycle, or the beginning of the next cycle
(log 1), and a word placed for the next step (log 12). -/

namespace Sys2Proof.Machine

/-- One step. -/
def step (s : State) : Host.Outcome State Fault Refusal :=
  match s.todo with
  | [] => .next s.nextCycle
  | .gate k :: r => ({ s with todo := r } : State).gateCore k
  | .issue k :: r => ({ s with todo := r } : State).issueCore k
  | .release k :: r => .next (({ s with todo := r } : State).flushReleases k)
  | .op e :: r => ({ s with todo := r } : State).happen e
  | .due dom :: r => .next (({ s with todo := r } : State).takeDue dom)
  | .poll die :: r => .next (({ s with todo := r } : State).pollDie die)
  | .pollPkg pkg :: r => .next (({ s with todo := r } : State).pollPkg pkg)

/-- A state whose next step issues an instruction word of the opcode table (log 12). -/
def State.withFetchWord (s : State) (nbits w : Nat) : State := s.bench (BitVec.ofNat 32 (w % 2 ^ nbits))

end Sys2Proof.Machine
end

