-- ==== Sys2Proof/Safety.lean ====
section
/-! DEFINITION. What a claim about the whole machine is stated in: an outcome that goes on, a run that goes on, the
form of state that every step keeps, and what a core alone owns (03_core_state.md R59; 98_reader.md; log 1). -/

namespace Sys2Proof.Machine

/-- The outcome is a next state: the machine neither faults nor refuses. -/
def goesOn (o : Out) : Prop := ∃ t, o = .next t

/-- A run of n steps reaches a state. -/
inductive Reaches : Nat → State → State → Prop where
  | here (s : State) : Reaches 0 s s
  | step (n : Nat) (s t u : State) (h : Sys2Proof.Machine.step s = .next t) (r : Reaches n t u) : Reaches (n + 1) s u

/-- A run of n steps is safe: each of them answers a next state. -/
def safeRun : Nat → State → Prop
  | 0, _ => True
  | n + 1, s => ∃ t, Sys2Proof.Machine.step s = .next t ∧ safeRun n t

/-- The cores, columns, dies and packages are held in the canonical form: each listed once, in rising order, and none
that equals what an unlisted one reads as.  Two states in this form with the same parts are the same data (log 1). -/
def State.canonical (s : State) : Prop :=
  swf Core.reset s.cores = true ∧ swf Column.reset s.columns = true ∧ swf Die.reset s.dies = true ∧
    swf Pkg.reset s.pkgs = true

/-- The byte memories of the machine are in the canonical form of `Memory`. -/
def State.memoriesCanonical (s : State) : Prop :=
  (∀ k, (s.core k).sp.wf = true ∧ (s.core k).imem.wf = true) ∧ (∀ k, (s.col k).banks.wf = true) ∧
    ∀ k, (s.pkg k).hbm.wf = true ∧ (s.pkg k).tier.wf = true ∧ (s.pkg k).host.wf = true

/-- Everything of two states but the cores of one list agrees. -/
def State.sameBut (ks : List Nat) (s t : State) : Prop :=
  (∀ k, k ∉ ks → t.core k = s.core k) ∧ t.columns = s.columns ∧ t.dies = s.dies ∧ t.pkgs = s.pkgs ∧ t.fab = s.fab ∧
    t.dx = s.dx ∧ t.dy = s.dy ∧ t.dz = s.dz ∧ t.primary = s.primary ∧ t.standby = s.standby ∧
    t.msgs = s.msgs ∧ t.inputs = s.inputs

/-- What a core holds besides the results on their way: everything an instruction that only sends results leaves alone. -/
def Core.sameButPend (c d : Core) : Prop := { d with pend := c.pend } = c

end Sys2Proof.Machine
end

