-- ==== Sys2Proof/Certificates/Slice0/Obligations.lean ====
section
/-! DEFINITION. The statements for the provers, and the words they are made of.  Each docstring names the rules of spec/ that
the statement formalises, and says where it rests on a choice of the model (log n: notes/assumptions/<n>.md). -/

namespace Sys2Proof.Spec

open Sys2Proof Sys2Proof.Machine

/-! ### Results put on their way -/

/-- A core with other entries on their way. -/
def pending (c : Core) (l : List Pend) : Core := { c with pend := l }

/-- The next state of an instruction that makes the executing core into c and puts results on their way: each result with the
issue cycles until it is visible, and for each source its file, its last-use bit and its code, the releases at the end of the
bundle's reads (R64).  Everything else of the machine stays as it is. -/
def sentFrom (s : State) (c : Core) (res : List (Nat × PendKind)) (src : List (Nat × Bool × BitVec 6)) : State :=
  s.setCore s.ictx.core (pending c (c.pend ++ (res.map fun x => Pend.mk x.1 c.cur c.cur x.2) ++
    (src.filter fun x => x.2.1 && decide (x.2.2.toNat < 48)).map fun x => Pend.mk 0 c.cur c.cur (.release x.1 x.2.2)))

/-- The same where nothing else of the core changes. -/
def sent (s : State) (res : List (Nat × PendKind)) (src : List (Nat × Bool × BitVec 6)) : State := sentFrom s s.cur res src

/-- A trap of bank 0: the core drains from this clock cycle, the cause is recorded, and nothing else changes; the bundle
takes no effect (R201). -/
def trapped (s : State) (code : Nat) : State :=
  let t : TrapInfo := ⟨s.ictx.slot, code, s.ictx.pc⟩
  { s.setCore s.ictx.core { s.cur with run := .drain (s.clkOf s.ictx.core) (.trap t) } with
    ictx := { s.ictx with trap := some t } }

/-- The executing core changed, nothing else. -/
def changed (s : State) (c : Core) : State := s.setCore s.ictx.core c

/-- Two states in which nothing that can be read differs: every core, column, die and package, and the rest. -/
def alike (s t : State) : Prop :=
  (∀ k, s.core k = t.core k) ∧ (∀ k, s.col k = t.col k) ∧ (∀ k, s.die k = t.die k) ∧ (∀ k, s.pkg k = t.pkg k) ∧
    { s with cores := t.cores, columns := t.columns, dies := t.dies, pkgs := t.pkgs } = t

/-- The outcome is a next state in which everything reads as in t. -/
def completesAs (o : Out) (t : State) : Prop := ∃ t', o = .next t' ∧ alike t' t

/-- An event scheduled in a clock cycle of the executing core's die (log 1). -/
def due (s : State) (clk : Nat) (e : Ev) : State := { s with agenda := s.agenda ++ [⟨.die (dieOf s.ictx.core), clk, e⟩] }

/-- The loop registers of the executing bank (R124). -/
def withLoop (c : Core) (l : LoopRegs) : Core := c.modBank fun b => { b with loop := l }

/-- A core with one more result on its way. -/
def sending (c : Core) (left : Nat) (k : PendKind) : Core := { c with pend := c.pend ++ [⟨left, c.cur, c.cur, k⟩] }

/-- The unsigned and the signed reading of a word (R117). -/
def u (a : W) : Nat := a.toNat
def i (a : W) : Int := a.toInt

/-- The low 32 bits of a number. -/
def wrapN (n : Nat) : W := BitVec.ofNat 32 n
def wrapI (n : Int) : W := BitVec.ofInt 32 n

/-- `sat` of R10 at 32 bits. -/
def sat32 (x : Int) : W := wrapI (max (-2147483648) (min 2147483647 x))

/-- The magnitude of a finite value that is known exactly. -/
def exactly (m : Nat) (e : Int) : ℚ := m * (2 : ℚ) ^ e

/-- The real number that a finite value is. -/
def real : XVal → Option ℚ
  | .zero _ => some 0
  | .fin neg m e false => some (if neg then -exactly m e else exactly m e)
  | _ => none

/-- The integer nearest to a number, the even one of two. -/
def nearest (x : ℚ) (n : Int) : Prop := |x - n| < 1 / 2 ∨ (|x - n| = 1 / 2 ∧ n % 2 = 0)

end Sys2Proof.Spec
/-! ### The scalar slot (05_core_scalar_branch.md) -/

namespace Sys2Proof.Spec

open Sys2Proof Sys2Proof.Machine

/-- R117, the forms of two operands: constructor, latency, r. -/
def arith : List ((FmtR → Instr) × Nat × (W → W → W)) :=
  [(.iadd, 1, fun a b => wrapN (u a + u b)), (.isub, 1, fun a b => wrapI (i a - i b)),
   (.imul, 3, fun a b => wrapI (i a * i b)), (.imulh, 3, fun a b => wrapI (i a * i b / 4294967296)),
   (.imulhu, 3, fun a b => wrapN (u a * u b / 4294967296)),
   (.and, 1, fun a b => wrapN (u a &&& u b)), (.or, 1, fun a b => wrapN (u a ||| u b)),
   (.xor, 1, fun a b => wrapN (u a ^^^ u b)), (.andn, 1, fun a b => wrapN (u a &&& (4294967295 - u b))),
   (.shl, 1, fun a b => wrapN (u a * 2 ^ (u b % 32))), (.shr, 1, fun a b => wrapN (u a / 2 ^ (u b % 32))),
   (.sra, 1, fun a b => wrapI (i a / 2 ^ (u b % 32))),
   (.rotl, 1, fun a b => wrapN (u a * 2 ^ (u b % 32) + u a / 2 ^ (32 - u b % 32))),
   (.min, 1, fun a b => if i a ≤ i b then a else b), (.max, 1, fun a b => if i a ≤ i b then b else a),
   (.minu, 1, fun a b => if u a ≤ u b then a else b), (.maxu, 1, fun a b => if u a ≤ u b then b else a),
   (.shadd1, 1, fun a b => wrapN (u a + 2 * u b)), (.shadd2, 1, fun a b => wrapN (u a + 4 * u b)),
   (.shadd3, 1, fun a b => wrapN (u a + 8 * u b)),
   (.iadds, 1, fun a b => sat32 (i a + i b)), (.isubs, 1, fun a b => sat32 (i a - i b))]

/-- R117, the forms of one operand, of latency 1: CLZ counts the bits above the highest set bit, POPC the set bits. -/
def unary : List ((FmtRA → Instr) × (W → W)) :=
  [(.clz, fun a => wrapN ((List.range 32).takeWhile fun n => !a.getLsbD (31 - n)).length),
   (.popc, fun a => wrapN ((List.range 32).map fun n => (a.getLsbD n).toNat).sum),
   (.mov, fun a => a)]

/-- R118: the conditions of the compares. -/
def compares : List ((FmtP → Instr) × (W → W → Bool)) :=
  [(.cmpeq, fun a b => decide (a = b)), (.cmpne, fun a b => decide (a ≠ b)), (.cmplt, fun a b => decide (i a < i b)),
   (.cmple, fun a b => decide (i a ≤ i b)), (.cmpltu, fun a b => decide (u a < u b)),
   (.cmpleu, fun a b => decide (u a ≤ u b)), (.cmpbit, fun a b => a.getLsbD (u b % 32))]

/-- The truth table of R88 for the types 0 to 6: what goes to P1 and to P2, by the guard and the condition. -/
def ctWrites (ct : Nat) (guard c : Bool) : Option Bool × Option Bool :=
  if guard then
    match ct with
    | 0 => (some c, some !c)
    | 1 => (some c, some !c)
    | 2 => if c then (none, none) else (some false, some true)
    | 3 => if c then (some false, some true) else (none, none)
    | 4 => if c then (some true, some false) else (none, none)
    | 5 => if c then (none, none) else (some true, some false)
    | _ => if c then (some true, none) else (none, some true)
  else if ct = 1 then (some false, some false) else (none, none)

/-- The physical predicate that a name selects (R67). -/
def physical (prb n : Nat) : Nat := if n < 8 then n else 8 + (n - 8 + prb) % 8

/-- A named predicate's write as a pending entry holds it. -/
def predWrites (prb n : Nat) (v : Option Bool) : List (Nat × Bool) :=
  match v with
  | some b => [(physical prb n, b)]
  | none => []

end Sys2Proof.Spec

open Sys2Proof Sys2Proof.Machine

/-- R117 with R87 and R115: with a true guard each arithmetic, logical and shift instruction sends r of its table, to be
visible after its latency and pushed; with a false guard it sends nothing; in both cases the last-use bits release, and
nothing else of the machine changes. -/
def Sys2Proof.Spec.ScalarArithmeticSendsItsResult : Prop :=
  (∀ x ∈ Spec.arith, ∀ (f : FmtR) (s : State),
    exec (x.1 f) s = .next (Spec.sent s
      (if s.guard f.gn f.g then [(x.2.1, .sres f.d (x.2.2 (s.rs 0 f.a) (s.rb f.x f.b)))] else [])
      [(0, f.la, f.a), (0, f.lb, f.b)])) ∧
  (∀ x ∈ Spec.unary, ∀ (f : FmtRA) (s : State),
    exec (x.1 f) s = .next (Spec.sent s
      (if s.guard f.gn f.g then [(1, .sres f.d (x.2 (s.rs 0 f.a)))] else []) [(0, f.la, f.a)])) ∧
  (∀ s : State, exec .nop s = .next s)

/-- R119: SEL writes a or b by its guard fields, always, and pushes; both last-use bits act. -/
def Sys2Proof.Spec.SelAlwaysWrites : Prop :=
  ∀ (f : FmtR) (s : State),
    exec (.sel f) s = .next (Spec.sent s
      [(1, .sres f.d (if xor (s.cur.bank.readP f.g.toNat) f.gn then s.rs 0 f.a else s.rb f.x f.b))]
      [(0, f.la, f.a), (0, f.lb, f.b)])

/-- R118 with R88 and R67: a compare writes P1 and P2 under its combining type after latency 1, under the guard too where
the type says so, and pushes nothing; the stage predicates are those that the names select at issue. -/
def Sys2Proof.Spec.ComparesWriteTheirPredicates : Prop :=
  ∀ x ∈ Spec.compares, ∀ (f : FmtP) (s : State), f.ct.toNat ≤ 6 →
    exec (x.1 f) s = .next (Spec.sent s
      [(1, .preds
        (Spec.predWrites s.cur.bank.prb.toNat f.p1.toNat
            (Spec.ctWrites f.ct.toNat (s.cur.bank.readP f.g.toNat) (x.2 (s.rs 0 f.a) (s.rs 1 f.b))).1 ++
          Spec.predWrites s.cur.bank.prb.toNat f.p2.toNat
            (Spec.ctWrites f.ct.toNat (s.cur.bank.readP f.g.toNat) (x.2 (s.rs 0 f.a) (s.rs 1 f.b))).2))] [])

/-- R120: the moves that read: MFC a control register, MFP the named predicates with p0 as 1, MFB a base register, MFQ a
word of a ring register, MFTASK (in bank 1) a register of bank 0; each is visible after latency 1 and pushed. -/
def Sys2Proof.Spec.MovesFromSendTheirResult : Prop :=
  ∀ s : State,
    (∀ f : FmtMfc, s.guard f.gn f.g = true →
      exec (.mfc f) s = .next (Spec.sent s [(1, .sres f.d (s.readCtl f.sel))] [])) ∧
    (∀ f : FmtD, s.guard f.gn f.g = true → ∃ r : W,
      exec (.mfp f) s = .next (Spec.sent s [(1, .sres f.d r)] []) ∧
      (∀ n < 16, r.getLsbD n = s.cur.bank.readP n) ∧ r.getLsbD 0 = true ∧ r.toNat < 2 ^ 16) ∧
    (∀ f : FmtMfb, s.guard f.gn f.g = true →
      exec (.mfb f) s = .next (Spec.sent s [(1, .sres f.d (BitVec.ofNat 32 (s.cur.bank.readB f.n.toNat).toNat))] [])) ∧
    (∀ f : FmtMfq, s.guard f.gn f.g = true →
      exec (.mfq f) s = .next (Spec.sent s [(1, .sres f.d
        (BitVec.ofNat 32 ((s.cur.bank.readQ f.n.toNat).toNat / 2 ^ (32 * f.w.toNat))))] [])) ∧
    (∀ f : FmtMftask, s.cur.cur = true → s.guard f.gn f.g = true → f.n.toNat < 48 →
      s.cur.bank0.releasedS f.n.toNat = false →
      exec (.mftask f) s = .next (Spec.sent s [(1, .sres f.d (sget 0 s.cur.bank0.s f.n.toNat))] []))

/-- R120: the moves that write: MTC a control register it may write with a value its map allows, MTP the predicates that
the mask selects (never p0), MTB the physical base register the name selects, MTQ a word of a ring register, MTTASK (in
bank 1) a register of bank 0; each is visible after latency 1, and none is pushed. -/
def Sys2Proof.Spec.MovesToSendTheirWrite : Prop :=
  ∀ s : State,
    (∀ f : FmtMtc, s.guard f.gn f.g = true → (s.cur.cur = true ∨ bank1Reg f.sel = false) →
      s.cur.ctlForbidden f.sel (s.rs 0 f.a) = false →
      exec (.mtc f) s = .next (Spec.sent s [(1, .ctl f.sel (s.rs 0 f.a))] [(0, f.la, f.a)])) ∧
    (∀ f : FmtMtp, s.guard f.gn f.g = true → ∃ w,
      exec (.mtp f) s = .next (Spec.sent s [(1, .preds w)] [(0, f.la, f.a), (0, f.lb, f.b)]) ∧
      ∀ p, p ∈ w ↔ ∃ n, 1 ≤ n ∧ n < 16 ∧ (s.rb f.x f.b).getLsbD n = true ∧
        p = (Spec.physical s.cur.bank.prb.toNat n, (s.rs 0 f.a).getLsbD n)) ∧
    (∀ f : FmtMtb, s.guard f.gn f.g = true →
      exec (.mtb f) s = .next (Spec.sent s
        [(1, .base ((f.n.toNat + s.cur.bank.brb.toNat) % 8) (BitVec.ofNat 23 (s.rs 0 f.a).toNat))] [(0, f.la, f.a)])) ∧
    (∀ f : FmtMtq, s.guard f.gn f.g = true →
      exec (.mtq f) s = .next (Spec.sent s [(1, .qword f.n.toNat f.w.toNat (s.rs 0 f.a))] [(0, f.la, f.a)])) ∧
    (∀ f : FmtMttask, s.cur.cur = true → s.guard f.gn f.g = true →
      exec (.mttask f) s = .next (Spec.changed s { s.cur with pend := s.cur.pend ++ ⟨1, true, false, .reg f.n (s.rs 0 f.a)⟩ ::
        (if f.la && decide (f.a.toNat < 48) then [⟨0, true, true, .release 0 f.a⟩] else []) }))

/-- R72, R74 to R77, R79, R124: what each control register reads as, its fields in their places and every other bit zero; the
flags of a unit are those of any of its lanes, and the bus registers read as written. Bank 1 alone writes the bus registers
and those from CAUSE on; and the forbidden values are a rounding mode above 4, a page select above 59, and a valid page entry
whose frame is loading or whose page another valid entry holds. -/
def Sys2Proof.Spec.ControlRegistersReadTheirMaps : Prop :=
  (∀ s : State,
    let k := s.ictx.core
    let c := s.cur
    let b := c.bank
    let l := b.loop
    let d := s.die (dieOf k)
    let x := s.col (colOf k)
    let reads (n : Nat) (v : Nat) : Prop := s.readCtl (BitVec.ofNat 6 n) = BitVec.ofNat 32 v
    reads 0x00 (k / 1024 * 2 ^ 19 + k / 512 % 2 * 2 ^ 18 + k / 128 % 4 * 2 ^ 16 + k / 8 % 16 * 2 ^ 12 + k % 8 * 2 ^ 9) ∧
    reads 0x01 c.coord.toNat ∧ reads 0x02 c.stage.toNat ∧ reads 0x03 (d.phase.toNat % 2 ^ 32) ∧
    reads 0x04 (d.phase.toNat / 2 ^ 32) ∧ reads 0x05 c.icycle.toNat ∧
    (swf 0 b.flags = true → let v := s.readCtl 0x08
      ∀ i < 32, v.getLsbD i = (decide (i < 5) && (List.range 64).any (fun z => (sget 0 b.flags z).getLsbD i) ||
        decide (8 ≤ i) && decide (i < 13) && (List.range 64).any fun z => (sget 0 b.flags (64 + z)).getLsbD (i - 8))) ∧
    reads 0x09 b.round.toNat ∧ reads 0x0A b.srSeed.toNat ∧ reads 0x0B (b.prb.toNat * 16 + b.brb.toNat) ∧
    reads 0x0C (c.pfmt1.toNat * 256 + c.pfmt0.toNat * 16 + c.act.toNat) ∧ reads 0x10 x.mcmask.toNat ∧
    reads 0x11 (x.vbSlotsNext.getD x.vbSlots).toNat ∧ reads 0x12 (x.vbBankNext.getD x.vbBank).toNat ∧
    reads 0x18 (c.causeSlot.toNat * 2 ^ 21 + c.causeCode.toNat) ∧ reads 0x19 c.trapPc.toNat ∧ reads 0x1A c.ckpPc.toNat ∧
    reads 0x1B c.corr.toNat ∧ reads 0x1C c.debugPend.toNat ∧ reads 0x1D c.cpsel.toNat ∧
    reads 0x1E (sget 0 c.codeMap c.cpsel.toNat).toNat ∧ reads 0x20 l.trip.toNat ∧ reads 0x21 l.pass.toNat ∧
    reads 0x22 l.idx.toNat ∧
    reads 0x23 (l.pass32.toNat * 2 ^ 14 + l.act.toNat * 2 ^ 13 + l.div.toNat * 2 ^ 12 + l.drn.toNat * 2 ^ 11 + l.nst.toNat * 2 ^ 8 +
      l.len.toNat) ∧
    reads 0x24 l.body.toNat ∧ reads 0x25 l.lpc.toNat ∧ reads 0x26 l.res.toNat ∧ reads 0x27 l.rem.toNat ∧
    ∀ n < 8, reads (0x28 + n) (sget 0 l.linc n).toNat) ∧
  (∀ sel : BitVec 6, bank1Reg sel = true ↔ sel = 0x11 ∨ sel = 0x12 ∨ 0x18 ≤ sel.toNat) ∧
  (∀ (c : Core) (sel : BitVec 6) (v : W), swf 0 c.codeMap = true →
    (c.ctlForbidden sel v = true ↔ (sel = 0x09 ∧ 5 ≤ v.toNat % 8) ∨ (sel = 0x1D ∧ 60 ≤ v.toNat) ∨
      (sel = 0x1E ∧ v.getLsbD 31 = true ∧ (c.cpsel.toNat ∈ c.loading ∨
        ∃ n, n ≠ c.cpsel.toNat ∧ (sget 0 c.codeMap n).getLsbD 31 = true ∧
          (sget 0 c.codeMap n).toNat % 16384 = v.toNat % 16384))))

/-- R74, R75, R120, R122, R200: in bank 0, MFTASK, MTTASK, RFT, CPLD and a write of a bank-1 register raise PRIV whatever
the guard: the core begins its drain with the cause recorded and the instruction has no other effect; and a forbidden value
raises CTL_VALUE under a true guard. -/
def Sys2Proof.Spec.PrivilegedFormsTrapInBankZero : Prop :=
  ∀ s : State, s.cur.cur = false →
    (∀ f, exec (.mftask f) s = .next (Spec.trapped s 0x0003)) ∧
    (∀ f, exec (.mttask f) s = .next (Spec.trapped s 0x0003)) ∧
    exec .rft s = .next (Spec.trapped s 0x0003) ∧
    (∀ f, exec (.cpld f) s = .next (Spec.trapped s 0x0003)) ∧
    (∀ f : FmtMtc, bank1Reg f.sel = true → exec (.mtc f) s = .next (Spec.trapped s 0x0003)) ∧
    (∀ f : FmtMtc, bank1Reg f.sel = false → s.guard f.gn f.g = true → s.cur.ctlForbidden f.sel (s.rs 0 f.a) = true →
      exec (.mtc f) s = .next (Spec.trapped s 0x0010))

/-- R121, R122: TRAPI with a true guard in bank 0 raises SWTRAP with its argument in the low five bits of the code, and with
a false guard does nothing; RFT in bank 1 ends the service: the core runs bank 1 out and then resumes at CKP_PC as the
register stands, and nothing else changes. -/
def Sys2Proof.Spec.TrapiAndRft : Prop :=
  ∀ s : State,
    (∀ f : FmtTrapi, s.guard f.gn f.g = true → s.cur.cur = false →
      exec (.trapi f) s = .next (Spec.trapped s (0x0020 + f.arg.toNat))) ∧
    (∀ f : FmtTrapi, s.guard f.gn f.g = false → exec (.trapi f) s = .next s) ∧
    (s.cur.cur = true → exec .rft s = .next (Spec.changed s { s.cur with run := .rftRun s.cur.ckpPc }))


/-! ### The branch slot (05_core_scalar_branch.md) -/

/-- R123, R115: outside a loop, a taken transfer sends the next issue to its target: BR and CALL to the bundle's offset plus
four times the signed field, BRI and CALLI to bits [25:2] of their register, RET to those of s47; the calls write the offset
of the next bundle to s47 after latency 1, and nothing else changes; a transfer that is not taken changes nothing.  (That the
target of BR and CALL is taken modulo 2^26 is the model's choice, log 11.) -/
def Sys2Proof.Spec.TransfersGoToTheirTarget : Prop :=
  ∀ s : State, s.cur.bank.loop.act = false →
    let c := s.cur
    let rel (off : BitVec 21) : PC := BitVec.ofInt 26 (s.ictx.pc.toNat + 4 * off.toInt)
    let reg (a : BitVec 6) : PC := BitVec.ofNat 26 (4 * ((s.rs 0 a).toNat / 4))
    let link : PendKind := .reg 47 (s.ictx.next.zeroExtend 32)
    (∀ f : FmtBJ, s.guard f.gn f.g = true →
      exec (.br f) s = .next (Spec.changed s { c with pc := rel f.off }) ∧
      exec (.call f) s = .next (Spec.changed s (Spec.sending { c with pc := rel f.off } 1 link))) ∧
    (∀ f : FmtBX, s.guard f.gn f.g = true →
      exec (.bri f) s = .next (Spec.changed s { c with pc := reg f.a }) ∧
      exec (.calli f) s = .next (Spec.changed s (Spec.sending { c with pc := reg f.a } 1 link))) ∧
    (∀ f : FmtG, s.guard f.gn f.g = true →
      exec (.ret f) s = .next (Spec.changed s { c with pc := reg 47 })) ∧
    (∀ f : FmtBJ, s.guard f.gn f.g = false → exec (.br f) s = .next s ∧ exec (.call f) s = .next s) ∧
    (∀ f : FmtBX, s.guard f.gn f.g = false → exec (.bri f) s = .next s ∧ exec (.calli f) s = .next s) ∧
    (∀ f : FmtG, s.guard f.gn f.g = false → exec (.ret f) s = .next s)

/-- R126: LOOP with a true guard arms the engine with its register's trip count and its fields, sets p8 and clears p9 to p15
by name after latency 1, resumes a drained loop at its own offset with LREM and LRES (after which no drain is pending and
LRES reads 0, R132), and with a trip count of 0 clears the LINC entries and continues at the first bundle after the body,
which the LOOP finds from the headers of the bundles between (R129). -/
def Sys2Proof.Spec.LoopArmsTheEngine : Prop :=
  ∀ (f : FmtLoop) (s : State) (after : PC), s.cur.bank.loop.act = false → s.guard f.gn f.g = true →
    s.cur.skip s.cur.cur (f.len.toNat + 1) s.ictx.next = .ok after →
    let c := s.cur
    let l := c.bank.loop
    let resumes := l.drn = true ∧ l.lpc = s.ictx.pc
    (¬ resumes → s.rs 0 f.a = 0 →
      exec (.loop f) s = .next (Spec.changed s { Spec.withLoop c { l with linc := [], act := false } with pc := after })) ∧
    (¬ resumes → s.rs 0 f.a ≠ 0 →
      exec (.loop f) s = .next (Spec.changed s (Spec.sending (Spec.withLoop c
        { l with trip := s.rs 0 f.a, pass := 0, pass32 := false, idx := 0, act := true, div := f.div, nst := f.nst,
                 len := f.len, body := s.ictx.next, cnt := 0, arm := s.ictx.pc, after := some after }) 1
        (.preds ((List.range 8).map fun n => (Spec.physical c.bank.prb.toNat (8 + n), decide (n = 0))))))) ∧
    (resumes → l.rem = 0 →
      exec (.loop f) s = .next (Spec.changed s
        { Spec.withLoop c { l with drn := false, res := 0, linc := [], act := false } with pc := after })) ∧
    (resumes → l.rem ≠ 0 →
      exec (.loop f) s = .next (Spec.changed s (Spec.sending (Spec.withLoop c
        { l with drn := false, res := 0, trip := l.rem, pass := 0, pass32 := false, idx := l.res, act := true, div := f.div,
                 nst := f.nst, len := f.len, body := s.ictx.next, cnt := 0, arm := s.ictx.pc, after := some after }) 1
        (.preds ((List.range 8).map fun n => (Spec.physical c.bank.prb.toNat (8 + n), decide (n = 0)))))))

/-- R125, R129, R130: LINC fills the lowest invalid entry with V, K, D and INC, LEXIT disarms the loop, clears the entries
and continues at the first bundle after the body, which its LOOP found (a loop that no LOOP armed finds it from the headers:
log 11), and ROT lowers the bases it names by one, modulo 8, after latency 1. -/
def Sys2Proof.Spec.LincLexitRot : Prop :=
  ∀ s : State,
    let c := s.cur
    let l := c.bank.loop
    (∀ (f : FmtLinc) (n : Nat), l.act = false → s.guard f.gn f.g = true → n < 8 →
      (∀ m < n, (sget 0 l.linc m).getLsbD 31 = true) → (sget 0 l.linc n).getLsbD 31 = false →
      let entry : W := BitVec.ofNat 32 (2 ^ 31 + 2 ^ 30 * f.k.toNat + 2 ^ 24 * f.d.toNat + f.inc.toNat)
      exec (.linc f) s = .next (Spec.changed s (Spec.withLoop c { l with linc := sset 0 l.linc n entry }))) ∧
    (∀ (f : FmtG) (after : PC), l.act = true → s.guard f.gn f.g = true →
      (l.after = some after ∨ (l.after = none ∧ c.skip c.cur (l.len.toNat - l.cnt) s.ictx.next = .ok after)) →
      exec (.lexit f) s = .next (Spec.changed s { Spec.withLoop c { l with linc := [], act := false } with pc := after })) ∧
    (∀ f : FmtRot, s.guard f.gn f.g = true →
      exec (.rot f) s = .next (Spec.sent s [(1, .rot
        (if f.brb then BitVec.ofNat 3 ((c.bank.brb.toNat + 7) % 8) else c.bank.brb)
        (if f.prb then BitVec.ofNat 3 ((c.bank.prb.toNat + 7) % 8) else c.bank.prb))] []))

/-- R125, R126, R128, R129: what the loop engine forbids raises LOOP_FORM: a transfer, LOOP, LINC, PHASE or HALT while a loop
is armed, whatever the guard, a LINC with eight valid entries, and a LEXIT while none is armed. -/
def Sys2Proof.Spec.LoopFormTraps : Prop :=
  ∀ s : State, s.cur.cur = false →
    let l := s.cur.bank.loop
    let bad := Host.Outcome.next (φ := Fault) (ρ := Refusal) (Spec.trapped s 0x0018)
    (l.act = true → ∀ (f1 : FmtBJ) (f2 : FmtBX) (f3 : FmtG) (f4 : FmtLoop) (f5 : FmtLinc) (f6 : FmtPhase)
      (f7 : FmtPhaseRg),
      exec (.br f1) s = bad ∧ exec (.call f1) s = bad ∧ exec (.bri f2) s = bad ∧ exec (.calli f2) s = bad ∧
      exec (.ret f3) s = bad ∧ exec (.loop f4) s = bad ∧ exec (.linc f5) s = bad ∧ exec (.phase f6) s = bad ∧
      exec (.phaseRg f7) s = bad ∧ exec (.halt f3) s = bad) ∧
    (l.act = false → (∀ n < 8, (sget 0 l.linc n).getLsbD 31 = true) → ∀ f : FmtLinc, s.guard f.gn f.g = true →
      exec (.linc f) s = bad) ∧
    (l.act = false → ∀ f : FmtG, exec (.lexit f) s = bad)

namespace Sys2Proof.Spec

/-- The register that a LINC entry names (R124): a base register by its name under a rotation base, or a scalar register. -/
def lincNames (brb : BitVec 3) (e : W) : Bool × Nat :=
  if e.getLsbD 30 then (true, ((e.extractLsb' 24 6).toNat % 8 + brb.toNat) % 8) else (false, (e.extractLsb' 24 6).toNat)

/-- The sum of the signed increments of the valid entries that name a register, as a word. -/
def lincSum (linc : SMap W) (brb : BitVec 3) (r : Bool × Nat) : W :=
  wrapI (((List.range 8).map fun n =>
    let e := sget 0 linc n
    if e.getLsbD 31 = true ∧ lincNames brb e = r then (e.extractLsb' 0 14).toInt else 0).sum)

/-- What the loop-back sends to a register that entries name: its value and the sum, a base register's in 23 bits. -/
def lincWrite (b : Bank) (linc : SMap W) (brb : BitVec 3) (r : Bool × Nat) : PendKind :=
  if r.1 then .base r.2 (BitVec.ofNat 23 ((sget 0 b.b r.2).toNat + (lincSum linc brb r).toNat))
  else .reg (BitVec.ofNat 6 r.2) (sget 0 b.s r.2 + lincSum linc brb r)

end Sys2Proof.Spec

/-- R127, R131: at the end of a body pass the engine first drains a divisible loop for which a request is pending, recording
where it resumes and lowering the trip count; when the pass was not the last, the first body bundle issues next, and with
latency 1 the pass number rises, the index rises while iterations remain, the stage predicates p8 to p(8 + NST) say which
stages run a source iteration, and each register that valid LINC entries name receives the sum of their increments, in one
write for each register; after pass N + NST - 1 the loop is disarmed and its LINC entries are cleared.  (What a released
register reads as is left open, R64; which register an entry with D beyond form BI's range names is the model's choice,
log 11.) -/
def Obligations.LoopBackAdvancesThePass : Prop :=
  ∀ (s : State) (k : Nat), s.ev.k = k →
    let c := s.core k
    let l0 := c.bank.loop
    let nxt := l0.passNo + 1
    let request := ((s.taskOf k).map (·.preq)).getD false
    let drained : LoopRegs :=
      { l0 with res := l0.idx + 1, rem := BitVec.ofNat 32 (l0.trip.toNat - nxt), lpc := l0.arm, drn := true, drnNew := true,
                trip := BitVec.ofNat 32 nxt }
    let l := if l0.div = true ∧ request = true ∧ l0.drn = false ∧ nxt < l0.trip.toNat then drained else l0
    let idx : W := if nxt < l.trip.toNat then l.idx + 1 else l.idx
    let stages := (List.range (l.nst.toNat + 1)).map fun n =>
      (Spec.physical c.nextRot.2.toNat (8 + n), decide (n ≤ nxt ∧ nxt - n < l.trip.toNat))
    let entry (n : Nat) : W := sget 0 l.linc n
    let named (r : Bool × Nat) : Prop := ∃ n < 8, (entry n).getLsbD 31 = true ∧ Spec.lincNames c.nextRot.1 (entry n) = r
    (nxt < l.trip.toNat + l.nst.toNat → ∃ t, exec .loopBack s = .next t ∧
      (∀ j, j ≠ k → t.core j = s.core j) ∧ (t.core k).pc = l.body ∧
      (t.core k).bank = { c.bank with loop := { l with cnt := 0 } } ∧
      ∃ more : List PendKind, (t.core k).pend = c.pend ++
        (.loopPass (BitVec.ofNat 32 nxt) (decide (2 ^ 32 ≤ nxt)) idx :: .preds stages :: more).map (Pend.mk 1 c.cur c.cur) ∧
        ((∀ d, named (false, d) → d < 48 ∧ c.bank.releasedS d = false) → more.Nodup ∧
          ∀ x, x ∈ more ↔ ∃ r, named r ∧ x = Spec.lincWrite c.bank l.linc c.nextRot.1 r)) ∧
    (l.trip.toNat + l.nst.toNat ≤ nxt →
      exec .loopBack s = .next (s.setCore k (Spec.withLoop c { l with linc := [], act := false, cnt := 0 })))

/-! ### Barriers, PHASE and HALT -/

/-- R134: an arrival that PART allows sets the core's own bit in its own copy and in the other copies three cycles later;
when every layer of PART has then arrived, the barrier completes in that cycle. -/
def Sys2Proof.Spec.BarrierArrival : Prop :=
  ∀ (f : FmtBB) (s : State), s.guard f.gn f.g = true → s.barMismatch f.bar.toNat = false → s.ictx.trap = none →
    s.cur.retired = false →
    let c := s.cur
    let k := s.ictx.core
    let n := f.bar.toNat
    let z := layerOf k
    (c.cur = true ∨ (c.barLog[c.barPos]? = none ∧ c.barPos < 32)) → (c.bar n).arr.getLsbD z = false →
    let b' : Bar := { c.bar n with arr := (c.bar n).arr ||| (1#4 <<< z) }
    let c' : Core :=
      { c with bars := sset Bar.reset c.bars n b', barLog := if c.cur then c.barLog else c.barLog ++ [n],
               barPos := if c.cur then c.barPos else c.barPos + 1 }
    let all := ∀ y < 4, (c.bar n).part.getLsbD y = true → y ≠ z →
      ((s.core (coreIn (colOf k) y)).bar n).arr.getLsbD y = true
    let arrival := Spec.due s (s.clkOf k + 3) (evI .arrivalPropagate k n)
    let both := Spec.due arrival (s.clkOf k + 3) (evI .barrierComplete (colOf k) n)
    (¬ all → Spec.completesAs (exec (.barr f) s) (Spec.changed arrival c') ∧
      Spec.completesAs (exec (.bsync f) s) (Spec.changed arrival { c' with run := .barWait n })) ∧
    (all → Spec.completesAs (exec (.barr f) s) (Spec.changed both c') ∧
      Spec.completesAs (exec (.bsync f) s) (Spec.changed both { c' with run := .barWait n }))

/-- R134, R208: an arrival in bank 0 raises BAR_MISMATCH where PART leaves out the core's own layer or is not the same in every
layer it names, BAR_REARRIVE where the core has arrived already, and CKP_BUDGET where the interval holds 32 arrivals (that an
arrival which is both raises BAR_REARRIVE is the model's choice, log 22); BSYNC traps as BARR does. -/
def Sys2Proof.Spec.BarrierTraps : Prop :=
  ∀ (f : FmtBB) (s : State), s.guard f.gn f.g = true → s.cur.cur = false →
    let k := s.ictx.core
    let n := f.bar.toNat
    let b := s.cur.bar n
    let other (y : Nat) : Bar := (s.core (coreIn (colOf k) y)).bar n
    let same := b.part.getLsbD (layerOf k) = true ∧ ∀ y < 4, b.part.getLsbD y = true → (other y).part = b.part
    let bad (code : Nat) := exec (.barr f) s = .next (Spec.trapped s code) ∧ exec (.bsync f) s = .next (Spec.trapped s code)
    (¬ same → bad 0x0019) ∧
    (same → s.cur.barLog[s.cur.barPos]? = none → b.arr.getLsbD (layerOf k) = true → bad 0x001A) ∧
    (same → s.cur.barLog[s.cur.barPos]? = none → b.arr.getLsbD (layerOf k) = false → 32 ≤ s.cur.barPos → bad 0x001C)

/-- R136: an arrival of an interval that runs again is not made again: it is checked against the next entry of the log, an
equal one passes (and a BSYNC then waits only while the generation of the logged arrival has not completed: no later entry
names the barrier and the core's own bit stands), and a different one is a disagreement of the rerun, or outside a rerun
retires the core. -/
def Sys2Proof.Spec.LoggedArrivalsAreCheckedAndNotMadeAgain : Prop :=
  ∀ (f : FmtBB) (s : State) (m : Nat), s.guard f.gn f.g = true → s.barMismatch f.bar.toNat = false → s.ictx.trap = none →
    s.cur.cur = false → s.cur.retired = false → s.cur.barLog[s.cur.barPos]? = some m →
    let c := s.cur
    let n := f.bar.toNat
    let c' : Core := { c with barPos := c.barPos + 1 }
    let waits : Prop := (c.bar n).arr.getLsbD (layerOf s.ictx.core) = true ∧ n ∉ c.barLog.drop (c.barPos + 1)
    (m = n → exec (.barr f) s = .next (Spec.changed s c') ∧
      Spec.completesAs (exec (.bsync f) s) (Spec.changed s (if waits then { c' with run := .barWait n } else c'))) ∧
    (∀ r, m ≠ n → c.rerun = some r → Spec.completesAs (exec (.barr f) s)
      (Spec.changed s { c' with rerun := some { r with disagree := true } })) ∧
    (m ≠ n → c.rerun = none → exec (.barr f) s = .next ((Spec.changed s c').retireCore s.ictx.core) ∧
      exec (.bsync f) s = exec (.barr f) s)

/-- R135, R136: BWAIT waits while the core's own arrival has not completed (that of an interval that runs again, while the
generation of the logged arrival has not), and otherwise does nothing. -/
def Sys2Proof.Spec.BwaitWaitsForTheOwnArrival : Prop :=
  ∀ (f : FmtBB) (s : State), s.guard f.gn f.g = true →
    exec (.bwait f) s = .next
      (if (s.cur.bar f.bar.toNat).arr.getLsbD (layerOf s.ictx.core) = true ∧
          (s.cur.cur = true ∨ f.bar.toNat ∉ s.cur.barLog.drop s.cur.barPos) then
        Spec.changed s { s.cur with run := .barWait f.bar.toNat } else s)

/-- R134: an arrival reaches all four copies of the column, and completion clears ARR and toggles GEN in all four; PART, the
other barriers and every other core stay as they are. -/
def Sys2Proof.Spec.BarrierEventsReachEveryCopy : Prop :=
  ∀ s : State,
    (∃ t, exec .arrivalPropagate s = .next t ∧
      (∀ z < 4, t.core (coreIn (colOf s.ev.k) z) = (s.core (coreIn (colOf s.ev.k) z)).modBar s.ev.i fun b =>
        { b with arr := b.arr ||| (1#4 <<< layerOf s.ev.k) }) ∧
      ∀ j, (∀ z < 4, j ≠ coreIn (colOf s.ev.k) z) → t.core j = s.core j) ∧
    (∃ t, exec .barrierComplete s = .next t ∧
      (∀ z < 4, t.core (coreIn s.ev.k z) = (s.core (coreIn s.ev.k z)).modBar s.ev.i fun b =>
        { b with arr := 0, gen := !b.gen }) ∧
      ∀ j, (∀ z < 4, j ≠ coreIn s.ev.k z) → t.core j = s.core j)

/-- R245, R246, R137: PHASE in bank 0 declares its budget (64 times its field, or its register rounded up to a multiple of
64, at most 64 times 1,048,575), commits a checkpoint and arrives after its dwell; HALT in bank 0 ends issue once the core's
outstanding work is done; PHASE in bank 1 does nothing. -/
def Sys2Proof.Spec.PhaseAndHaltEndTheSuperstep : Prop :=
  ∀ s : State, s.cur.bank.loop.act = false →
    let ckp (t : State) : State := { t with ictx := { t.ictx with ckp := true } }
    (∀ f : FmtPhase, s.guard f.gn f.g = true → s.cur.cur = false →
      exec (.phase f) s = .next (ckp (Spec.changed s { s.cur with run := .phase (64 * f.body.toNat) false }))) ∧
    (∀ f : FmtPhaseRg, s.guard f.gn f.g = true → s.cur.cur = false →
      exec (.phaseRg f) s = .next (ckp (Spec.changed s { s.cur with
        run := .phase (min (64 * (((s.rs 0 f.a).toNat + 63) / 64)) (64 * 1048575)) false }))) ∧
    (∀ (f : FmtPhase) (f' : FmtPhaseRg), s.cur.cur = true → exec (.phase f) s = .next s ∧ exec (.phaseRg f') s = .next s) ∧
    (∀ f : FmtG, s.guard f.gn f.g = true → s.cur.cur = false →
      exec (.halt f) s = .next (Spec.changed s { s.cur with run := .halt false })) ∧
    (∀ f : FmtG, s.guard f.gn f.g = false → exec (.halt f) s = .next s)

/-! ### The vector slots (06_core_vector.md) -/

namespace Sys2Proof.Spec

open Sys2Proof Sys2Proof.Machine

/-- A V result as it issues: the unit of the slot, destination, active lanes, operation, sources, mode; it enters vn0. -/
def vectorResult (s : State) (d : BitVec 6) (m : BitVec 64) (form : VForm) (mode : RMode) (a b c e : VReg) : PendKind :=
  .vres { unit := s.unit, d := d, mask := m, form := form, a := a, b := b, c := c, e := e, mode := mode, push := true }

/-- The active lanes of a GS field, by R89: a whole-instruction guard p0 to p15, or the lanes of vp0 to vp7 of the unit, or
their complement; none where the instruction does not run. -/
def activeLanes (s : State) (gs : BitVec 5) : Option (BitVec 64) :=
  let b := s.cur.bank
  if gs.toNat < 16 then (if b.readP gs.toNat then some (BitVec.allOnes 64) else none)
  else if gs.toNat < 24 then some (b.readVP s.unit (gs.toNat - 16))
  else some (~~~(b.readVP s.unit (gs.toNat - 24)))

/-- The file of the executing unit in a release: 1 for V0, 2 for V1. -/
def vFile (s : State) : Nat := if s.unit then 2 else 1

/-- The operand of a vector source field; `site` tells the free values of released registers apart (log 4). -/
def vSrc (s : State) (site : Nat) (r : BitVec 6) : VReg := s.rv s.unit site r

/-- R140, R142: the two-source float forms, which take latency 4. -/
def floatForms : List ((FmtVR → Instr) × FOp × FTy) :=
  [(.vaddF32, .add, .f32), (.vaddF16, .add, .f16), (.vaddBf16, .add, .bf16),
   (.vsubF32, .sub, .f32), (.vsubF16, .sub, .f16), (.vsubBf16, .sub, .bf16),
   (.vmulF32, .mul, .f32), (.vmulF16, .mul, .f16), (.vmulBf16, .mul, .bf16),
   (.vminF32, .min, .f32), (.vminF16, .min, .f16), (.vminBf16, .min, .bf16),
   (.vmaxF32, .max, .f32), (.vmaxF16, .max, .f16), (.vmaxBf16, .max, .bf16)]

/-- R142: the fused forms, which take latency 5 and read D. -/
def fmaForms : List ((FmtVR → Instr) × FTy) := [(.vfmaF32, .f32), (.vfmaF16, .f16), (.vfmaBf16, .bf16)]

/-- R144: the integer forms with a saturation bit, and those without. -/
def satForms : List ((FmtVRX → Instr) × IOp × Nat) :=
  [(.viaddI32, .add, 32), (.viaddI16, .add, 16), (.viaddI8, .add, 8),
   (.visubI32, .sub, 32), (.visubI16, .sub, 16), (.visubI8, .sub, 8),
   (.vimulI32, .mul, 32), (.vimulI16, .mul, 16), (.vimulI8, .mul, 8)]
def minMaxForms : List ((FmtVR → Instr) × IOp × Nat) :=
  [(.viminI32, .min, 32), (.viminI16, .min, 16), (.viminI8, .min, 8),
   (.vimaxI32, .max, 32), (.vimaxI16, .max, 16), (.vimaxI8, .max, 8)]

/-- R147, R148: the reductions (latency 6) and the functions (latency 8). -/
def unaryForms : List ((FmtVRA → Instr) × Nat × VForm) :=
  [(.vredAddF32, 6, .red .addF), (.vredMaxF32, 6, .red .maxF), (.vredMinF32, 6, .red .minF),
   (.vredAddI32, 6, .red .addI), (.vredMaxI32, 6, .red .maxI), (.vredMinI32, 6, .red .minI),
   (.vexp2, 8, .fn .exp2), (.vlog2, 8, .fn .log2), (.vrcp, 8, .fn .rcp), (.vrsq, 8, .fn .rsq)]

/-- R144, R146: what lane l of the result is, from the lanes of a and b; the latency. -/
def laneForms : List ((FmtVR → Instr) × Nat × ((Nat → W) → (Nat → W) → Nat → W)) :=
  [(.vand, 4, fun a b l => wrapN (u (a l) &&& u (b l))), (.vor, 4, fun a b l => wrapN (u (a l) ||| u (b l))),
   (.vxor, 4, fun a b l => wrapN (u (a l) ^^^ u (b l))),
   (.vandn, 4, fun a b l => wrapN (u (a l) &&& (4294967295 - u (b l)))),
   (.vshl, 4, fun a b l => wrapN (u (a l) * 2 ^ (u (b l) % 32))),
   (.vshr, 4, fun a b l => wrapN (u (a l) / 2 ^ (u (b l) % 32))),
   (.vsra, 4, fun a b l => wrapI (i (a l) / 2 ^ (u (b l) % 32))),
   (.vperm, 6, fun a b l => a (u (b l) % 64)), (.vbcst, 6, fun a b _ => a (u (b 0) % 64))]

/-- The elements of a compare's TY field (R145): float types, integer widths. -/
def tyFloat (ty : BitVec 2) : FTy := if ty = 0 then .f32 else if ty = 1 then .f16 else .bf16
def tyWidth (ty : BitVec 2) : Nat := if ty = 0 then 32 else if ty = 1 then 16 else 8

/-- The condition of R145 on elements x and y as stored, and its element width. -/
def floatCond (ty : BitVec 2) (c : XVal → XVal → Bool) : Nat × (Nat → Nat → Bool) :=
  let t := tyFloat ty
  (t.fmt.width, fun x y => c (t.fmt.decode x) (t.fmt.decode y))
def signedCond (ty : BitVec 2) (c : Int → Int → Bool) : Nat × (Nat → Nat → Bool) :=
  (tyWidth ty, fun x y => c (sextNat (tyWidth ty) x) (sextNat (tyWidth ty) y))

def vectorCompares : List ((FmtVP → Instr) × (BitVec 2 → Nat × (Nat → Nat → Bool))) :=
  [(.vfcmpeq, fun t => floatCond t fun a b => !a.isNan && !b.isNan && XVal.cmp a b == .eq),
   (.vfcmpne, fun t => floatCond t fun a b => a.isNan || b.isNan || XVal.cmp a b != .eq),
   (.vfcmplt, fun t => floatCond t fun a b => !a.isNan && !b.isNan && XVal.cmp a b == .lt),
   (.vfcmple, fun t => floatCond t fun a b => !a.isNan && !b.isNan && XVal.cmp a b != .gt),
   (.vfcmpun, fun t => floatCond t fun a b => a.isNan || b.isNan),
   (.vicmpeq, fun t => signedCond t fun a b => a == b), (.vicmpne, fun t => signedCond t fun a b => a != b),
   (.vicmplt, fun t => signedCond t fun a b => decide (a < b)),
   (.vicmple, fun t => signedCond t fun a b => decide (a ≤ b)),
   (.vicmpltu, fun t => (tyWidth t, fun x y => decide (x < y))),
   (.vicmpleu, fun t => (tyWidth t, fun x y => decide (x ≤ y)))]

/-- The value and the overflow of one integer element by R144. -/
def intResult (op : IOp) (n : Nat) (sat : Bool) (a b : Nat) : Int × Bool :=
  let x := sextNat n a
  let y := sextNat n b
  let z := match op with
    | .add => x + y
    | .sub => x - y
    | .mul => x * y
    | .min => min x y
    | .max => max x y
  let z' := if sat then max (-(2 ^ (n - 1) : Int)) (min (2 ^ (n - 1) - 1) z) else z
  (z', decide (z' ≠ z))

end Sys2Proof.Spec

/-- R89, R138, R140 to R142, R144, R147, R148: a vector arithmetic form reads its sources at issue and sends its operation
with the active lanes and ROUND's mode, to be visible after its latency; where the whole-instruction guard is false it sends
nothing; the last-use bits release in either case, and nothing else changes. -/
def Sys2Proof.Spec.VectorArithmeticIssues : Prop :=
  ∀ s : State,
    let mode := RMode.ofCode 7 s.cur.bank.round
    let go (gs : BitVec 5) (lat : Nat) (r : BitVec 64 → PendKind) : List (Nat × PendKind) :=
      match Spec.activeLanes s gs with
      | some m => [(lat, r m)]
      | none => []
    let src (f : FmtVR) := [(Spec.vFile s, f.la, f.a), (Spec.vFile s, f.lb, f.b)]
    (∀ x ∈ Spec.floatForms, ∀ f : FmtVR, exec (x.1 f) s = .next (Spec.sent s (go f.gs 4 fun m =>
      Spec.vectorResult s f.d m (.fbin x.2.1 x.2.2) mode (Spec.vSrc s 0 f.a) (Spec.vSrc s 1 f.b) 0 0) (src f))) ∧
    (∀ x ∈ Spec.fmaForms, ∀ f : FmtVR, exec (x.1 f) s = .next (Spec.sent s (go f.gs 5 fun m =>
      Spec.vectorResult s f.d m (.fma x.2) mode (Spec.vSrc s 0 f.a) (Spec.vSrc s 1 f.b) (Spec.vSrc s 2 f.d) 0) (src f))) ∧
    (∀ x ∈ Spec.satForms, ∀ f : FmtVRX, exec (x.1 f) s = .next (Spec.sent s (go f.gs 4 fun m =>
      Spec.vectorResult s f.d m (.iarith x.2.1 x.2.2 f.x) mode (Spec.vSrc s 0 f.a) (Spec.vSrc s 1 f.b) 0 0)
      [(Spec.vFile s, f.la, f.a), (Spec.vFile s, f.lb, f.b)])) ∧
    (∀ x ∈ Spec.minMaxForms, ∀ f : FmtVR, exec (x.1 f) s = .next (Spec.sent s (go f.gs 4 fun m =>
      Spec.vectorResult s f.d m (.iarith x.2.1 x.2.2 false) mode (Spec.vSrc s 0 f.a) (Spec.vSrc s 1 f.b) 0 0) (src f))) ∧
    (∀ x ∈ Spec.unaryForms, ∀ f : FmtVRA, exec (x.1 f) s = .next (Spec.sent s (go f.gs x.2.1 fun m =>
      Spec.vectorResult s f.d m x.2.2 mode (Spec.vSrc s 0 f.a) 0 0 0) [(Spec.vFile s, f.la, f.a)]))

/-- R144, R146: the logical and shift forms, VPERM, VBCST, VSEL and VMOV send, for an instruction that runs, a register whose
every lane is what their tables say of the lanes of the sources (and of vpN and of D for VSEL), all read at issue. -/
def Sys2Proof.Spec.VectorLaneFormsSendTheirLanes : Prop :=
  ∀ (s : State) (m : BitVec 64),
    let mode := RMode.ofCode 7 s.cur.bank.round
    (∀ x ∈ Spec.laneForms, ∀ f : FmtVR, Spec.activeLanes s f.gs = some m → ∃ v : VReg,
      exec (x.1 f) s = .next (Spec.sent s [(x.2.1, Spec.vectorResult s f.d m .value mode v 0 0 0)]
        [(Spec.vFile s, f.la, f.a), (Spec.vFile s, f.lb, f.b)]) ∧
      ∀ l < 64, lane v l = x.2.2 (lane (Spec.vSrc s 0 f.a)) (lane (Spec.vSrc s 1 f.b)) l) ∧
    (∀ f : FmtVSel, Spec.activeLanes s f.gs = some m → ∃ v : VReg,
      exec (.vsel f) s = .next (Spec.sent s [(4, Spec.vectorResult s f.d m .value mode v 0 0 0)]
        [(Spec.vFile s, f.la, f.a)]) ∧
      ∀ l < 64, lane v l = if (s.cur.bank.readVP s.unit f.n.toNat).getLsbD l then lane (Spec.vSrc s 0 f.a) l
        else lane (Spec.vSrc s 2 f.d) l) ∧
    (∀ f : FmtVRA, Spec.activeLanes s f.gs = some m →
      exec (.vmov f) s = .next (Spec.sent s [(4, Spec.vectorResult s f.d m .value mode (Spec.vSrc s 0 f.a) 0 0 0)]
        [(Spec.vFile s, f.la, f.a)]))

/-- R145 with R88 and R90: a vector compare writes its two vector predicates after latency 4, in each lane as the truth table
says for the guard and the lane's condition, which holds only when it holds for every sub-element; it pushes nothing and
releases nothing. -/
def Sys2Proof.Spec.VectorComparesWriteTheirPredicates : Prop :=
  ∀ x ∈ Spec.vectorCompares, ∀ (f : FmtVP) (s : State), f.ct.toNat ≤ 6 →
    ∃ w1 v1 w2 v2 : BitVec 64,
      exec (x.1 f) s = .next (Spec.sent s [(4, .vpreds s.unit [(f.p1.toNat, w1, v1), (f.p2.toNat, w2, v2)])] []) ∧
      ∀ l < 64,
        let n := (x.2 f.ty).1
        let c := (List.range (32 / n)).all fun i =>
          (x.2 f.ty).2 (subElem (lane (Spec.vSrc s 0 f.a) l) n i) (subElem (lane (Spec.vSrc s 1 f.b) l) n i)
        let w := Spec.ctWrites f.ct.toNat (s.cur.bank.readP f.g.toNat) c
        (w1.getLsbD l = w.1.isSome ∧ v1.getLsbD l = w.1.getD false) ∧
          (w2.getLsbD l = w.2.isSome ∧ v2.getLsbD l = w.2.getD false)

/-- R92, R140, R141, R150, R152, R154 to R158: the conversions take latency 3 with their own mode and the tensor exponents of
the literal, VBMAX 6, VDQ 3, VQDUAL 8 with four consecutive source registers, and VBCVT reads its second source after three
more issue cycles; all lanes are active, and the last-use bits release. -/
def Sys2Proof.Spec.ConversionsAndBlocksIssue : Prop :=
  ∀ s : State,
    let all := BitVec.allOnes 64
    let mode (m : BitVec 3) := RMode.ofCode m s.cur.bank.round
    let teS := (s.ictx.lit.extractLsb' 0 8).toInt
    let teD := (s.ictx.lit.extractLsb' 8 8).toInt
    let file := Spec.vFile s
    (∀ f : FmtVC,
      exec (.vcvt f) s = .next (Spec.sent s [(3, Spec.vectorResult s f.d all (.cvt f.df.toNat f.sf.toNat teS teD false)
        (mode f.mode) (Spec.vSrc s 0 f.a) 0 0 0)] [(file, f.la, f.a)]) ∧
      exec (.vcvts f) s = .next (Spec.sent s [(3, Spec.vectorResult s f.d all (.cvt f.df.toNat f.sf.toNat teS teD true)
        (mode f.mode) (Spec.vSrc s 0 f.a) 0 0 0)] [(file, f.la, f.a)])) ∧
    (∀ f : FmtVBMax, exec (.vbmax f) s = .next (Spec.sent s [(6, Spec.vectorResult s f.d all (.bmax f.bt.toNat) .rne
      (Spec.vSrc s 0 f.a) 0 0 0)] [(file, f.la, f.a)])) ∧
    (∀ f : FmtVDq, exec (.vdq f) s = .next (Spec.sent s [(3, Spec.vectorResult s f.d all (.dq f.bt.toNat) .rne
      (Spec.vSrc s 0 f.a) (Spec.vSrc s 1 f.b) 0 0)] [(file, f.la, f.a), (file, f.lb, f.b)])) ∧
    (∀ f : FmtVQDual, exec (.vqdual f) s = .next (Spec.sent s [(8, Spec.vectorResult s f.d all (.qdual f.bt.toNat)
      (mode f.mode) (Spec.vSrc s 0 f.a) (Spec.vSrc s 1 (f.a + 1)) (Spec.vSrc s 2 (f.a + 2)) (Spec.vSrc s 3 (f.a + 3)))]
      [(file, f.la, f.a), (file, f.la, f.a + 1), (file, f.la, f.a + 2), (file, f.la, f.a + 3)])) ∧
    (∀ f : FmtVBCvt, ∃ r : VRes, exec (.vbcvt f) s = .next (Spec.sent s
        [(3, .lateB r f.b s.ictx.lit (decide (f.b.toNat < 48) && s.cur.bank.releasedV s.unit f.b.toNat))]
        [(file, f.la, f.a), (file, f.lb, f.b)]) ∧
      r.a = Spec.vSrc s 0 f.a ∧ r.d = f.d ∧ r.unit = s.unit ∧ r.mask = all ∧ r.form = .bcvt f.bt.toNat ∧
      r.mode = mode f.mode ∧ r.push = true)

/-- R149, R159, R208: VFLG samples the five flags of each active lane of its unit and clears the masked ones, VSTR reads 64
consecutive entries' word W of the statistics buffer modulo 4,096 entries, and VSTW writes them after two issue cycles and
counts 256 undo bytes, or raises CKP_BUDGET where they exceed the interval's 65,536. -/
def Sys2Proof.Spec.FlagAndStatisticsForms : Prop :=
  ∀ s : State,
    let off := if s.unit then 64 else 0
    let key (idx : BitVec 12) (w : BitVec 2) (l : Nat) := (idx.toNat + l) % 4096 * 4 + w.toNat
    (∀ (f : FmtVFlg) (m : BitVec 64), Spec.activeLanes s f.gs = some m → ∃ (t : State) (v : VReg) (b : Bank),
      exec (.vflg f) s = .next t ∧
      t = Spec.changed s (Spec.sending (s.cur.setBankN s.cur.cur b) 4 (Spec.vectorResult s f.d m .value .rne v 0 0 0)) ∧
      (∀ l < 64, lane v l = (sget 0 s.cur.bank.flags (off + l)).zeroExtend 32) ∧
      b = { s.cur.bank with flags := b.flags } ∧
      ∀ l, sget 0 b.flags l = if off ≤ l ∧ l < off + 64 ∧ m.getLsbD (l - off) = true
        then sget 0 s.cur.bank.flags l &&& ~~~f.mask else sget 0 s.cur.bank.flags l) ∧
    (∀ f : FmtVStr, ∃ v : VReg,
      exec (.vstr f) s = .next (Spec.sent s
        [(6, Spec.vectorResult s f.v (BitVec.allOnes 64) .value .rne v 0 0 0)] []) ∧
      ∀ l < 64, lane v l = sget 0 s.cur.stat (key f.idx f.w l)) ∧
    (∀ f : FmtVStw, (s.cur.cur = true ∨ s.cur.undoCount + 256 ≤ 65536) →
      let c := s.cur
      let c' : Core := { c with undoCount := if c.cur then c.undoCount else c.undoCount + 256 }
      exec (.vstw f) s = .next (Spec.sentFrom s c'
        [(2, .statw ((List.range 64).map fun l => (key f.idx f.w l, lane (Spec.vSrc s 0 f.v) l)))]
        [(Spec.vFile s, f.la, f.v)])) ∧
    (∀ f : FmtVStw, s.cur.cur = false → 65536 < s.cur.undoCount + 256 →
      exec (.vstw f) s = .next (Spec.trapped s 0x001C))

/-- R144, R139, R56: when an integer result is formed, each element of an active lane is the low n bits of the exact result,
saturated under .S, masked lanes are zero, OVF is set in the lanes where a saturation changed a value, and no other flag,
register or generator of the bank changes. -/
def Sys2Proof.Spec.IntegerElementsWrapOrSaturate : Prop :=
  ∀ (b : Bank) (r : VRes) (op : IOp) (n : Nat) (sat : Bool), r.form = .iarith op n sat → n = 8 ∨ n = 16 ∨ n = 32 →
    let off := if r.unit then 64 else 0
    let res (l i : Nat) := Spec.intResult op n sat (subElem (lane r.a l) n i) (subElem (lane r.b l) n i)
    (∀ l < 64, ∀ i < 32 / n, subElem (lane (formV b r).1 l) n i =
      if r.mask.getLsbD l then ((res l i).1 % (2 ^ n : Nat)).toNat else 0) ∧
    (formV b r).2.2 = { b with flags := (formV b r).2.2.flags } ∧
    (∀ l < 64, sget 0 (formV b r).2.2.flags (off + l) = sget 0 b.flags (off + l) |||
      (if r.mask.getLsbD l ∧ ∃ i < 32 / n, (res l i).2 = true then 2#5 else 0#5))

namespace Sys2Proof.Spec

open Sys2Proof Sys2Proof.Machine

/-- A generator after n draws (R26, R27). -/
def advanced (n : Nat) (g : W) : W := (List.range n).foldl (fun g _ => genNext g) g

/-- The number that the first core lane of a unit has. -/
def laneBase (unit : Bool) : Nat := if unit then 64 else 0

/-- What the rounding number i (from 0) of a lane of a result uses: bits [31:16] of the generator advanced i + 1 times under
RSX, nothing under the other modes (R27). -/
def drawn (b : Bank) (r : VRes) (l i : Nat) : Nat :=
  if r.mode = .rsx then (advanced (i + 1) (sget 0 b.gen (laneBase r.unit + l))).toNat / 65536 else 0

/-- Lane l of a unit after a result: its flags have had `f` ORed in (R56), and its generator has made n draws under RSX. -/
def laneAfter (b : Bank) (r : VRes) (l : Nat) (f : BitVec 5) (n : Nat) : Prop :=
  sget 0 (formV b r).2.2.flags (laneBase r.unit + l) = sget 0 b.flags (laneBase r.unit + l) ||| f ∧
    sget 0 (formV b r).2.2.gen (laneBase r.unit + l) =
      if r.mode = .rsx then advanced n (sget 0 b.gen (laneBase r.unit + l)) else sget 0 b.gen (laneBase r.unit + l)

/-- The OR of the flags of the n roundings of a lane. -/
def flagsOf (n : Nat) (f : Nat → Flags) : BitVec 5 := (List.range n).foldl (fun a i => a ||| (f i).toBits) 0

/-- Code number e of n bits in a register (R153). -/
def codeAt (v : VReg) (n e : Nat) : Nat := v.toNat / 2 ^ (n * e) % 2 ^ n

/-- The active lanes of a result, in ascending order. -/
def active (r : VRes) : List Nat := (List.range 64).filter fun l => r.mask.getLsbD l

end Sys2Proof.Spec

namespace Sys2Proof.Spec

open Sys2Proof Sys2Proof.Machine

/-- R23: the magnitude of code n of a linear format, its exponent range continued upwards. -/
def codeMagnitude (f : FloatFmt) (n : Nat) : ℚ :=
  let h := 2 ^ (f.p - 1)
  (if n < h then (n : ℚ) else (n % h + h : Nat) * 2 ^ (n / h - 1)) * (2 : ℚ) ^ (f.emin - (f.p - 1 : Nat))

/-- R25, R27: a magnitude that lies the fraction x of a step above a code goes up to the next. -/
def goesUp (mode : RMode) (neg odd : Bool) (x : ℚ) (u : Nat) : Prop :=
  match mode with
  | .rne => 1 / 2 < x ∨ (x = 1 / 2 ∧ odd = true)
  | .rtz => False
  | .rdn => 0 < x ∧ neg = true
  | .rup => 0 < x ∧ neg = false
  | .rsx => (u : Int) < ⌊x * 65536⌋

/-- R28: the grid points below 2 and the thresholds of a log format, by its fractional bits. -/
def logGrid (f : Nat) : List Nat × List Nat :=
  if f = 3 then ([0x8000, 0x8B96, 0x9838, 0xA5FF, 0xB505, 0xC567, 0xD745, 0xEAC1],
    [0x85AB, 0x91C4, 0x9EF5, 0xAD58, 0xBD09, 0xCE25, 0xE0CD, 0xF525])
  else if f = 2 then ([0x8000, 0x9838, 0xB505, 0xD745], [0x8B96, 0xA5FF, 0xC567, 0xEAC1])
  else ([0x8000, 0xB505], [0x9838, 0xD745])

end Sys2Proof.Spec

/-- R29, R31 to R33: a value known exactly is encoded once: in a linear format to the code below or above it as the mode says,
beyond the largest to that one or an infinity, in an integer rounded and saturated, in a log format by its 1.15 mantissa
against thresholds or grid points, each with its flags (RSX at overflow, and infinite sources: log 9). -/
def Sys2Proof.Spec.ValuesAreEncodedOnce : Prop :=
  ∀ (mode : RMode) (sat neg : Bool) (u m : Nat) (e : Int), 0 < m →
    let x := Spec.exactly m e
    (∀ f ∈ [fp32, fp16, bf16, e4m3, e5m2],
      let s (b : Bool) : Nat := if b then 2 ^ (f.width - 1) else 0
      let largest (b : Bool) : Nat × Flags := (s b + f.maxBits, ⟨false, true, false, true, false⟩)
      f.encode mode sat u .nan = (f.nan, ⟨true, false, false, false, true⟩) ∧
      f.encode mode sat u (.zero neg) = (s neg, Flags.none) ∧
      (f.encode mode sat u (.inf neg) = match f.inf, sat with
        | some i, false => (s neg + i, ⟨false, false, false, false, true⟩)
        | _, _ => largest neg) ∧
      ∃ n, Spec.codeMagnitude f n ≤ x ∧ x < Spec.codeMagnitude f (n + 1) ∧
        let t := (x - Spec.codeMagnitude f n) / (Spec.codeMagnitude f (n + 1) - Spec.codeMagnitude f n)
        let up := Spec.goesUp mode neg (decide (n % 2 = 1)) t u
        let beyond : Prop := match mode with
          | .rne => True
          | .rtz => False
          | .rdn => neg = true
          | .rup => neg = false
          | .rsx => up
        let is (r : Nat) : Prop :=
          (r ≤ f.maxBits → f.encode mode sat u (.fin neg m e false) = (s neg + r,
            ⟨false, false, decide (t ≠ 0 ∧ x < (2 : ℚ) ^ f.emin), decide (t ≠ 0), false⟩)) ∧
          (f.maxBits < r → (∀ i, f.inf = some i → sat = false → beyond →
              f.encode mode sat u (.fin neg m e false) = (s neg + i, ⟨false, true, false, true, true⟩)) ∧
            (f.inf = none ∨ sat = true ∨ ¬ beyond → f.encode mode sat u (.fin neg m e false) = largest neg))
        (up → is (n + 1)) ∧ (¬ up → is n)) ∧
    (∀ w ∈ [4, 8, 16, 32],
      let hi : Int := 2 ^ (w - 1) - 1
      let lo : Int := -(2 ^ (w - 1))
      encodeInt w mode u .nan = (0, ⟨true, false, false, false, false⟩) ∧
      encodeInt w mode u (.zero neg) = (0, Flags.none) ∧
      encodeInt w mode u (.inf neg) = (if neg then lo else hi, ⟨false, true, false, false, false⟩) ∧
      let n := ⌊x⌋₊
      let up := Spec.goesUp mode neg (decide (n % 2 = 1)) (x - n) u
      let is (k : Nat) : Prop :=
        let z : Int := if neg then -k else k
        encodeInt w mode u (.fin neg m e false) = (max lo (min hi z),
          ⟨false, decide (z < lo ∨ hi < z), false, decide (x ≠ n ∨ z < lo ∨ hi < z), false⟩)
      (up → is (n + 1)) ∧ (¬ up → is n)) ∧
    (∀ f ∈ [log8, log6, log4], ∀ te : Int,
      let s (b : Bool) : Nat := if b then 2 ^ (f.w - 1) else 0
      let mmax : Nat := 2 ^ (f.w - 1) - 1
      f.encode te mode u .nan = (2 ^ (f.w - 1), ⟨true, false, false, false, true⟩) ∧
      f.encode te mode u (.zero neg) = (0, Flags.none) ∧
      f.encode te mode u (.inf neg) = (s neg + mmax, ⟨false, true, false, true, false⟩) ∧
      ∃ (ex : Int) (m16 : Nat),
        let y := x * (2 : ℚ) ^ (15 - te - ex)
        2 ^ 15 ≤ y ∧ y < 2 ^ 16 ∧ m16 = ⌊y⌋₊ ∧
        let g := Spec.logGrid f.f
        let ng : Int := g.1.length
        let low := ((g.1.drop 1).filter fun v => decide (v ≤ m16)).length
        let gl := g.1.getD low 0
        let gh := g.1.getD (low + 1) 0x10000
        let exact : Prop := y = gl
        let c : Int := (g.2.filter fun v => decide ((v : ℚ) < y)).length
        let tie : Prop := ∃ v ∈ g.2, y = v
        let draws : Prop := u < (m16 - gl) * 65536 / (gh - gl)
        let up : Prop := ¬ exact ∧ ((mode = .rup ∧ neg = false) ∨ (mode = .rdn ∧ neg = true) ∨ (mode = .rsx ∧ draws))
        let is (n : Int) : Prop :=
          let k := n + f.bias
          (mmax < k → f.encode te mode u (.fin neg m e false) = (s neg + mmax, ⟨false, true, false, true, false⟩)) ∧
          (k < 1 → f.encode te mode u (.fin neg m e false) =
            (if (mode = .rup ∧ neg = false) ∨ (mode = .rdn ∧ neg = true) then s neg + 1 else 0,
              ⟨false, false, true, true, false⟩)) ∧
          (1 ≤ k → k ≤ mmax → f.encode te mode u (.fin neg m e false) =
            (s neg + k.toNat, ⟨false, false, false, decide (y ≠ gl), false⟩))
        (mode = .rne → (tie ∧ (ng * ex + c + f.bias) % 2 = 1 → is (ng * ex + c + 1)) ∧
          (¬ (tie ∧ (ng * ex + c + f.bias) % 2 = 1) → is (ng * ex + c))) ∧
        (mode ≠ .rne → (up → is (ng * ex + low + 1)) ∧ (¬ up → is (ng * ex + low))))

/-- R55, R56, R142, R143, R27: each element of an active lane of a float result is its exact result rounded
once under its mode, and a masked lane is zero; VFMA adds its third operand to the exact product; under RSX each rounding
draws once from its lane's generator (VMIN and VMAX never draw), and the lane's flags are those of its roundings. -/
def Sys2Proof.Spec.FloatElementsRoundOnce : Prop :=
  ∀ (b : Bank) (r : VRes),
    let rdn := decide (r.mode = .rdn)
    let el (t : FTy) (v : VReg) (l i : Nat) : XVal := t.fmt.decode (subElem (lane v l) t.fmt.width i)
    let rounded (t : FTy) (draws : Bool) (x : Nat → Nat → XVal) : Prop := ∀ l < 64,
      let e (i : Nat) := t.fmt.encode r.mode false (if draws then Spec.drawn b r l i else 0) (x l i)
      (∀ i < t.count, subElem (lane (formV b r).1 l) t.fmt.width i =
        if r.mask.getLsbD l then (e i).1 % 2 ^ t.fmt.width else 0) ∧
      Spec.laneAfter b r l (if r.mask.getLsbD l then Spec.flagsOf t.count fun i => (e i).2 else 0)
        (if r.mask.getLsbD l && draws then t.count else 0)
    (∀ (op : FOp) (t : FTy), r.form = .fbin op t →
      rounded t (op != .min && op != .max) fun l i =>
        match op with
        | .add => XVal.add rdn (el t r.a l i) (el t r.b l i)
        | .sub => XVal.add rdn (el t r.a l i) (el t r.b l i).negate
        | .mul => XVal.mul (el t r.a l i) (el t r.b l i)
        | .min => if (el t r.a l i).isNan || (el t r.b l i).isNan then .nan else XVal.least (el t r.a l i) (el t r.b l i)
        | .max => if (el t r.a l i).isNan || (el t r.b l i).isNan then .nan
          else XVal.greatest (el t r.a l i) (el t r.b l i)) ∧
    (∀ t : FTy, r.form = .fma t →
      rounded t true fun l i => XVal.add rdn (XVal.mul (el t r.a l i) (el t r.b l i)) (el t r.c l i))

/-- R147, R148, R27, R56: a reduction puts one value into every active lane and zero into the others: the exact sum rounded
once (under RSX with a draw of the lowest active lane's generator), the greatest or least value, NaN where an element is one,
or the signed sum saturated, the signed maximum or minimum; the value's flags go to every active lane.  A function result is
the exact value rounded once in each active lane. -/
def Sys2Proof.Spec.ReductionsAndFunctions : Prop :=
  ∀ (b : Bank) (r : VRes),
    let x (l : Nat) : XVal := fp32.decode (lane r.a l).toNat
    let on (l : Nat) : Bool := r.mask.getLsbD l
    let low := (Spec.active r).headD 0
    let everywhere (v : W) (f : Flags) (draws : Bool) : Prop := ∀ l < 64,
      lane (formV b r).1 l = (if on l then v else 0) ∧
        Spec.laneAfter b r l (if on l then f.toBits else 0) (if draws ∧ l = low then 1 else 0)
    let float (m : RMode) (u : Nat) (draws : Bool) (v : XVal) : Prop :=
      everywhere (BitVec.ofNat 32 (fp32.encode m false u v).1) (fp32.encode m false u v).2 draws
    let folded (f : XVal → XVal → XVal) : XVal := ((Spec.active r).drop 1).foldl (fun a l => f a (x l)) (x low)
    let anyNan := (Spec.active r).any fun l => (x l).isNan
    let sum : Int := ((Spec.active r).map fun l => (lane r.a l).toInt).sum
    (Spec.active r ≠ [] →
      (r.form = .red .addF → float r.mode (Spec.drawn b r low 0) true (folded (XVal.add (decide (r.mode = .rdn))))) ∧
      (r.form = .red .maxF → float .rne 0 false (if anyNan then .nan else folded XVal.greatest)) ∧
      (r.form = .red .minF → float .rne 0 false (if anyNan then .nan else folded XVal.least)) ∧
      (r.form = .red .addI → everywhere (Spec.sat32 sum)
        (if (Spec.sat32 sum).toInt ≠ sum then Flags.ovfOnly else Flags.none) false) ∧
      (r.form = .red .maxI → ∃ v : W, everywhere v Flags.none false ∧ (∃ l ∈ Spec.active r, v = lane r.a l) ∧
        ∀ l ∈ Spec.active r, (lane r.a l).toInt ≤ v.toInt) ∧
      (r.form = .red .minI → ∃ v : W, everywhere v Flags.none false ∧ (∃ l ∈ Spec.active r, v = lane r.a l) ∧
        ∀ l ∈ Spec.active r, v.toInt ≤ (lane r.a l).toInt)) ∧
    (∀ op : FnOp, r.form = .fn op → ∀ l < 64,
      let e := fp32.encode r.mode false (Spec.drawn b r l 0)
        (match op with
          | .exp2 => xexp2 (x l)
          | .log2 => xlog2 (x l)
          | .rcp => xrcp (x l)
          | .rsq => xrsq (x l))
      lane (formV b r).1 l = (if on l then BitVec.ofNat 32 e.1 else 0) ∧
        Spec.laneAfter b r l (if on l then e.2.toBits else 0) (if on l then 1 else 0))

/-- R150 to R158, R27: a conversion re-encodes as many elements as both formats fit (a copy in one format keeps its code, log
49) and zeroes the rest; VBMAX gives each block the word that its scale selects; VBCVT encodes its lanes under the block words
of its second source, VDQ decodes packed codes under theirs; VQDUAL encodes a 16 by 16 region twice, by rows and by columns,
with the 32 block words in the second register.  Each lane gets the flags of what it rounded or of the blocks it holds, and
under RSX draws once for each element rounded (a copy draws too, log 49; VBMAX and VDQ draw nothing). -/
def Sys2Proof.Spec.ConversionsAndBlocksEncode : Prop :=
  ∀ (b : Bank) (r : VRes),
    let v := (formV b r).1
    let f32 (a : VReg) (l : Nat) : XVal := fp32.decode (lane a l).toNat
    (∀ (df sf : Nat) (teS teD : Int) (sat : Bool), r.form = .cvt df sf teS teD sat →
      let kd := 32 / elemWidth df
      let ks := 32 / elemWidth sf
      let n := 64 * Nat.min ks kd
      let src (e : Nat) : Nat := subElem (lane r.a (e / ks)) (elemWidth sf) (e % ks)
      let copy : Prop := df = sf ∧ (isLogFmt df = true → teS = teD)
      ∀ l < 64, ∀ i < kd, subElem (lane v l) (elemWidth df) i =
        if n ≤ l * kd + i then 0
        else if copy then src (l * kd + i) % 2 ^ codeWidth df % 2 ^ elemWidth df
        else (encodeElem df teD r.mode sat (Spec.drawn b r l i) (decodeElem sf teS (src (l * kd + i)))).1 % 2 ^ elemWidth df) ∧
    (∀ (df sf : Nat) (teS teD : Int) (sat : Bool), r.form = .cvt df sf teS teD sat →
      let kd := 32 / elemWidth df
      let ks := 32 / elemWidth sf
      let n := 64 * Nat.min ks kd
      let copy : Prop := df = sf ∧ (isLogFmt df = true → teS = teD)
      ∀ l < 64, Spec.laneAfter b r l
        (if copy then 0 else Spec.flagsOf kd fun i => if n ≤ l * kd + i then Flags.none else
          (encodeElem df teD r.mode sat (Spec.drawn b r l i) (decodeElem sf teS
            (subElem (lane r.a ((l * kd + i) / ks)) (elemWidth sf) ((l * kd + i) % ks)))).2)
        (if (l + 1) * kd ≤ n then kd else 0)) ∧
    (∀ bt : Nat, r.form = .bmax bt →
      let t := BlkTy.ofBt bt
      let word (j : Nat) : Nat × Flags := selectBlock t 0 ((List.range t.size).map fun i => f32 r.a (j * t.size + i))
      v = BitVec.ofNat 2048 ((List.range (64 / t.size)).foldr (fun j x => (word j).1 + 65536 * x) 0) ∧
      ∀ l < 64, Spec.laneAfter b r l
        (Spec.flagsOf 2 fun i => if 2 * l + i < 64 / t.size then (word (2 * l + i)).2 else Flags.none) 0) ∧
    (∀ bt : Nat, r.form = .bcvt bt →
      let t := BlkTy.ofBt bt
      ∀ l < 64,
        let x := blkElem t (blockWord r.b (l / t.size)) (l % t.size) r.mode (Spec.drawn b r l 0) (f32 r.a l)
        Spec.codeAt v t.bits l = x.1 % 2 ^ t.bits ∧ Spec.laneAfter b r l x.2.toBits 1) ∧
    (∀ bt : Nat, r.form = .dq bt →
      let t := BlkTy.ofBt bt
      ∀ l < 64,
        let x := fp32.encode .rne false 0
          (blkDecode t (blockWord r.b (l / t.size)) (l % t.size) (Spec.codeAt r.a t.bits l) 0)
        lane v l = BitVec.ofNat 32 x.1 ∧ Spec.laneAfter b r l x.2.toBits 0) ∧
    (∀ bt : Nat, r.form = .qdual bt →
      let t := BlkTy.ofBt bt
      let el (y c : Nat) : XVal := dualElem [r.a, r.b, r.c, r.e] y c
      let row (y : Nat) : Nat × Flags := selectBlock t 0 ((List.range 16).map fun c => el y c)
      let col (c : Nat) : Nat × Flags := selectBlock t 0 ((List.range 16).map fun y => el y c)
      -- element (y, c) in the copy by rows and in that by columns; lane 16·(y mod 4) + c draws for them
      let byRow (y c : Nat) : Nat × Flags := blkElem t (row y).1 c r.mode (Spec.drawn b r (16 * (y % 4) + c) (y / 4)) (el y c)
      let byCol (y c : Nat) : Nat × Flags := blkElem t (col c).1 y r.mode (Spec.drawn b r (16 * (y % 4) + c) (4 + y / 4)) (el y c)
      (∀ y < 16, ∀ c < 16, Spec.codeAt v 4 (16 * y + c) = (byRow y c).1 % 16 ∧
        Spec.codeAt v 4 (256 + 16 * c + y) = (byCol y c).1 % 16) ∧
      (formV b r).2.1 = BitVec.ofNat 2048
        (((List.range 16).map (fun y => (row y).1) ++ (List.range 16).map fun c => (col c).1).foldr
          (fun w x => w + 65536 * x) 0) ∧
      ∀ l < 64, let y (k : Nat) := 4 * k + l / 16
        Spec.laneAfter b r l
          (((Spec.flagsOf 4 fun k => (byRow (y k) (l % 16)).2) ||| Spec.flagsOf 4 fun k => (byCol (y k) (l % 16)).2) |||
            ((Spec.flagsOf 4 fun k => (row (y k)).2) ||| (col (l % 16)).2.toBits)) 8)


/-! ### Results becoming visible (03_core_state.md, 08_core_local_memory.md) -/

namespace Sys2Proof.Spec

open Sys2Proof Sys2Proof.Machine

/-- An entry whose time has come and that RESULT_VISIBLE applies (R4). -/
def isDue (e : Pend) : Bool := e.left == 0 && !e.kind.later

/-- The state after RESULT_VISIBLE at a core differs only in that core, which has lost the entry, and there only in the bank
that the entry writes. -/
def showsIn (s t : State) (k : Nat) (e : Pend) (b : Bank) : Prop :=
  (∀ j, j ≠ k → t.core j = s.core j) ∧
    t.core k = { (s.core k).setBankN e.bank b with pend := (s.core k).pend.filter fun x => !isDue x } ∧
    t.columns = s.columns ∧ t.dies = s.dies ∧ t.pkgs = s.pkgs

/-- The core after RESULT_VISIBLE took its due entries. -/
def shown (s : State) (k : Nat) : Core := { s.core k with pend := (s.core k).pend.filter fun x => !isDue x }

/-- RESULT_VISIBLE changed this core to c, and no other and nothing else but columns and the agenda. -/
def showsCore (s t : State) (k : Nat) (c : Core) : Prop :=
  (∀ j, j ≠ k → t.core j = s.core j) ∧ t.core k = c ∧ t.dies = s.dies ∧ t.pkgs = s.pkgs

/-- No late read stands among the entries on their way. -/
def noLateRead (c : Core) : Prop := ∀ x ∈ c.pend, ∀ r rb lit st, x.kind ≠ .lateB r rb lit st

/-- The last-result file after a value enters (R63): the value first, the older entries one place on, the oldest lost. -/
def pushed {α : Type} (d : α) (old new : SMap α) (v : α) : Prop :=
  sget d new 0 = v ∧ ∀ n < 5, sget d new (n + 1) = sget d old n

end Sys2Proof.Spec

/-- R61 to R64: a scalar result visible alone enters the register its code names (the main file, whose
register becomes live, or the operand file; a code from 56 on discards it), an S result sn0 too; the rest of the bank stays. -/
def Sys2Proof.Spec.ScalarResultsBecomeVisible : Prop :=
  ∀ (s : State) (k : Nat) (e : Pend) (d : BitVec 6) (v : W), s.ev.k = k →
    (s.core k).pend.filter Spec.isDue = [e] →
    let b := (s.core k).bankN e.bank
    let n := d.toNat
    (e.kind = .sres d v ∨ e.kind = .reg d v) →
    ∃ (t : State) (b' : Bank), exec .resultVisible s = .next t ∧ Spec.showsIn s t k e b' ∧
      b' = { b with s := b'.s, sk := b'.sk, sn := b'.sn, relS := b'.relS } ∧
      (∀ m, sget 0 b'.s m = if m = n ∧ n < 48 then v else sget 0 b.s m) ∧
      (∀ m, sget 0 b'.sk m = if m + 48 = n ∧ n < 56 then v else sget 0 b.sk m) ∧
      (∀ m < 48, b'.releasedS m = if m = n then false else b.releasedS m) ∧
      (e.kind = .sres d v → Spec.pushed 0 b.sn b'.sn v) ∧ (e.kind = .reg d v → b'.sn = b.sn)

/-- R66, R67, R70, R76, R80: predicate writes reach the predicates they name and never p0, a base register write one base
register, a ring word write one word with its reserved bits zero, ring pointer writes the pointer and its wrap bit, a rotation
both bases, a loop-back's write PASS, PASS32 and IDX (R127); nothing else of the bank changes. -/
def Sys2Proof.Spec.OtherRegistersBecomeVisible : Prop :=
  ∀ (s : State) (k : Nat) (e : Pend), s.ev.k = k → (s.core k).pend.filter Spec.isDue = [e] →
    let b := (s.core k).bankN e.bank
    (∀ w : List (Nat × Bool), (∀ x ∈ w, x.1 < 16) → ((w.map (·.1)).filter (· ≠ 0)).Nodup → e.kind = .preds w →
      ∃ (t : State) (b' : Bank), exec .resultVisible s = .next t ∧ Spec.showsIn s t k e b' ∧ b' = { b with p := b'.p } ∧
        (∀ x ∈ w, x.1 ≠ 0 → b'.p.getLsbD x.1 = x.2) ∧
        ∀ m < 16, m = 0 ∨ m ∉ w.map (·.1) → b'.p.getLsbD m = b.p.getLsbD m) ∧
    (∀ (n : Nat) (v : BitVec 23), e.kind = .base n v →
      ∃ (t : State) (b' : Bank), exec .resultVisible s = .next t ∧ Spec.showsIn s t k e b' ∧ b' = { b with b := b'.b } ∧
        ∀ m, sget 0 b'.b m = if m = n then v else sget 0 b.b m) ∧
    (∀ (n w : Nat) (v : W), w < 4 → e.kind = .qword n w v →
      ∃ (t : State) (b' : Bank), exec .resultVisible s = .next t ∧ Spec.showsIn s t k e b' ∧ b' = { b with q := b'.q } ∧
        ∀ m, sget 0 b'.q m = if m = n then
          ((sget 0 b.q n &&& ~~~(0xFFFFFFFF#128 <<< (32 * w))) ||| (v.zeroExtend 128 <<< (32 * w))) &&& ringMask
          else sget 0 b.q m) ∧
    (∀ (n : Nat) (v : BitVec 8) (wr : Bool), e.kind = .qhead n v wr →
      ∃ (t : State) (b' : Bank), exec .resultVisible s = .next t ∧ Spec.showsIn s t k e b' ∧ b' = { b with q := b'.q } ∧
        (∀ m, m ≠ n → sget 0 b'.q m = sget 0 b.q m) ∧
        (Ring.ofReg (sget 0 b'.q n)) = { Ring.ofReg (sget 0 b.q n) with head := v.toNat, hwrap := wr }) ∧
    (∀ (n : Nat) (v : BitVec 8) (wr : Bool), e.kind = .qtail n v wr →
      ∃ (t : State) (b' : Bank), exec .resultVisible s = .next t ∧ Spec.showsIn s t k e b' ∧ b' = { b with q := b'.q } ∧
        (∀ m, m ≠ n → sget 0 b'.q m = sget 0 b.q m) ∧
        (Ring.ofReg (sget 0 b'.q n)) = { Ring.ofReg (sget 0 b.q n) with tail := v.toNat, twrap := wr }) ∧
    (∀ br pr : BitVec 3, e.kind = .rot br pr →
      ∃ t : State, exec .resultVisible s = .next t ∧ Spec.showsIn s t k e { b with brb := br, prb := pr }) ∧
    (∀ (p i : W) (h : Bool), e.kind = .loopPass p h i →
      ∃ t : State, exec .resultVisible s = .next t ∧
        Spec.showsIn s t k e { b with loop := { b.loop with pass := p, pass32 := h, idx := i } })

/-- R61 to R64, R66, R89, R139: a vector result writes the active lanes of the register its code names, of its unit's file,
which becomes live, or of the operand file both units share, or none from 56 on; masked lanes keep their values, but those of
a released register, which has none (log 48). The result enters vn0, zero in masked lanes, whatever its code; a loaded
register enters nothing; VQDUAL writes the next register too; a vector predicate write changes the lanes of its mask, never
vp0. -/
def Sys2Proof.Spec.VectorResultsBecomeVisible : Prop :=
  ∀ (s : State) (k : Nat) (e : Pend), s.ev.k = k → (s.core k).pend.filter Spec.isDue = [e] → Spec.noLateRead (s.core k) →
    let b := (s.core k).bankN e.bank
    let file (b : Bank) (u : Bool) := if u then b.v1 else b.v0
    -- lanes a of a mask m written to register d of a unit
    let written (b b' : Bank) (u : Bool) (d : Nat) (m : BitVec 64) (a : VReg) : Prop :=
      (∀ n, n ≠ d ∨ 48 ≤ d → sget 0 (file b' u) n = sget 0 (file b u) n) ∧ file b' (!u) = file b (!u) ∧
        (d < 48 → b'.releasedV u d = false ∧ ∀ l < 64,
          (m.getLsbD l = true → lane (sget 0 (file b' u) d) l = lane a l) ∧
          (m.getLsbD l = false → b.releasedV u d = false →
            lane (sget 0 (file b' u) d) l = lane (sget 0 (file b u) d) l)) ∧
        (∀ n < 48, n ≠ d → b'.releasedV u n = b.releasedV u n) ∧ (∀ n, b'.releasedV (!u) n = b.releasedV (!u) n) ∧
        (∀ n, n + 48 ≠ d → sget 0 b'.vk n = sget 0 b.vk n) ∧
        (48 ≤ d → d < 56 → ∀ l < 64, lane (sget 0 b'.vk (d - 48)) l =
          if m.getLsbD l then lane a l else lane (sget 0 b.vk (d - 48)) l) ∧
        b' = { b with v0 := b'.v0, v1 := b'.v1, relV0 := b'.relV0, relV1 := b'.relV1, vk := b'.vk, vn := b'.vn,
                      flags := b'.flags, gen := b'.gen }
    (∀ (u : Bool) (d : BitVec 6) (m : BitVec 64) (a : VReg), e.kind = .vload u d m a →
      ∃ (t : State) (b' : Bank), exec .resultVisible s = .next t ∧ Spec.showsIn s t k e b' ∧ written b b' u d.toNat m a ∧
        b'.vn = b.vn ∧ b'.flags = b.flags ∧ b'.gen = b.gen) ∧
    (∀ r : VRes, e.kind = .vres r → r.push = true → (∀ bt, r.form ≠ .qdual bt) →
      ∃ (t : State) (b' : Bank), exec .resultVisible s = .next t ∧ Spec.showsIn s t k e b' ∧
        written b b' r.unit r.d.toNat r.mask (formV b r).1 ∧ Spec.pushed 0 b.vn b'.vn (formV b r).1 ∧
        b'.flags = (formV b r).2.2.flags ∧ b'.gen = (formV b r).2.2.gen) ∧
    (∀ (r : VRes) (bt : Nat), e.kind = .vres r → r.push = true → r.form = .qdual bt → r.d.toNat < 47 →
      r.mask = BitVec.allOnes 64 →
      ∃ (t : State) (b' b1 : Bank), exec .resultVisible s = .next t ∧ Spec.showsIn s t k e b' ∧
        written b b1 r.unit r.d.toNat r.mask (formV b r).1 ∧ written b1 b' r.unit (r.d.toNat + 1) r.mask (formV b r).2.1 ∧
        Spec.pushed 0 b.vn b'.vn (formV b r).1 ∧ b'.flags = (formV b r).2.2.flags ∧ b'.gen = (formV b r).2.2.gen) ∧
    (∀ (b : Bank) (r : VRes), r.form = .value → (formV b r).2.2 = b ∧
      ∀ l < 64, lane (formV b r).1 l = if r.mask.getLsbD l then lane r.a l else 0) ∧
    (∀ (u : Bool) (n1 n2 : Nat) (m1 v1 m2 v2 : BitVec 64), n1 ≠ n2 ∨ n1 = 0 →
      e.kind = .vpreds u [(n1, m1, v1), (n2, m2, v2)] →
      ∃ (t : State) (b' : Bank), exec .resultVisible s = .next t ∧ Spec.showsIn s t k e b' ∧
        b' = { b with vp0 := b'.vp0, vp1 := b'.vp1 } ∧ (if u then b'.vp0 = b.vp0 else b'.vp1 = b.vp1) ∧
        b'.readVP u 0 = BitVec.allOnes 64 ∧
        ∀ j, j ≠ 0 → ∀ l < 64, (b'.readVP u j).getLsbD l =
          if j = n1 ∧ m1.getLsbD l = true then v1.getLsbD l
          else if j = n2 ∧ m2.getLsbD l = true then v2.getLsbD l else (b.readVP u j).getLsbD l)

/-- R62, R65, R56, R76: of two results visible at a core in one cycle, the later-issued remains in a scalar register, base
register or predicate, and both enter sn in issue order; of V0 and V1 results for one operand file register, V1's remains
whichever issued first (the model's reading of R62 beside R65, log 48); a write of FLAGS clears before the results of its
cycle set. -/
def Sys2Proof.Spec.ResultsOfOneCycleAreOrdered : Prop :=
  ∀ (s : State) (k : Nat) (x y : Pend), s.ev.k = k → (s.core k).pend.filter Spec.isDue = [x, y] → x.bank = y.bank →
    Spec.noLateRead (s.core k) →
    let b := (s.core k).bankN x.bank
    ∃ (t : State) (b' : Bank), exec .resultVisible s = .next t ∧
      (∀ (d : BitVec 6) (v w : W), x.kind = .sres d v → y.kind = .sres d w → Spec.showsIn s t k x b' ∧
        (d.toNat < 48 → sget 0 b'.s d.toNat = w) ∧ (48 ≤ d.toNat → d.toNat < 56 → sget 0 b'.sk (d.toNat - 48) = w) ∧
        sget 0 b'.sn 0 = w ∧ sget 0 b'.sn 1 = v ∧ ∀ n < 4, sget 0 b'.sn (n + 2) = sget 0 b.sn n) ∧
      (∀ (n : Nat) (v w : BitVec 23), x.kind = .base n v → y.kind = .base n w → Spec.showsIn s t k x b' ∧
        ∀ m, sget 0 b'.b m = if m = n then w else sget 0 b.b m) ∧
      (∀ (n : Nat) (v w : Bool), n ≠ 0 → n < 16 → x.kind = .preds [(n, v)] → y.kind = .preds [(n, w)] →
        Spec.showsIn s t k x b' ∧ ∀ m < 16, b'.p.getLsbD m = if m = n then w else b.p.getLsbD m) ∧
      (∀ p q : VRes, x.kind = .vres p → y.kind = .vres q → p.unit ≠ q.unit → p.form = .value → q.form = .value →
        p.d = q.d → 48 ≤ p.d.toNat → p.d.toNat < 56 → Spec.showsIn s t k x b' ∧
        let one := if p.unit then p else q
        let zero := if p.unit then q else p
        ∀ l < 64, lane (sget 0 b'.vk (p.d.toNat - 48)) l =
          if one.mask.getLsbD l then lane one.a l else if zero.mask.getLsbD l then lane zero.a l
          else lane (sget 0 b.vk (p.d.toNat - 48)) l) ∧
      (∀ (r : VRes) (v : W), r.push = true → (x.kind = .vres r ∧ y.kind = .ctl 0x08 v) ∨ (x.kind = .ctl 0x08 v ∧ y.kind = .vres r) →
        Spec.showsIn s t k x b' ∧ b'.flags = (formV (b.clearFlags v) r).2.2.flags)

/-- R74 to R77, R124: a control register's write, when visible, clears the lane flags its value names (FLAGS), seeds every
generator, sets the rounding mode, MCMASK at once and the bus slots and bank bits at the next slot 0, CAUSE, TRAP_PC, CKP_PC,
CORR_CNT, DEBUG, CPSEL, the page entry selected, or a loop register; nothing else
changes. -/
def Sys2Proof.Spec.ControlWritesBecomeVisible : Prop :=
  ∀ (s : State) (k : Nat) (e : Pend) (sel : BitVec 6) (v : W), s.ev.k = k →
    (s.core k).pend.filter Spec.isDue = [e] → e.kind = .ctl sel v →
    let b := (s.core k).bankN e.bank
    let c := Spec.shown s k
    let l := b.loop
    let n := sel.toNat
    let col := s.col (colOf k)
    let slot0 := (s.clkOf k / 16 + 1) * 16 - 1
    let waits := (s.agenda.filter fun d => !(d.ev == evK .vbSlotsTakeEffect (colOf k))) ++
      [⟨.die (dieOf k), slot0, evK .vbSlotsTakeEffect (colOf k)⟩]
    ∃ t, exec .resultVisible s = .next t ∧
      let bank (b' : Bank) : Prop := Spec.showsCore s t k (c.setBankN e.bank b') ∧ t.columns = s.columns ∧ t.agenda = s.agenda
      let core (c' : Core) : Prop := Spec.showsCore s t k c' ∧ t.columns = s.columns ∧ t.agenda = s.agenda
      let column (x : Column) : Prop := Spec.showsCore s t k c ∧ t.col (colOf k) = x ∧ ∀ j, j ≠ colOf k → t.col j = s.col j
      (n = 0x08 → swf 0 b.flags = true → ∃ b' : Bank, bank b' ∧ b' = { b with flags := b'.flags } ∧
        ∀ i < 128, sget 0 b'.flags i = sget 0 b.flags i &&& ~~~(if i < 64 then v.extractLsb' 0 5 else v.extractLsb' 8 5)) ∧
      (n = 0x09 → bank { b with round := v.extractLsb' 0 3 }) ∧
      (n = 0x0A → ∃ b' : Bank, bank b' ∧ b' = { b with srSeed := v, gen := b'.gen } ∧
        ∀ i < 128, sget 0 b'.gen i = (let g := v ^^^ BitVec.ofNat 32 ((i + 1) * 0x9E3779B9); if g = 0 then 0x6A09E667 else g)) ∧
      (n = 0x10 → column { col with mcmask := v.extractLsb' 0 4 } ∧ t.agenda = s.agenda) ∧
      (n = 0x11 → column { col with vbSlotsNext := some v } ∧ t.agenda = waits) ∧
      (n = 0x12 → column { col with vbBankNext := some (v.extractLsb' 0 16) } ∧ t.agenda = waits) ∧
      (n = 0x18 → core { c with causeSlot := v.extractLsb' 21 3, causeCode := v.extractLsb' 0 16 }) ∧
      (n = 0x19 → core { c with trapPc := v.extractLsb' 0 26 }) ∧
      (n = 0x1A → core { c with ckpPc := v.extractLsb' 0 26 }) ∧
      (n = 0x1B → core { c with corr := v }) ∧
      (n = 0x1C → core { c with debugPend := v.getLsbD 0 }) ∧
      (n = 0x1D → core { c with cpsel := v.extractLsb' 0 6 }) ∧
      (n = 0x1E → core { c with codeMap := sset 0 c.codeMap c.cpsel.toNat (v &&& 0x80003FFF) }) ∧
      (n = 0x20 → bank { b with loop := { l with trip := v } }) ∧
      (n = 0x21 → bank { b with loop := { l with pass := v } }) ∧
      (n = 0x22 → bank { b with loop := { l with idx := v } }) ∧
      (n = 0x23 → bank { b with loop := { l with
        pass32 := v.getLsbD 14, act := v.getLsbD 13, div := v.getLsbD 12, drn := v.getLsbD 11, nst := v.extractLsb' 8 3,
        len := v.extractLsb' 0 8, after := none } }) ∧
      (n = 0x24 → bank { b with loop := { l with body := v.extractLsb' 0 26, after := none } }) ∧
      (n = 0x25 → bank { b with loop := { l with lpc := v.extractLsb' 0 26 } }) ∧
      (n = 0x26 → bank { b with loop := { l with res := v } }) ∧
      (n = 0x27 → bank { b with loop := { l with rem := v } }) ∧
      (0x28 ≤ n → n < 0x30 → bank { b with loop := { l with linc := sset 0 l.linc (n - 0x28) (v &&& 0xFF003FFF) } }) ∧
      ((n < 0x08 ∨ (0x0B ≤ n ∧ n < 0x10) ∨ (0x13 ≤ n ∧ n < 0x18) ∨ n = 0x1F) → core c)

/-- R159, R209, R191: a statistics-buffer write, when visible, puts its words into the buffer, and one of the task holds each
old word for rollback unless the interval holds one; a staged descriptor stands in the staging register. -/
def Sys2Proof.Spec.StatisticsAndStagingBecomeVisible : Prop :=
  ∀ (s : State) (k : Nat) (e : Pend), s.ev.k = k → (s.core k).pend.filter Spec.isDue = [e] →
    let c := Spec.shown s k
    (∀ w : List (Nat × W), (w.map (·.1)).Nodup → e.kind = .statw w →
      ∃ (t : State) (c' : Core), exec .resultVisible s = .next t ∧ Spec.showsCore s t k c' ∧ t.columns = s.columns ∧
        c' = { c with stat := c'.stat, undoStat := c'.undoStat } ∧ (∀ x ∈ w, sget 0 c'.stat x.1 = x.2) ∧
        (∀ n, n ∉ w.map (·.1) → sget 0 c'.stat n = sget 0 c.stat n) ∧
        (∀ n, sget none c'.undoStat n = if e.owner = false ∧ n ∈ w.map (·.1)
          then some ((sget none c.undoStat n).getD (sget 0 c.stat n)) else sget none c.undoStat n)) ∧
    (∀ d, e.kind = .stage d → ∃ t, exec .resultVisible s = .next t ∧
      Spec.showsCore s t k { c with seq := { c.seq with staging := d, loaded := true } } ∧ t.columns = s.columns)

/-- R178, R181, R186, R208, R209: when its time comes alone, a C0 write of the task puts its bytes into the scratchpad and
holds each byte's old value for rollback unless the interval already holds one; an atomic reads its word, stores the sum, the
greater or the new value, and sends the old word to its register four issue cycles later; the cleared status word of a far
form (R271) reaches the scratchpad with nothing held of it; every other byte reads as before. -/
def Sys2Proof.Spec.C0WritesAreApplied : Prop :=
  ∀ (s : State) (k : Nat) (e : Pend), s.ev.k = k → (s.core k).pend = [e] → e.left = 0 → e.owner = false →
    (s.core k).rerun = none →
    let c := s.core k
    (∀ (a : Nat) (bs : List Byte), e.kind = .spw (placed a bs) → ∃ t, exec .c0WriteApplied s = .next t ∧
      (∀ j, j ≠ k → t.core j = s.core j) ∧ (t.core k).pend = [] ∧
      t.core k = { c with pend := [], sp := (t.core k).sp, undo := (t.core k).undo } ∧
      (∀ j, (t.core k).sp.byte j = if a ≤ j ∧ j < a + bs.length then bs.getD (j - a) 0 else c.sp.byte j) ∧
      (∀ j, sget none (t.core k).undo j = if a ≤ j ∧ j < a + bs.length
        then some ((sget none c.undo j).getD (c.sp.byte j)) else sget none c.undo j)) ∧
    (∀ (op a : Nat) (d : BitVec 6) (v : W), op ≤ 2 → e.kind = .atom op a d v →
      ∃ t, exec .c0WriteApplied s = .next t ∧
      let old : W := BitVec.ofNat 32 (c.sp.nat a 4)
      let new : W := if op = 0 then old + v else if op = 1 then (if old.toInt < v.toInt then v else old) else v
      (∀ j, j ≠ k → t.core j = s.core j) ∧ (t.core k).pend = [{ e with left := 4, kind := .reg d old }] ∧
      BitVec.ofNat 32 ((t.core k).sp.nat a 4) = new ∧
      ∀ j, (j < a ∨ a + 4 ≤ j) → (t.core k).sp.byte j = c.sp.byte j) ∧
    (∀ (req a : Nat) (bs : List Byte), e.kind = .status req (placed a bs) → ∃ t, exec .c0WriteApplied s = .next t ∧
      (∀ j, j ≠ k → t.core j = s.core j) ∧ t.core k = { c with pend := [], sp := (t.core k).sp } ∧
      ∀ j, (t.core k).sp.byte j = if a ≤ j ∧ j < a + bs.length then bs.getD (j - a) 0 else c.sp.byte j)

/-- R156, R187, R204, R231: VBCVT reads its second source when three issue cycles have passed, as it stands then, and its
result is three more away; a multicast store lands its bytes in the scratchpad of each layer of its mask, voiding what the
interval held of them, and every other core and byte stays as it is. -/
def Sys2Proof.Spec.LateReadsAndMulticastStores : Prop :=
  ∀ (s : State) (k : Nat) (e : Pend), s.ev.k = k → (s.core k).pend = [e] → e.left = 0 →
    let c := s.core k
    (∀ (r : VRes) (rb : BitVec 6) (lit : W), e.kind = .lateB r rb lit false →
      ∃ (t : State) (v : VReg), exec .vbcvtLateRead s = .next t ∧ (∀ j, j ≠ k → t.core j = s.core j) ∧
        t.core k = { c with pend := [{ e with left := 3, kind := .vres { r with b := v } }] } ∧
        (rb.toNat < 48 → v = sget 0 (if r.unit then (c.bankN e.bank).v1 else (c.bankN e.bank).v0) rb.toNat) ∧
        (rb.toNat = 62 → ∀ l < 64, lane v l = lit) ∧ (rb.toNat = 63 → v = 0)) ∧
    (∀ (ls : BitVec 4) (a : Nat) (bs : List Byte), e.kind = .mcast ls (placed a bs) →
      ∃ t, exec .multicastLand s = .next t ∧
        (∀ z < 4, ∀ j, (t.core (coreIn (colOf k) z)).sp.byte j =
          if ls.getLsbD z = true ∧ a ≤ j ∧ j < a + bs.length then bs.getD (j - a) 0
          else (s.core (coreIn (colOf k) z)).sp.byte j) ∧
        (∀ z < 4, ∀ j, sget none (t.core (coreIn (colOf k) z)).undo j =
          if ls.getLsbD z = true ∧ a ≤ j ∧ j < a + bs.length then none
          else sget none (s.core (coreIn (colOf k) z)).undo j) ∧
        (t.core k).pend = [] ∧ ∀ j, (∀ z < 4, j ≠ coreIn (colOf k) z) → j ≠ k → t.core j = s.core j)

/-! ### The matrix slot (07_core_matrix.md) -/

namespace Sys2Proof.Spec

open Sys2Proof Sys2Proof.Machine

/-- The executing core changed, and an event due in a later clock cycle. -/
def changedDue (s : State) (c : Core) (clk : Nat) (e : Ev) : State := due (changed s c) clk e

/-- The shape of a weight plane that a load of a ring's format and slot size gives (R164): LOG8 and the 8-bit block formats a
full plane, LOG6 three quarters, the 4-bit formats half a slot for one plane or a whole one for two. -/
def loadShape (fmt slotsz : Nat) : Option Nat :=
  if fmt = 0 ∨ fmt = 3 ∨ fmt = 4 ∨ fmt = 5 then (if 16384 ≤ slotsz then some fmt else none)
  else if fmt = 1 then (if 12288 ≤ slotsz then some 1 else none)
  else if fmt = 2 then (if 16384 ≤ slotsz then some 0xA else if 8192 ≤ slotsz then some 2 else none)
  else if 6 ≤ fmt ∧ fmt ≤ 9 then (if 16384 ≤ slotsz then some (fmt + 5) else if 8192 ≤ slotsz then some fmt else none)
  else none

end Sys2Proof.Spec

/-- R163, R164: MLDW with a true guard, a good descriptor of a loadable format and a slot that is not empty, starts the load of
the shadow plane from the head slot: its rows are read from the third cycle on, HEAD advances after latency 1, and one plane
load is counted. -/
def Sys2Proof.Spec.MldwStartsALoad : Prop :=
  ∀ (f : FmtMldw) (s : State) (wf : Nat), s.guard f.gn f.g = true →
    let c := s.cur
    let r := s.ringHead f.q
    let y := s.clkOf s.ictx.core
    r.ok = true → Spec.loadShape r.fmt r.slotsz = some wf → r.empty = false → (c.cur = true ∨ c.planeLoads = 0) →
    let l : Load :=
      { id := c.nextId, issued := y, wp := !c.act, phys := 3 - c.wp0 - c.wp1, wfmt := wf,
        slot := some ⟨c.cur, f.q.toNat, r.head⟩, base := r.slotAt r.head, bw := r.bwAt r.head, fmt := r.fmt, te := r.te,
        bank := none, rows := 0, beats := [] }
    let c' : Core :=
      { c with loads := c.loads ++ [l], nextId := c.nextId + 1,
               planeLoads := if c.cur then c.planeLoads else c.planeLoads + 1 }
    exec (.mldw f) s = .next (Spec.changedDue s
      (Spec.sending c' 1 (.qhead f.q.toNat (BitVec.ofNat 8 (r.next r.head r.hwrap).1) (r.next r.head r.hwrap).2))
      (y + 3) (evJ .planeRowWrite s.ictx.core c.nextId 0))

/-- R165, R166, R226: MLDWB places its bus request in its issue cycle for the physical bank tile of its version select, and its
first beat comes twenty cycles later; MSWAP exchanges active and shadow plane at once and changes nothing else. -/
def Sys2Proof.Spec.MldwbAndMswap : Prop :=
  ∀ s : State,
    let c := s.cur
    let k := s.ictx.core
    let y := s.clkOf k
    (∀ f : FmtMldwb, s.guard f.gn f.g = true → (c.cur = true ∨ c.planeLoads = 0) →
      let v := f.vsel.toNat
      let tile := 4 * f.tile.toNat + (if v < 4 then v else (s.col (colOf k)).tvmap.toNat / 4 ^ (v - 4) % 4)
      let l : Load :=
        { id := c.nextId, issued := y, wp := !c.act, phys := 3 - c.wp0 - c.wp1, wfmt := 0, slot := none, base := 0, bw := 0,
          fmt := 0, te := 0, bank := some tile, rows := 0, beats := [] }
      exec (.mldwb f) s = .next (Spec.changedDue s
        { c with loads := c.loads ++ [l], nextId := c.nextId + 1, portBusy := true,
                 planeLoads := if c.cur then c.planeLoads else c.planeLoads + 1 }
        (y + 20) (evB .busBeat k 0 false))) ∧
    (∀ f : FmtG, s.guard f.gn f.g = true → exec (.mswap f) s = .next (Spec.changed s { c with act := !c.act }))

/-- R167, R168, R172: MSTREAM and MSTREAMB with a true guard in a compute superstep take the head slot of a ring whose format
their mode accepts, against an active plane whose class their mode accepts, with room for their vectors, and append a stream;
HEAD advances after latency 1, the tile counts among the accumulated ones, and when no stream feeds, the first vector begins
when the array allows it, four cycles after issue at the earliest. -/
def Sys2Proof.Spec.StreamsStart : Prop :=
  ∀ (f : FmtMstream) (s : State) (back : Bool), s.compute = true → s.guard f.gn f.g = true →
    let c := s.cur
    let k := s.ictx.core
    let r := s.ringHead f.q
    let mode := f.md.toNat
    let n := f.n.toNat + 1
    let wf := (c.pfmt c.act).toNat
    r.ok = true → mode < 6 → modeTakesStream mode r.fmt = true → modeTakesWeight mode wf = true →
    (mode = 5 → back = false) → n * ((if mode = 5 then 256 else 128) * storedBits r.fmt / 8) ≤ r.slotsz → r.empty = false →
    (c.cur = true ∨ f.t.toNat ∈ c.accTiles ∨ c.accTiles.length < 2) →
    let st : Stream :=
      { id := c.nextId, issued := s.clkOf k, tile := f.t.toNat, plane := c.physOf c.act, wfmt := wf, mode := mode,
        back := back, n := n, slot := ⟨c.cur, f.q.toNat, r.head⟩, base := r.slotAt r.head, bw := r.bwAt r.head, fmt := r.fmt,
        te := r.te, point := (c.tile f.t.toNat).point, begun := 0, added := 0, retired := false, data := [] }
    let c' : Core :=
      { c with streams := c.streams ++ [st], nextId := c.nextId + 1,
               accTiles := if c.cur ∨ f.t.toNat ∈ c.accTiles then c.accTiles else c.accTiles ++ [f.t.toNat] }
    let t := Spec.changed s
      (Spec.sending c' 1 (.qhead f.q.toNat (BitVec.ofNat 8 (r.next r.head r.hwrap).1) (r.next r.head r.hwrap).2))
    exec (if back then .mstreamb f else .mstream f) s = .next
      (if c.feeding = none then Spec.due t (c.arr.beginAt st) (evK .streamVectorBegin k) else t)

/-- R170 to R172: MCLR, and MSETP with rescaling, occupy their tile for 32 cycles; MSETP sets P at once; MFLG sends the tile's
control word after latency 2, and MCLRF clears the flags it names. -/
def Sys2Proof.Spec.TileControlForms : Prop :=
  ∀ s : State,
    let c := s.cur
    let k := s.ictx.core
    let y := s.clkOf k
    let room (t : Nat) := c.cur = true ∨ t ∈ c.accTiles ∨ c.accTiles.length < 2
    let counted (t : Nat) := if c.cur ∨ t ∈ c.accTiles then c.accTiles else c.accTiles ++ [t]
    (∀ f : FmtMclr, s.compute = true → s.guard f.gn f.g = true → room f.t.toNat →
      exec (.mclr f) s = .next (Spec.changedDue s
        { c with tileOps := c.tileOps ++ [⟨c.nextId, f.t.toNat, none⟩], nextId := c.nextId + 1,
                 accTiles := counted f.t.toNat }
        (y + 32) (evI .tileOpComplete k c.nextId))) ∧
    (∀ f : FmtMsetp, s.guard f.gn f.g = true → f.rsc = false →
      exec (.msetp f) s = .next (Spec.changed s (c.modTile f.t.toNat fun x => { x with p := f.p }))) ∧
    (∀ f : FmtMsetp, s.guard f.gn f.g = true → f.rsc = true → room f.t.toNat →
      Spec.completesAs (exec (.msetp f) s) (Spec.changedDue s
        { c.modTile f.t.toNat (fun x => { x with p := f.p }) with
          tileOps := c.tileOps ++ [⟨c.nextId, f.t.toNat, some ((c.tile f.t.toNat).p.toInt, f.p.toInt)⟩],
          nextId := c.nextId + 1, accTiles := counted f.t.toNat }
        (y + 32) (evI .tileOpComplete k c.nextId))) ∧
    (∀ f : FmtMflg, s.guard f.gn f.g = true →
      exec (.mflg f) s = .next (Spec.sent s [(2, .reg f.d (c.tileWord f.t.toNat))] [])) ∧
    (∀ f : FmtMclrf, s.guard f.gn f.g = true →
      exec (.mclrf f) s = .next (Spec.changed s (c.modTile f.t.toNat fun t =>
        { t with nan := t.nan && !f.f.getLsbD 2, inx := t.inx && !f.f.getLsbD 1, ovf := t.ovf && !f.f.getLsbD 0 })))

/-- R173, R174: MDRAIN with a true guard in a compute superstep takes the tail slot of a ring with room for its rows, converts
its first row from the ninth cycle on, and advances TAIL after latency 1; under RSX the bank's first 128 generators advance
once for each row at issue. -/
def Sys2Proof.Spec.MdrainStarts : Prop :=
  ∀ (f : FmtMdrain) (s : State), s.compute = true → s.guard f.gn f.g = true →
    let c := s.cur
    let k := s.ictx.core
    let r := s.ringTail f.q
    let t := f.t.toNat
    let rows := if f.all then 128 else 16
    let mode := RMode.ofCode f.mode c.bank.round
    r.ok = true → rows * (128 * storedBits r.fmt / 8) ≤ r.slotsz → r.full = false →
    (f.clr = true → c.cur = true ∨ t ∈ c.accTiles ∨ c.accTiles.length < 2) →
    let d : Drain :=
      { id := c.nextId, issued := s.clkOf k, tile := t, slot := ⟨c.cur, f.q.toNat, r.tail⟩, base := r.slotAt r.tail,
        bw := r.bwAt r.tail, fmt := r.fmt, te := r.te, mode := mode, gens := c.bank.gen, point := (c.tile t).point,
        row0 := if f.all then 0 else 16 * f.blk.toNat, rows := rows, clr := f.clr, ovf := false, inx := false }
    ∃ b : Bank,
      exec (.mdrain f) s = .next (Spec.changedDue s (Spec.sending
        { c.setBankN c.cur b with
          drains := c.drains ++ [d], nextId := c.nextId + 1,
          accTiles := if f.clr = false ∨ c.cur ∨ t ∈ c.accTiles then c.accTiles else c.accTiles ++ [t] }
        1 (.qtail f.q.toNat (BitVec.ofNat 8 (r.next r.tail r.twrap).1) (r.next r.tail r.twrap).2))
        (s.clkOf k + 9) (evJ .drainRowWrite k c.nextId 0)) ∧
      b = { c.bank with gen := b.gen } ∧
      ∀ j < 128, sget 0 b.gen j = if mode = .rsx then genNext^[rows] (sget 0 c.bank.gen j)
        else sget 0 c.bank.gen j

/-- R244, R107: outside a compute superstep the matrix forms that need one raise PHASE_ILLEGAL whatever their guard, and in a
compute superstep so do the far, mesh, fabric and collective forms; the core begins its drain and nothing else happens. -/
def Sys2Proof.Spec.PhaseIllegalForms : Prop :=
  ∀ (ins : Instr) (s : State), s.cur.cur = false →
    (computeForm ins = true ∧ s.compute = false ∨ exchangeForm ins = true ∧ s.compute = true) →
    exec ins s = .next (Spec.trapped s 0x0004)

namespace Sys2Proof.Spec

open Sys2Proof Sys2Proof.Machine

/-- A number divided by a power of two and rounded to the nearest integer, ties to even. -/
def halved (x : Int) (n : Nat) : Int :=
  let q := x / 2 ^ n
  let r := x % 2 ^ n
  if 2 * r < 2 ^ n ∨ (2 * r = 2 ^ n ∧ q % 2 = 0) then q else q + 1

/-- R171: an accumulator element rescaled from P0 to P1, before it saturates, and whether it was rounded. -/
def rescaled (p0 p1 x : Int) : Int × Bool :=
  if p1 ≤ p0 then (x * 2 ^ (p0 - p1).toNat, false)
  else (halved x (p1 - p0).toNat, decide (x % 2 ^ (p1 - p0).toNat ≠ 0))

/-- The bound of an accumulator element. -/
def accBound (x : Int) : Int := max (-(2 ^ 63 - 1)) (min (2 ^ 63 - 1) x)

/-- R48, R51: the cycle from which row i of the array may begin a stream's vector. -/
def rowFrom (a : ArrayTime) (st : Stream) (i : Nat) : Nat :=
  if (st.mode = 3 ∨ st.mode = 4) ∧ a.mode = st.mode then max (st.issued + 4) (max (a.f.getD i 0) (a.fv - 8))
  else max (st.issued + 4) a.fv

end Sys2Proof.Spec

/-- R164, R165, R168 to R171, R210: the events of weight loads and streams: a row of a load, read from its slot or come with
its beat, enters its plane, and a load from a slot reads the next row in the next cycle; a completed load makes its plane the
shadow and records its class; a vector is read from its slot as it begins, its line sums are added 261 cycles after the array
has taken it, and the next vector begins when the array allows it; the sums join the tile row with their flags; a retired
stream keeps its record only until its sums are in; a tile operation ends with the tile cleared, or every element rescaled. -/
def Sys2Proof.Spec.MatrixEventsHaveTheirEffect : Prop :=
  ∀ s : State,
    let k := s.ev.k
    let c := s.core k
    let y := s.clkOf k
    let on (n : Nat) (e : Ev) : Due := ⟨.die (dieOf k), n, e⟩
    (∀ l : Load, c.loads.find? (fun x => x.id = s.ev.i) = some l → s.ev.j < 128 →
      ∃ t, exec .planeRowWrite s = .next t ∧ (∀ j, j ≠ k → t.core j = s.core j) ∧
        t.core k = { c.setPlaneRow l.phys s.ev.j (if l.bank = none then c.loadRow l s.ev.j else bankRow (l.beats.headD [])) with
          loads := (t.core k).loads } ∧
        (t.core k).loads.find? (fun x => x.id = l.id) =
          some (if l.bank = none then { l with rows := s.ev.j + 1 } else { l with beats := l.beats.drop 1 }) ∧
        t.agenda = s.agenda ++
          (if 127 ≤ s.ev.j then [on (y + 1) (evI .planeLoadComplete k l.id)]
          else if l.bank = none then [on (y + 1) (evJ .planeRowWrite k l.id (s.ev.j + 1))] else [])) ∧
    (∀ l : Load, c.loads.find? (fun x => x.id = s.ev.i) = some l →
      exec .planeLoadComplete s = .next (s.setCore k (
        let c' := { c with loads := c.loads.filter fun x => x.id ≠ l.id }
        if l.wp then { c' with wp1 := l.phys, pfmt1 := BitVec.ofNat 4 l.wfmt }
        else { c' with wp0 := l.phys, pfmt0 := BitVec.ofNat 4 l.wfmt }))) ∧
    (∀ (st : Stream) (d : VecData), c.streams.find? (fun x => x.id = s.ev.i) = some st →
      st.data.find? (fun x => x.v = s.ev.j) = some d →
      let rows := if st.wfmt = 15 then List.replicate 128 noneRow else (List.range 128).map fun i => c.planeRow st.plane i
      let sums := lineSums rows st.back (st.mode == 5) (opdsOf st.fmt st.te d.codes d.words) st.point
      let x := addRow (c.accRowAt st.tile (s.ev.j % 128)) sums
      ∃ t, exec .lineSumAdd s = .next t ∧ (∀ j, j ≠ k → t.core j = s.core j) ∧
        (t.core k).accRowAt st.tile (s.ev.j % 128) = x.1 ∧
        (t.core k).tile st.tile = (c.tile st.tile).orFlags x.2 ∧
        (∀ row, row ≠ 128 * st.tile + s.ev.j % 128 → sget 0 (t.core k).tiles row = sget 0 c.tiles row) ∧
        (t.core k).planes = c.planes ∧ (t.core k).sp = c.sp ∧ (t.core k).bank0 = c.bank0 ∧ (t.core k).bank1 = c.bank1) ∧
    (c.draining y = false → exec .streamRetire s = .next (s.setCore k { c with
      streams := (c.streams.map fun x => if x.id = s.ev.i then { x with retired := true } else x).filter fun x =>
        !(x.retired && decide (x.n ≤ x.added)) })) ∧
    (∀ st : Stream, c.feeding = some st → c.draining y = false → ∃ t, exec .streamVectorBegin s = .next t ∧
      (∀ j, j ≠ k → t.core j = s.core j) ∧
      let o := st.begun * vecBytes st.mode st.fmt
      let d : VecData :=
        { v := st.begun, codes := c.codesAt (st.base + o) st.fmt (vecLen st.mode),
          words := c.wordsAt st.bw st.fmt o (vecLen st.mode) }
      (t.core k).streams = (c.streams.map fun x =>
          if x.id = st.id then { x with begun := st.begun + 1, data := x.data ++ [d] } else x).filter (fun x =>
        !(x.retired && decide (x.n ≤ x.added))) ∧
      (t.core k).arr.mode = st.mode ∧
      (st.mode ≠ 3 → st.mode ≠ 4 → (t.core k).arr.fv = y + 1) ∧
      (st.mode = 3 ∨ st.mode = 4 →
        let f (i : Nat) : Nat := max y (Spec.rowFrom c.arr st i) + (d.codes.map (serialCycles (storedBits st.fmt))).getD i 1
        (t.core k).arr.f = (List.range 128).map f ∧ (t.core k).arr.fv = ((List.range 128).map f).foldl max 0) ∧
      t.agenda = s.agenda ++ [on ((t.core k).arr.fv + 261) (evJ .lineSumAdd k st.id st.begun)] ++
        (if st.begun + 1 = st.n then [on ((t.core k).arr.fv - 1) (evI .streamRetire k st.id)] else []) ++
        (match (t.core k).feeding with
        | some nx => [on (max (y + 1) ((t.core k).arr.beginAt nx)) (evK .streamVectorBegin k)]
        | none => [])) ∧
    (∀ (a : ArrayTime) (st : Stream),
      (¬ ((st.mode = 3 ∨ st.mode = 4) ∧ a.mode = st.mode) →
        a.beginAt st = if st.begun = 0 then max (st.issued + 4) a.fv else a.fv) ∧
      ((st.mode = 3 ∨ st.mode = 4) ∧ a.mode = st.mode →
        (∃ i < 128, a.beginAt st = Spec.rowFrom a st i) ∧ ∀ i < 128, a.beginAt st ≤ Spec.rowFrom a st i)) ∧
    (∀ o : TileOp, c.tileOps.find? (fun x => x.id = s.ev.i) = some o →
      ∃ t, exec .tileOpComplete s = .next t ∧ (∀ j, j ≠ k → t.core j = s.core j) ∧
        (t.core k).tileOps = c.tileOps.filter (fun x => x.id ≠ o.id) ∧
        (∀ row, (row < 128 * o.tile ∨ 128 * o.tile + 128 ≤ row) → sget 0 (t.core k).tiles row = sget 0 c.tiles row) ∧
        (o.rescale = none → (∀ r < 128, (t.core k).accRowAt o.tile r = 0) ∧
          (t.core k).tile o.tile = { c.tile o.tile with nan := false, inx := false, ovf := false }) ∧
        (∀ p0 p1 : Int, o.rescale = some (p0, p1) →
          let el (r j : Nat) : Int × Bool := Spec.rescaled p0 p1 (accElem (c.accRowAt o.tile r) j)
          if p0 = p1 then (∀ r < 128, (t.core k).accRowAt o.tile r = c.accRowAt o.tile r) ∧ (t.core k).tile o.tile = c.tile o.tile
          else (∀ r < 128, ∀ j < 128, accElem ((t.core k).accRowAt o.tile r) j = Spec.accBound (el r j).1) ∧
            (t.core k).tile o.tile = { c.tile o.tile with
              inx := (c.tile o.tile).inx || (List.range 128).any fun r => (List.range 128).any fun j => (el r j).2
              ovf := (c.tile o.tile).ovf || (List.range 128).any fun r => (List.range 128).any fun j =>
                decide (Spec.accBound (el r j).1 ≠ (el r j).1) }))

/-- R173 to R175: a drain's row is converted under the drain's exponent, mode and generators and written to its slot after its
block words have gone to their place; the row is cleared where the drain clears; the generators of a row stand for the next
one, which follows in the next cycle, and the flags of the conversions gather in the drain; after the last row they join the
tile's and the drain ends. -/
def Sys2Proof.Spec.DrainEventsHaveTheirEffect : Prop :=
  ∀ (s : State) (d : Drain), (s.core s.ev.k).drains.find? (fun x => x.id = s.ev.i) = some d →
    let k := s.ev.k
    let c := s.core k
    let y := s.clkOf k
    let row := d.row0 + s.ev.j
    let o := s.ev.j * (128 * storedBits d.fmt / 8)
    let gens (j : Nat) := genNext (sget 0 d.gens j)
    let us := if d.mode = .rsx then (List.range 128).map fun j => genDraw (gens j) else []
    let r := drainRow d.fmt d.te d.mode us
      ((List.range 128).map fun j => accValue (accElem (c.accRowAt d.tile row) j) d.point)
    let bytes := packBytes d.fmt r.1
    let words := (r.2.1.map fun w => bytesOfNat 2 w).flatten
    (s.ev.j < d.rows → ∃ t, exec .drainRowWrite s = .next t ∧ (∀ j, j ≠ k → t.core j = s.core j) ∧
      (∀ a, (t.core k).sp.byte a =
        if d.base + o ≤ a ∧ a < d.base + o + bytes.length then bytes.getD (a - (d.base + o)) 0
        else if d.bw + 2 * (o / blockBytes d.fmt) ≤ a ∧ a < d.bw + 2 * (o / blockBytes d.fmt) + words.length then
          words.getD (a - (d.bw + 2 * (o / blockBytes d.fmt))) 0
        else c.sp.byte a) ∧
      (t.core k).accRowAt d.tile row = (if d.clr then 0 else c.accRowAt d.tile row) ∧
      (t.core k).bank0 = c.bank0 ∧ (t.core k).bank1 = c.bank1 ∧
      (∃ d' : Drain, (t.core k).drains.find? (fun x => x.id = s.ev.i) = some d' ∧
        d' = { d with gens := d'.gens, ovf := d.ovf || r.2.2.ovf, inx := d.inx || r.2.2.inx } ∧
        ∀ j < 128, sget 0 d'.gens j = gens j) ∧
      t.agenda = s.agenda ++ [⟨.die (dieOf k), if s.ev.j + 1 < d.rows then y + 1 else y,
        if s.ev.j + 1 < d.rows then evJ .drainRowWrite k d.id (s.ev.j + 1) else evI .drainComplete k d.id⟩]) ∧
    exec .drainComplete s = .next (s.setCore k
      ({ c with drains := c.drains.filter fun x => x.id ≠ d.id }.modTile d.tile fun t =>
        t.orFlags ⟨false, d.inx, d.ovf⟩))

namespace Sys2Proof.Spec

open Sys2Proof Sys2Proof.Machine

/-- R21, R22, R47: the number of an integer, block or E4M3 code; none for a NaN. -/
def codeNumber (cls code : Nat) : Option ℚ :=
  let signed (n : Nat) : ℚ := if code % 2 ^ n < 2 ^ (n - 1) then (code % 2 ^ n : Nat) else (code % 2 ^ n : Nat) - 2 ^ n
  let listed (l : List ℚ) : ℚ := (if 8 ≤ code % 16 then -1 else 1) * l.getD (code % 8) 0
  match cls with
  | 3 => some (signed 8)
  | 5 =>
    let x : Nat := code / 8 % 16
    if code % 128 = 127 then none
    else some ((if 128 ≤ code % 256 then -1 else 1) *
      if x = 0 then exactly (code % 8) (-9) else exactly (8 + code % 8) (x - 10))
  | 6 => some (signed 4)
  | 7 => some (listed [0, 1 / 2, 1, 3 / 2, 2, 3, 4, 6])
  | 8 => some (listed [0, 1 / 8, 1 / 4, 1 / 2, 1, 2, 4, 8])
  | 9 => some (listed [0, 1, 2, 3, 4, 6, 8, 12])
  | 15 => some (signed 8)
  | _ => some (signed 16)

/-- R15, R37: the magnitude of Λ eighths. -/
def power (lam : Int) : ℚ :=
  exactly ([0x8000, 0x8B96, 0x9838, 0xA5FF, 0xB505, 0xC567, 0xD745, 0xEAC1].getD (lam % 8).toNat 0) (lam / 8 - 15)

/-- The number that an operand of the cell stands for. -/
def operand : Opd → Option ℚ
  | .zero => some 0
  | .nan => none
  | .log neg lam => some (if neg then -power lam else power lam)
  | .num v => real v

/-- The greatest magnitude that leaves a cell (R42). -/
def cellBound : Int := 2 ^ 40 - 1

/-- The flags NAN, INX and OVF of a tile that some of n contributions set. -/
def anyOf (n : Nat) (f : Nat → TileFlags) : TileFlags :=
  ⟨(List.range n).any fun i => (f i).nan, (List.range n).any fun i => (f i).inx, (List.range n).any fun i => (f i).ovf⟩

end Sys2Proof.Spec

/-- R15, R19, R21, R22, R38, R39, R164, R167: what an operand of the cell is: its scale is TE, with E − 31 (and −μ in B4) of
its block word; a zero code, or a code of value zero outside a NaN block, is zero; NAL, a NaN code and every element of a NaN
block are NaN; a log code is its sign and its Λ, any other the number of its code under its scale. A plane entry holds one
operand, in a pair class two, in the fields of its word, and a loaded row the entries of its codes. -/
def Sys2Proof.Spec.OperandsCarryTheirScale : Prop :=
  (∀ (cls w i code : Nat) (te : Int), w < 65536 →
    let e : Int := (w / 256 % 64 : Nat)
    let half : Bool := (w % 256).testBit (i / 2)
    (cls < 3 ∨ 10 ≤ cls → elemWx cls te w i = te) ∧
    (3 ≤ cls → cls < 6 → elemWx cls te w i = te + e - 31 ∧
      (elemNan cls w code = true ↔ codeNan cls code = true ∨ e = 63 ∨ w % 256 ≠ 0 ∨ w / 16384 = 3)) ∧
    (6 ≤ cls → cls < 10 → elemWx cls te w i = te + e - 31 - (if half then 1 else 0) ∧ (elemNan cls w code = true ↔ e = 63)) ∧
    (cls < 3 ∨ 10 ≤ cls → elemNan cls w code = codeNan cls code) ∧
    (codeNan cls code = true ↔ (cls = 0 ∨ cls = 4) ∧ code % 256 = 128 ∨ cls = 1 ∧ code % 64 = 32 ∨ cls = 2 ∧ code % 16 = 8 ∨
      cls = 5 ∧ code % 128 = 127)) ∧
  (∀ (wx : Int) (nan : Bool) (code : Nat), ∀ x ∈ [(0, 8, 1, 64), (1, 6, 2, 16), (2, 4, 4, 4), (4, 8, 1, 64)],
    let (cls, bits, step, bias) : Nat × Nat × Int × Int := x
    let c := code % 2 ^ bits
    let m : Int := (c % 2 ^ (bits - 1) : Nat)
    opd cls wx nan code = if c = 0 ∧ ¬(cls = 4 ∧ nan) then .zero
      else if nan then .nan else .log (decide (2 ^ (bits - 1) ≤ c)) ((m - bias) * step + 8 * wx)) ∧
  (∀ (wx : Int) (nan : Bool) (code : Nat), ∀ cls ∈ [3, 5, 6, 7, 8, 9, 15, 16],
    match Spec.codeNumber cls code with
    | none => opd cls wx nan code = .nan
    | some r => if nan then opd cls wx nan code = .nan
      else if r = 0 then opd cls wx nan code = .zero
      else ∃ neg m e, opd cls wx nan code = .num (.fin neg m e false) ∧ 0 < m ∧
        Spec.real (.fin neg m e false) = some (r * (2 : ℚ) ^ wx)) ∧
  (∀ w : W,
    let cls := (w.extractLsb' 28 4).toNat
    let x (code : BitVec 8) (cls : Nat) : Opd := opd cls (w.extractLsb' 18 10).toInt (w.getLsbD 17) code.toNat
    let (c0, c1) := (w.extractLsb' 0 8, w.extractLsb' 8 8)
    entryOpds w = if cls = 15 then (.zero, .zero)
      else if cls < 10 then (x c0 cls, .zero)
      else
        let one := if cls = 10 then 2 else if cls = 11 then 6 else if cls = 12 then 7 else if cls = 13 then 8 else 9
        (x c0 one, x c1 one)) ∧
  (∀ (fmt : Nat) (te : Int) (codes words : List Nat), ∀ i < codes.length,
    let w := words.getD i 0
    let c := codes.getD i 0
    (opdsOf fmt te codes words).getD i .nan = opd fmt (elemWx fmt te w (i % blockLen fmt)) (elemNan fmt w c) c) ∧
  (∀ (c : Core) (l : Load) (i j : Nat), i < 128 → j < 128 →
    let entry (row : BitVec 4096) : W := row.extractLsb' (32 * j) 32
    let is (row : BitVec 4096) (cls : Nat) (wx : Int) (nan : Bool) (c1 c0 : Nat) : Prop :=
      entry row = (BitVec.ofNat 4 cls ++ BitVec.ofInt 10 wx ++ BitVec.ofBool nan ++ 0#1 ++ BitVec.ofNat 8 c1 ++
        BitVec.ofNat 8 c0 : BitVec 32)
    let b := storedBits l.fmt
    let word (o : Nat) : Nat := if blockLen l.fmt = 1 then 0 else c.sp.nat (l.bw + 2 * (o / blockBytes l.fmt)) 2
    (10 ≤ l.wfmt → l.wfmt < 16 → b = 4 →
      let o := 128 * j + i
      let x := (c.sp.byte (l.base + o)).toNat
      is (c.loadRow l i) l.wfmt (elemWx l.fmt l.te (word o) (2 * i % blockLen l.fmt))
        (elemNan l.fmt (word o) (x % 16) || elemNan l.fmt (word o) (x / 16)) (x / 16) (x % 16)) ∧
    (l.wfmt < 10 → b = 4 ∨ b = 6 ∨ b = 8 →
      let code := c.sp.nat (l.base + i * (16 * b)) (16 * b) / 2 ^ (b * j) % 2 ^ b
      let w := word (i * (16 * b) + j / blockLen l.fmt * blockBytes l.fmt)
      is (c.loadRow l i) l.wfmt (elemWx l.fmt l.te w (j % blockLen l.fmt)) (elemNan l.fmt w code) 0 code)) ∧
  (∀ (bs : List Byte) (j : Nat), j < 128 →
    (bankRow bs).extractLsb' (32 * j) 32 = (BitVec.ofNat 14 0 ++ BitVec.ofBool (bs.getD j 0 == 128#8) ++ BitVec.ofNat 9 0 ++
      bs.getD j 0 : BitVec 32))

/-- R41 to R47, R49: what the cells and lines form: a zero operand gives 0 whatever the other, a NaN else gives 0 and NAN; two
log operands give the power of the sum of their Λ, any others the exact product, in units of 2^P to the nearest, ties to even,
INX where that is not exact, clipped at 2^40 − 1 with OVF; a pair adds its two products and clips again. A line sum is the
exact sum over the 128 rows of its column, or the 128 columns of its row for a backward stream, and joins its accumulator
element saturating at 2^63 − 1 with OVF. -/
def Sys2Proof.Spec.CellsMultiplyAndLinesAdd : Prop :=
  (∀ (a w : Opd) (p : Int),
    let r := cellProduct a w p
    let formed (neg : Bool) (v : ℚ) : Prop := ∃ n : Int, Spec.nearest (v * (2 : ℚ) ^ (-p)) n ∧
      r = (if neg then -min n Spec.cellBound else min n Spec.cellBound,
        ⟨false, decide (v * (2 : ℚ) ^ (-p) ≠ n), decide (Spec.cellBound < n)⟩)
    (a = .zero ∨ w = .zero → r = (0, ⟨false, false, false⟩)) ∧
    (a ≠ .zero → w ≠ .zero → a = .nan ∨ w = .nan → r = (0, ⟨true, false, false⟩)) ∧
    (∀ na la nw lw, a = .log na la → w = .log nw lw → formed (xor na nw) (Spec.power (la + lw))) ∧
    (∀ x y : ℚ, Spec.operand a = some x → Spec.operand w = some y → x ≠ 0 → y ≠ 0 →
      (∀ na la nw lw, ¬ (a = .log na la ∧ w = .log nw lw)) → formed (decide (x * y < 0)) |x * y|)) ∧
  (∀ (a0 a1 w0 w1 : Opd) (p : Int),
    let x := cellProduct a0 w0 p
    let y := cellProduct a1 w1 p
    let t := x.1 + y.1
    let c := max (-Spec.cellBound) (min Spec.cellBound t)
    pairProduct a0 a1 w0 w1 p =
      (c, ⟨x.2.nan || y.2.nan, x.2.inx || y.2.inx, x.2.ovf || y.2.ovf || decide (c ≠ t)⟩)) ∧
  (∀ (rows : List (BitVec 4096)) (back pair : Bool) (a : List Opd) (p : Int), ∀ j < 128,
    let cell (i : Nat) : W := if back then (rows.getD j 0).extractLsb' (32 * i) 32 else (rows.getD i 0).extractLsb' (32 * j) 32
    let part (i : Nat) : Int × TileFlags :=
      if pair then pairProduct (a.getD (2 * i) .zero) (a.getD (2 * i + 1) .zero) (entryOpds (cell i)).1 (entryOpds (cell i)).2 p
      else cellProduct (a.getD i .zero) (entryOpds (cell i)).1 p
    let sums := lineSums rows back pair a p
    sums.length = 128 ∧
      sums.getD j (0, TileFlags.none) = (((List.range 128).map fun i => (part i).1).sum, Spec.anyOf 128 fun i => (part i).2)) ∧
  (∀ (r : BitVec 8192) (ls : List (Int × TileFlags)),
    let l (j : Nat) := ls.getD j (0, TileFlags.none)
    let t (j : Nat) : Int := accElem r j + (l j).1
    let f := Spec.anyOf 128 fun j => (l j).2
    (∀ j < 128, accElem (addRow r ls).1 j = Spec.accBound (t j)) ∧
      (addRow r ls).2 = { f with ovf := f.ovf || (List.range 128).any fun j => decide (Spec.accBound (t j) ≠ t j) })

namespace Sys2Proof.Spec

open Sys2Proof Sys2Proof.Machine

/-- A finite value that is known exactly, in its own form. -/
def proper (x : XVal) (r : ℚ) : Prop := real x = some r ∧ ∀ neg m e st, x = .fin neg m e st → 0 < m

/-- R18, R35: the T field and the greatest element exponent of a block type. -/
def typeOf : BlkTy → Nat × Int
  | .b4i => (0, 2)
  | .b4f => (1, 2)
  | .b4p => (2, 3)
  | .b4h => (3, 3)
  | .b8int => (0, 6)
  | .b8log => (1, 7)
  | .b8e4m3 => (2, 8)

/-- R21: the value list of a type that has one. -/
def listOf : BlkTy → List ℚ
  | .b4f => [0, 1 / 2, 1, 3 / 2, 2, 3, 4, 6]
  | .b4p => [0, 1 / 8, 1 / 4, 1 / 2, 1, 2, 4, 8]
  | _ => [0, 1, 2, 3, 4, 6, 8, 12]

end Sys2Proof.Spec

/-- R19, R24, R35, R36, R173, R174: what a drain and the block forms encode: an accumulator element is A·2^P, −2^63 read as
−(2^63 − 1); a row becomes the codes of its format, densely packed, in a block format under the block words that its runs
select: E from the exponent of the greatest magnitude, clamped to 0 to 62 with OVF above, a micro bit for each smaller pair, a
NaN block where an element is NaN or infinite. An element is divided by its scale and encoded by its type; beyond the largest
code it takes that one with INX alone, and a zero from a non-zero element sets UNF and INX. That TE does not scale a linear or
integer destination is the model's reading (log 49). -/
def Sys2Proof.Spec.BlocksAndRowsAreEncoded : Prop :=
  (∀ a p : Int, -(2 ^ 63) ≤ a → a < 2 ^ 63 → Spec.proper (accValue a p) (max (-(2 ^ 63 - 1)) a * (2 : ℚ) ^ p)) ∧
  (∀ (mode : RMode) (sat : Bool) (u : Nat) (v : XVal) (te : Int),
    let int (n : Nat) : Nat × Flags := (((encodeInt n mode u v).1 % (2 ^ n : Nat)).toNat, (encodeInt n mode u v).2)
    let e (fmt : Nat) : Nat × Flags := encodeElem fmt te mode sat u v
    e 0 = log8.encode te mode u v ∧ e 1 = log6.encode te mode u v ∧ e 2 = log4.encode te mode u v ∧
      e 10 = fp32.encode mode sat u v ∧ e 11 = fp16.encode mode sat u v ∧ e 12 = bf16.encode mode sat u v ∧
      e 13 = e4m3.encode mode sat u v ∧ e 14 = e5m2.encode mode sat u v ∧ e 15 = int 8 ∧ e 16 = int 16 ∧ e 17 = int 32) ∧
  (∀ (fmt : Nat) (te : Int) (mode : RMode) (us : List Nat) (xs : List XVal), xs.length = 128 →
    let r := drainRow fmt te mode us xs
    let t := BlkTy.ofFmt fmt
    let n := if fmt < 6 then 32 else 16
    let word (b : Nat) : Nat × Flags := selectBlock t te ((List.range n).map fun i => xs.getD (n * b + i) .nan)
    let code (j : Nat) : Nat × Flags := if fmt < 3 ∨ 9 < fmt then encodeElem fmt te mode false (us.getD j 0) (xs.getD j .nan)
      else blkElem t (word (j / n)).1 (j % n) mode (us.getD j 0) ((xs.getD j .nan).scale (-te))
    let f := (if fmt < 3 ∨ 9 < fmt then [] else (List.range (128 / n)).map fun b => (word b).2) ++
      (List.range 128).map fun j => (code j).2
    r = ((List.range 128).map fun j => (code j).1,
      (if fmt < 3 ∨ 9 < fmt then [] else (List.range (128 / n)).map fun b => (word b).1),
      ⟨false, f.any (·.inx), f.any (·.ovf)⟩)) ∧
  (∀ (fmt : Nat) (codes : List Nat), codes.length % 8 = 0 →
    let b := storedBits fmt
    (packBytes fmt codes).length = codes.length * b / 8 ∧
      ∀ i < codes.length, natOfBytes (packBytes fmt codes) / 2 ^ (b * i) % 2 ^ b = codes.getD i 0 % 2 ^ b) ∧
  (∀ (t : BlkTy) (te : Int) (xs : List XVal),
    let (tc, emax) := Spec.typeOf t
    let four : Bool := decide (t ∈ [BlkTy.b4i, .b4f, .b4p, .b4h])
    let word (e mu : Nat) : Nat := 16384 * tc + 256 * e + mu
    (∀ x ∈ xs, (x = .nan ∨ ∃ neg, x = .inf neg) → selectBlock t te xs = (word 63 0, ⟨true, false, false, false, true⟩)) ∧
    (∀ rs : List ℚ, List.Forall₂ Spec.proper xs rs → xs.length = (if four then 16 else 32) →
      let a (l : List ℚ) : ℚ := (l.map fun r => |r| * (2 : ℚ) ^ (-te)).foldl max 0
      (a rs = 0 → selectBlock t te xs = (word 0 (if four then 255 else 0), Flags.none)) ∧
      (∀ ea : Int, (2 : ℚ) ^ ea ≤ a rs → a rs < (2 : ℚ) ^ (ea + 1) →
        let e := ea - emax + 31
        ∃ mu < 256, selectBlock t te xs = (word (max 0 (min 62 e)).toNat mu, ⟨false, decide (62 < e), false, false, false⟩) ∧
          (four = false → mu = 0) ∧
          (four = true → ∀ i < 8, (mu.testBit i = true ↔ a [rs.getD (2 * i) 0, rs.getD (2 * i + 1) 0] < (2 : ℚ) ^ ea))))) ∧
  (∀ (t : BlkTy) (w i : Nat) (mode : RMode) (u : Nat) (x : XVal), w < 65536 →
    let four : Bool := decide (t ∈ [BlkTy.b4i, .b4f, .b4p, .b4h])
    let bad : Prop := w / 256 % 64 = 63 ∨ (four = false ∧ (w % 256 ≠ 0 ∨ w / 16384 = 3))
    let scale : Int := (w / 256 % 64 : Nat) - 31 - (if four && (w % 256).testBit (i / 2) then 1 else 0)
    blkElem t w i mode u x = if bad then (0, ⟨true, false, false, false, true⟩) else blkEncodeElem t scale mode u x) ∧
  (∀ (t : BlkTy) (scale : Int) (mode : RMode) (u : Nat) (neg : Bool) (m : Nat) (e : Int), 0 < m →
    let enc (x : XVal) : Nat × Flags := blkEncodeElem t scale mode u x
    let by_ (v : Nat → Nat × Flags) : Nat × Flags := match t with
      | .b4i => v 0
      | .b4f => v 1
      | .b4p => v 1
      | .b4h => v 1
      | .b8int => v 2
      | .b8log => v 3
      | .b8e4m3 => v 4
    enc (.zero neg) = (0, Flags.none) ∧
    enc .nan = by_ (fun k => (([0, 0, 0, 128, 127] : List Nat).getD k 0, ⟨true, false, false, false, decide (3 ≤ k)⟩)) ∧
    enc (.inf neg) = by_ (fun k => (if neg then ([8, 15, 128, 255, 254] : List Nat).getD k 0
      else ([7, 7, 127, 127, 126] : List Nat).getD k 0, ⟨false, true, false, true, false⟩)) ∧
    let q : XVal := .fin neg m (e - scale) false
    let got (code : Nat) (zero : Prop) [Decidable zero] (f : Flags) : Prop := enc (.fin neg m e false) =
      (code, if zero then ⟨false, false, true, true, false⟩ else ⟨f.nan, false, f.unf, f.inx || f.ovf, f.nfin⟩)
    match t with
    | .b4i => let r := encodeInt 4 mode u q; got (r.1 % 16).toNat (r.1 = 0) r.2
    | .b8int => let r := encodeInt 8 mode u q; got (r.1 % 256).toNat (r.1 = 0) r.2
    | .b8log => let r := log8.encode 0 mode u q; got r.1 (r.1 = 0) r.2
    | .b8e4m3 => let r := e4m3.encode mode true u q; got r.1 (r.1 % 128 = 0) r.2
    | _ =>
      let v := Spec.exactly m (e - scale)
      let l (k : Nat) : ℚ := (Spec.listOf t).getD k 0
      ∃ k < 8, l k ≤ v ∧ (∀ k' < 8, l k' ≤ v → k' ≤ k) ∧
        let up : Prop := k < 7 ∧ l k ≠ v ∧ Spec.goesUp mode neg (decide (k % 2 = 1)) ((v - l k) / (l (k + 1) - l k)) u
        let is (n : Nat) : Prop := enc (.fin neg m e false) = if n = 0 then (0, ⟨false, false, true, true, false⟩)
          else (n + (if neg then 8 else 0), ⟨false, false, false, decide (l k ≠ v), false⟩)
        (up → is (k + 1)) ∧ (¬ up → is k))

/-! ### Local memory (08_core_local_memory.md) -/

namespace Sys2Proof.Spec

open Sys2Proof Sys2Proof.Machine

/-- R78: a read of n bytes lies in the private part or in the multicast window. -/
def readable (a : Int) (n : Nat) : Prop := 0 ≤ a ∧ (a + n ≤ 0x3F0000 ∨ (0x3F0000 ≤ a ∧ a + n ≤ 0x400000))

/-- R78: a write that stays in this core lies there too; one to the alias of the window lies in the alias. -/
def aliased (a : Int) (n : Nat) : Prop := 0x400000 ≤ a ∧ a + n ≤ 0x410000

/-- EA of R178: the base register the name selects plus OFF times the size, or plus a signed register. -/
def eaOff (s : State) (bq : BitVec 3) (off : BitVec 11) (size : Nat) : Int :=
  ((sget 0 s.cur.bank.b ((bq.toNat + s.cur.bank.brb.toNat) % 8)).toNat + off.toNat * size : Nat)
def eaIdx (s : State) (bq : BitVec 3) (a : BitVec 6) : Int :=
  ((sget 0 s.cur.bank.b ((bq.toNat + s.cur.bank.brb.toNat) % 8)).toNat : Int) + (s.rs 0 a).toInt

/-- The low n bits of a number, sign-extended, as a word. -/
def sext (n v : Nat) : W := wrapI (sextNat n v)

/-- R180: the scalar loads: immediate and register form, size, value. -/
def loads : List ((FmtC0 → Instr) × (FmtC0R → Instr) × Nat × (Nat → W)) :=
  [(.ldw, .ldwReg, 4, wrapN), (.ldh, .ldhReg, 2, sext 16), (.ldhu, .ldhuReg, 2, wrapN), (.ldb, .ldbReg, 1, sext 8),
   (.ldbu, .ldbuReg, 1, wrapN)]

/-- R180: the scalar stores. -/
def stores : List ((FmtC0 → Instr) × (FmtC0R → Instr) × Nat) :=
  [(.stw, .stwReg, 4), (.sth, .sthReg, 2), (.stb, .stbReg, 1)]

/-- R180: the vector loads and stores, by unit. -/
def vectorLoads : List ((FmtC0 → Instr) × (FmtC0R → Instr) × Bool) :=
  [(.vldV0, .vldV0Reg, false), (.vldV1, .vldV1Reg, true)]
def vectorStores : List ((FmtC0 → Instr) × (FmtC0R → Instr) × Bool) :=
  [(.vstV0, .vstV0Reg, false), (.vstV1, .vstV1Reg, true)]

/-- R186: the local atomics. -/
def atomics : List ((FmtC0 → Instr) × (FmtC0R → Instr) × Nat) :=
  [(.spadd, .spaddReg, 0), (.spmax, .spmaxReg, 1), (.spswp, .spswpReg, 2)]

/-- The bytes of the lanes of a register, lane 0 first, each little-endian (R5, R180). -/
def laneBytes (v : VReg) : List Byte := ((List.range 64).map fun l => bytesOfNat 4 (lane v l).toNat).flatten

/-- The undo bytes of the interval after n more of bank 0 (R208); bank 1 counts none. -/
def counting (c : Core) (n : Nat) : Core := { c with undoCount := if c.cur then c.undoCount else c.undoCount + n }

/-- The interval has room for n more undo bytes (R208). -/
def room (c : Core) (n : Nat) : Prop := c.cur = true ∨ c.undoCount + n ≤ 65536

end Sys2Proof.Spec

/-- R178, R180, R181: a scalar load with a true guard at an aligned readable address samples its bytes at issue,
little-endian, and sends the value, extended as its form says, to be visible six issue cycles later; it pushes nothing and
changes nothing else. -/
def Sys2Proof.Spec.ScalarLoadsSampleAtIssue : Prop :=
  ∀ x ∈ Spec.loads, ∀ (s : State) (a : Nat), Spec.readable a x.2.2.1 → a % x.2.2.1 = 0 →
    (∀ f : FmtC0, s.guard f.gn f.g = true → Spec.eaOff s f.bq f.off x.2.2.1 = a →
      exec (x.1 f) s = .next (Spec.sent s [(6, .reg f.d (x.2.2.2 (s.cur.sp.nat a x.2.2.1)))] [])) ∧
    (∀ f : FmtC0R, s.guard f.gn f.g = true → Spec.eaIdx s f.bq f.a = a →
      exec (x.2.1 f) s = .next (Spec.sent s [(6, .reg f.d (x.2.2.2 (s.cur.sp.nat a x.2.2.1)))] []))

/-- R178, R180, R181, R188, R208: a scalar store with a true guard at an aligned address of the private part or the window
counts its bytes and sends them, little-endian from EA, to be applied two issue cycles later; nothing else changes, and the
scratchpad itself not before then. -/
def Sys2Proof.Spec.ScalarStoresSendTheirBytes : Prop :=
  ∀ x ∈ Spec.stores, ∀ (s : State) (a : Nat), Spec.readable a x.2.2 → a % x.2.2 = 0 → Spec.room s.cur x.2.2 →
    let after (d : BitVec 6) := Spec.sentFrom s (Spec.counting s.cur x.2.2)
      [(2, .spw (placed a (bytesOfNat x.2.2 (s.rs 2 d).toNat)))] []
    (∀ f : FmtC0, s.guard f.gn f.g = true → Spec.eaOff s f.bq f.off x.2.2 = a →
      exec (x.1 f) s = .next (after f.d)) ∧
    (∀ f : FmtC0R, s.guard f.gn f.g = true → Spec.eaIdx s f.bq f.a = a →
      exec (x.2.1 f) s = .next (after f.d))

/-- R178, R180, R181, R188: a vector load samples 64 words from a word-aligned address, and a vector store sends the words of
its lanes and counts 256 undo bytes. -/
def Sys2Proof.Spec.VectorLoadsAndStores : Prop :=
  ∀ (s : State) (a : Nat), Spec.readable a 256 → a % 4 = 0 →
    (∀ x ∈ Spec.vectorLoads, ∃ v : VReg, (∀ l < 64, lane v l = BitVec.ofNat 32 (s.cur.sp.nat (a + 4 * l) 4)) ∧
      let after (d : BitVec 6) := Spec.sent s [(6, .vload x.2.2 d (BitVec.allOnes 64) v)] []
      (∀ f : FmtC0, s.guard f.gn f.g = true → Spec.eaOff s f.bq f.off 256 = a → exec (x.1 f) s = .next (after f.d)) ∧
      (∀ f : FmtC0R, s.guard f.gn f.g = true → Spec.eaIdx s f.bq f.a = a → exec (x.2.1 f) s = .next (after f.d))) ∧
    (∀ x ∈ Spec.vectorStores, Spec.room s.cur 256 →
      let after (d : BitVec 6) := Spec.sentFrom s (Spec.counting s.cur 256)
        [(2, .spw (placed a (Spec.laneBytes (s.rv x.2.2 2 d))))] []
      (∀ f : FmtC0, s.guard f.gn f.g = true → Spec.eaOff s f.bq f.off 256 = a →
        exec (x.1 f) s = .next (after f.d)) ∧
      (∀ f : FmtC0R, s.guard f.gn f.g = true → Spec.eaIdx s f.bq f.a = a →
        exec (x.2.1 f) s = .next (after f.d)))

/-- R183, R188: with every lane's address readable and word-aligned, a gather sends the words at its 64 addresses, and a
scatter sends the words of its lanes, a later lane's after an earlier one's, and counts four undo bytes for each lane. -/
def Sys2Proof.Spec.GathersAndScatters : Prop :=
  ∀ (f : FmtC0R) (s : State) (u : Bool) (a : Nat → Nat), s.guard f.gn f.g = true →
    (∀ l < 64, ((s.cur.bank.readB f.bq.toNat).toNat : Int) + (lane (s.rv u 0 f.a) l).toInt = a l ∧
      Spec.readable (a l) 4 ∧ a l % 4 = 0) →
    (∃ v : VReg, (∀ l < 64, lane v l = BitVec.ofNat 32 (s.cur.sp.nat (a l) 4)) ∧
      exec (if u then .vgthV1 f else .vgthV0 f) s =
        .next (Spec.sent s [(6, .vload u f.d (BitVec.allOnes 64) v)] [])) ∧
    (Spec.room s.cur 256 →
      exec (if u then .vsctV1 f else .vsctV0 f) s = .next
        (Spec.sentFrom s (Spec.counting s.cur 256) [(2, .spw ((List.range 64).map fun l =>
          placed (a l) (bytesOfNat 4 (lane (s.rv u 2 f.d) l).toNat)).flatten)] []))

/-- R163, R184: a push into a good ring that is not full writes 256 bytes into its tail slot, a pop of a good ring that is not
empty loads 256 bytes from its head slot, at OFF times 256 within the slot, and .ADV moves TAIL or HEAD on after latency 1. -/
def Obligations.RingPushAndPop : Prop :=
  ∀ (f : FmtC0Q) (s : State) (u : Bool), s.guard f.gn f.g = true →
    let off := f.off.toNat * 256
    (let r := s.ringTail f.q
     let a := r.slotAt r.tail + off
     r.ok = true → r.full = false → off + 256 ≤ r.slotsz → Spec.readable a 256 → Spec.room s.cur 256 →
      exec (if u then .qpushV1 f else .qpushV0 f) s = .next
        (Spec.sentFrom s (Spec.counting s.cur 256)
          ((2, .spw (placed a (Spec.laneBytes (s.rv u 2 f.d)))) ::
            if f.adv then [(1, .qtail f.q.toNat (BitVec.ofNat 8 (r.next r.tail r.twrap).1) (r.next r.tail r.twrap).2)]
            else []) [])) ∧
    (let r := s.ringHead f.q
     let a := r.slotAt r.head + off
     r.ok = true → r.empty = false → off + 256 ≤ r.slotsz → Spec.readable a 256 →
      ∃ v : VReg, (∀ l < 64, lane v l = BitVec.ofNat 32 (s.cur.sp.nat (a + 4 * l) 4)) ∧
        exec (if u then .qpopV1 f else .qpopV0 f) s = .next (Spec.sent s
          ((6, .vload u f.d (BitVec.allOnes 64) v) ::
            if f.adv then [(1, .qhead f.q.toNat (BitVec.ofNat 8 (r.next r.head r.hwrap).1) (r.next r.head r.hwrap).2)]
            else []) []))

/-- R186, R188: a local atomic at a readable aligned word counts four undo bytes and comes to its indivisible step two issue
cycles later, with the operand read at issue. -/
def Sys2Proof.Spec.LocalAtomicsIssue : Prop :=
  ∀ x ∈ Spec.atomics, ∀ (s : State) (a : Nat), Spec.readable a 4 → a % 4 = 0 → Spec.room s.cur 4 →
    let after (d : BitVec 6) := Spec.sentFrom s (Spec.counting s.cur 4) [(2, .atom x.2.2 a d (s.rs 2 d))] []
    (∀ f : FmtC0, s.guard f.gn f.g = true → Spec.eaOff s f.bq f.off 4 = a →
      exec (x.1 f) s = .next (after f.d)) ∧
    (∀ f : FmtC0R, s.guard f.gn f.g = true → Spec.eaIdx s f.bq f.a = a →
      exec (x.2.1 f) s = .next (after f.d))

/-- R178, R179, R183, R184, R186, R208: what an access may not do raises its cause and takes no other effect: SP_RANGE for an
address that no row of the address table allows, ALIGN for one that is not a multiple of the size (of 4 for a vector), and
CKP_BUDGET for a store beyond the undo budget, in both address forms; the atomics may not use the alias; of a gather's or
scatter's lanes a bad range counts before a bad alignment; a push or pop raises RING_DESC, then RING_FULL or RING_EMPTY, then
SP_RANGE where its bytes leave the slot or the table (that SP_RANGE and ALIGN come before CKP_BUDGET is the model's choice, log
13). -/
def Obligations.AccessesOutsideTheirRangeTrap : Prop :=
  ∀ (s : State) (a : Int), s.cur.cur = false →
    let bad (code : Nat) := Host.Outcome.next (φ := Fault) (ρ := Refusal) (Spec.trapped s code)
    let beyond (n : Nat) : Prop := 65536 < s.cur.undoCount + n
    -- a load of n bytes, a store of n bytes, and an atomic, of an alignment, at the address a
    let loadTraps (o : Host.Outcome State Fault Refusal) (n al : Nat) : Prop :=
      (¬ Spec.readable a n → o = bad 0x0015) ∧ (Spec.readable a n → a % al ≠ 0 → o = bad 0x0016)
    let storeTraps (o : Host.Outcome State Fault Refusal) (n al : Nat) : Prop :=
      (¬ Spec.readable a n → ¬ Spec.aliased a n → o = bad 0x0015) ∧
      (Spec.readable a n ∨ Spec.aliased a n → a % al ≠ 0 → o = bad 0x0016) ∧
      (Spec.readable a n → a % al = 0 → beyond n → o = bad 0x001C)
    let atomTraps (o : Host.Outcome State Fault Refusal) : Prop :=
      loadTraps o 4 4 ∧ (Spec.readable a 4 → a % 4 = 0 → beyond 4 → o = bad 0x001C)
    let imm (f : FmtC0) (n : Nat) : Prop := s.guard f.gn f.g = true ∧ Spec.eaOff s f.bq f.off n = a
    let reg (f : FmtC0R) : Prop := s.guard f.gn f.g = true ∧ Spec.eaIdx s f.bq f.a = a
    (∀ x ∈ Spec.loads, (∀ f, imm f x.2.2.1 → loadTraps (exec (x.1 f) s) x.2.2.1 x.2.2.1) ∧
      ∀ f, reg f → loadTraps (exec (x.2.1 f) s) x.2.2.1 x.2.2.1) ∧
    (∀ x ∈ Spec.vectorLoads, (∀ f, imm f 256 → loadTraps (exec (x.1 f) s) 256 4) ∧
      ∀ f, reg f → loadTraps (exec (x.2.1 f) s) 256 4) ∧
    (∀ x ∈ Spec.stores, (∀ f, imm f x.2.2 → storeTraps (exec (x.1 f) s) x.2.2 x.2.2) ∧
      ∀ f, reg f → storeTraps (exec (x.2.1 f) s) x.2.2 x.2.2) ∧
    (∀ x ∈ Spec.vectorStores, (∀ f, imm f 256 → storeTraps (exec (x.1 f) s) 256 4) ∧
      ∀ f, reg f → storeTraps (exec (x.2.1 f) s) 256 4) ∧
    (∀ x ∈ Spec.atomics, (∀ f, imm f 4 → atomTraps (exec (x.1 f) s)) ∧ ∀ f, reg f → atomTraps (exec (x.2.1 f) s)) ∧
    (∀ (f : FmtC0R) (u : Bool), s.guard f.gn f.g = true →
      let ea (l : Nat) : Int := ((s.cur.bank.readB f.bq.toNat).toNat : Int) + (lane (s.rv u 0 f.a) l).toInt
      let ld := exec (if u then .vgthV1 f else .vgthV0 f) s
      let st := exec (if u then .vsctV1 f else .vsctV0 f) s
      let mine (l : Nat) : Prop := Spec.readable (ea l) 4 ∨ Spec.aliased (ea l) 4
      ((∃ l < 64, ¬ Spec.readable (ea l) 4) → ld = bad 0x0015) ∧
      ((∀ l < 64, Spec.readable (ea l) 4) → (∃ l < 64, ea l % 4 ≠ 0) → ld = bad 0x0016) ∧
      ((∃ l < 64, ¬ mine l) → st = bad 0x0015) ∧
      ((∀ l < 64, mine l) → (∃ l < 64, ea l % 4 ≠ 0) → st = bad 0x0016) ∧
      ((∀ l < 64, Spec.readable (ea l) 4 ∧ ea l % 4 = 0) → beyond 256 → st = bad 0x001C)) ∧
    (∀ (f : FmtC0Q) (u : Bool), s.guard f.gn f.g = true →
      let push := exec (if u then .qpushV1 f else .qpushV0 f) s
      let pop := exec (if u then .qpopV1 f else .qpopV0 f) s
      let t := s.ringTail f.q
      let h := s.ringHead f.q
      let off := f.off.toNat * 256
      let fits (r : Ring) (n : Nat) : Prop := off + 256 ≤ r.slotsz ∧ Spec.readable (r.slotAt n + off : Nat) 256
      (t.ok = false → push = bad 0x0011) ∧ (t.ok = true → t.full = true → push = bad 0x0013) ∧
      (t.ok = true → t.full = false → ¬ fits t t.tail → push = bad 0x0015) ∧
      (t.ok = true → t.full = false → fits t t.tail → beyond 256 → push = bad 0x001C) ∧
      (h.ok = false → pop = bad 0x0011) ∧ (h.ok = true → h.empty = true → pop = bad 0x0012) ∧
      (h.ok = true → h.empty = false → ¬ fits h h.head → pop = bad 0x0015))

/-- R183, R187, R211: every store to the alias, scalar or vector, whose log entry is new leaves for the layers of MCMASK, at
the offset 0x10000 below, nine issue cycles later, and is logged with its digest; a scatter's lanes in the alias leave one by
one, after its other lanes have gone their own way. That bank 1's stores are sent and not logged is the model's reading of
R205 and R211 (log 14). -/
def Obligations.AliasStoresAreMulticast : Prop :=
  ∀ s : State, s.cur.rerun = none →
    let c := s.cur
    let m := (s.col (colOf s.ictx.core)).mcmask
    let room (n : Nat) : Prop := c.cur = true ∨ (c.outPos = c.outLog.length ∧ c.outPos + n ≤ 256)
    let away (a : Nat) (bs : List Byte) : Pend := ⟨9, c.cur, c.cur, .mcast m (placed (a - 0x10000) bs)⟩
    -- the stores of a list leave, after the entries that the core sent before them
    let leaves (o : Host.Outcome State Fault Refusal) (here : List Pend) (out : List (Nat × List Byte)) : Prop :=
      ∃ t, o = .next t ∧ (∀ j, j ≠ s.ictx.core → t.core j = s.core j) ∧
        t.cur.pend = c.pend ++ here ++ out.map (fun x => away x.1 x.2) ∧ t.cur.sp = c.sp ∧
        (c.cur = true → t.cur.outLog = c.outLog ∧ t.cur.outPos = c.outPos ∧ t.cur.undoCount = c.undoCount) ∧
        (c.cur = false → t.cur.outPos = c.outPos + out.length ∧
          ∃ es : List OutEntry, t.cur.outLog = c.outLog ++ es ∧
            es.map (fun e => (e.len, e.digest)) = out.map fun x => (x.2.length, digest x.2))
    (∀ a : Nat, room 1 →
      (∀ x ∈ Spec.stores, Spec.aliased a x.2.2 → a % x.2.2 = 0 →
        let bs (d : BitVec 6) := bytesOfNat x.2.2 (s.rs 2 d).toNat
        (∀ f : FmtC0, s.guard f.gn f.g = true → Spec.eaOff s f.bq f.off x.2.2 = a → leaves (exec (x.1 f) s) [] [(a, bs f.d)]) ∧
        ∀ f : FmtC0R, s.guard f.gn f.g = true → Spec.eaIdx s f.bq f.a = a → leaves (exec (x.2.1 f) s) [] [(a, bs f.d)]) ∧
      (∀ x ∈ Spec.vectorStores, Spec.aliased a 256 → a % 4 = 0 →
        let bs (d : BitVec 6) := Spec.laneBytes (s.rv x.2.2 2 d)
        (∀ f : FmtC0, s.guard f.gn f.g = true → Spec.eaOff s f.bq f.off 256 = a → leaves (exec (x.1 f) s) [] [(a, bs f.d)]) ∧
        ∀ f : FmtC0R, s.guard f.gn f.g = true → Spec.eaIdx s f.bq f.a = a → leaves (exec (x.2.1 f) s) [] [(a, bs f.d)])) ∧
    (∀ (f : FmtC0R) (u : Bool) (a : Nat → Nat), s.guard f.gn f.g = true →
      (∀ l < 64, ((s.cur.bank.readB f.bq.toNat).toNat : Int) + (lane (s.rv u 0 f.a) l).toInt = a l ∧
        (Spec.readable (a l) 4 ∨ Spec.aliased (a l) 4) ∧ a l % 4 = 0) →
      let words := (List.range 64).map fun l => (a l, bytesOfNat 4 (lane (s.rv u 2 f.d) l).toNat)
      let here := words.filter fun x => decide (x.1 < 0x400000)
      let out := words.filter fun x => decide (0x400000 ≤ x.1)
      room out.length → Spec.room c (4 * here.length) →
      leaves (exec (if u then .vsctV1 f else .vsctV0 f) s)
        (if here.isEmpty then [] else [⟨2, c.cur, c.cur, .spw (here.map fun x => placed x.1 x.2).flatten⟩]) out)

/-! ### Copies and the column (08_core_local_memory.md, 11_column.md) -/

namespace Sys2Proof.Spec

open Sys2Proof Sys2Proof.Machine

/-- The next outbound operation of the core is new to its log and within its budget (R208, R211). -/
def logsNew (c : Core) : Prop := c.cur = true ∨ (c.outLog[c.outPos]? = none ∧ c.outPos < 256)

/-- A copy as it enters the sequencer's queue (R192, R228). -/
def newCopy (kind : CopyKind) (ticket : Nat) (desc : BitVec 512) (db : Nat) (slot : Option RingSlot) (y : Nat) : Copy :=
  { kind := kind, ticket := ticket, desc := desc, db := db, slot := slot, go := y, started := none, req := none,
    runsDone := 0, run := 0, beat := 0, reading := true, flight := [] }

/-- The ticket after a ticket: 1 to 2^24 - 1 in turn (R192). -/
def ticketAfter (t : Nat) : Nat := if t = 2 ^ 24 - 1 then 1 else t + 1

/-- TAIL of a ring advanced by one slot (R163). -/
def tailMoved (q : Nat) (r : Ring) : PendKind :=
  .qtail q (BitVec.ofNat 8 (if r.tail + 1 < r.nslot then r.tail + 1 else 0)) (if r.tail + 1 < r.nslot then r.twrap else !r.twrap)

/-- An event due in a clock cycle of a column's die. -/
def dueCol (s : State) (col clk : Nat) (e : Ev) : State := { s with agenda := s.agenda ++ [⟨.die (col / 128), clk, e⟩] }

/-- What a state leaves alone: every core but those of a list, every die and package, and the columns but one. -/
def keeps (s t : State) (ks : List Nat) (cols : List Nat) : Prop :=
  (∀ j, j ∉ ks → t.core j = s.core j) ∧ (∀ j, j ∉ cols → t.col j = s.col j) ∧ t.dies = s.dies ∧ t.pkgs = s.pkgs ∧
    t.inputs = s.inputs ∧ t.ictx = s.ictx

end Sys2Proof.Spec

/-- R189 to R193, R196: CPYLD in bank 0 stages the 64 bytes at its aligned address when the descriptor is legal, and raises
ALIGN, SP_RANGE or COPY_DESC when it is not (that ALIGN counts before SP_RANGE is log 20's choice); CPYGO starts the staged
copy under the next ticket when the queue has room and returns the ticket, returns 0 when it is full or in bank 1, and raises
COPY_DESC with nothing staged; a copy into a ring takes the TAIL slot, advances TAIL, and raises RING_DESC, RING_FULL, or
COPY_DESC where its bytes leave the slot or meet its source; CPYSTAT returns the queue's length above the last completed
ticket. -/
def Sys2Proof.Spec.CopyForms : Prop :=
  ∀ s : State,
    let c := s.cur
    let y := s.clkOf s.ictx.core
    (∀ f : FmtGA, s.guard f.gn f.g = true → c.cur = false →
      let a := (s.rs 0 f.a).toNat
      let d : BitVec 512 := BitVec.ofNat 512 (c.sp.nat a 64)
      (a % 64 = 0 → a + 64 ≤ 0x400000 → (CopyDesc.ofBits d).stageOk = true →
        exec (.cpyld f) s = .next (Spec.sent s [(1, .stage d)] [])) ∧
      (a % 64 = 0 → a + 64 ≤ 0x400000 → (CopyDesc.ofBits d).stageOk = false →
        exec (.cpyld f) s = .next (Spec.trapped s 0x0017)) ∧
      (a % 64 ≠ 0 → exec (.cpyld f) s = .next (Spec.trapped s 0x0016)) ∧
      (a % 64 = 0 → 0x400000 < a + 64 → exec (.cpyld f) s = .next (Spec.trapped s 0x0015))) ∧
    (∀ f : FmtD, s.guard f.gn f.g = true → c.cur = false → c.seq.loaded = true →
      let d := CopyDesc.ofBits c.seq.staging
      let t := Spec.ticketAfter c.seq.ticket
      d.dring = false → c.seq.queue.length < 4 →
      Spec.completesAs (exec (.cpygo f) s)
        (let cp := Spec.newCopy .local_ t c.seq.staging d.dbase none y
         let c' : Core := { c with seq := { c.seq with ticket := t, queue := c.seq.queue ++ [cp] } }
         let s' := Spec.sentFrom s c' [(1, .reg f.d (BitVec.ofNat 32 t))] []
         if c.seq.queue = [] then Spec.due s' (y + 4) (evK .copyStart s.ictx.core) else s')) ∧
    (∀ f : FmtD, s.guard f.gn f.g = true → c.cur = false → c.seq.loaded = true →
      (CopyDesc.ofBits c.seq.staging).dring = false → 4 ≤ c.seq.queue.length →
      exec (.cpygo f) s = .next (Spec.sent s [(1, .reg f.d 0)] [])) ∧
    (∀ f : FmtD, s.guard f.gn f.g = true → c.cur = false → c.seq.loaded = true →
      let d := CopyDesc.ofBits c.seq.staging
      let r := s.ringTail d.dq
      let db := r.slotAt r.tail + d.dbase
      let apart := d.dstHi db < d.srcLo ∨ d.srcHi < d.dstLo db
      let fits := r.slotAt r.tail ≤ d.dstLo db ∧ d.dstHi db < r.slotAt r.tail + r.slotsz ∧ apart
      let t := Spec.ticketAfter c.seq.ticket
      d.dring = true →
      (r.ok = false → exec (.cpygo f) s = .next (Spec.trapped s 0x0011)) ∧
      (r.ok = true → r.full = true → exec (.cpygo f) s = .next (Spec.trapped s 0x0013)) ∧
      (r.ok = true → r.full = false → ¬ fits → exec (.cpygo f) s = .next (Spec.trapped s 0x0017)) ∧
      (r.ok = true → r.full = false → fits → 4 ≤ c.seq.queue.length →
        exec (.cpygo f) s = .next (Spec.sent s [(1, .reg f.d 0)] [])) ∧
      (r.ok = true → r.full = false → fits → c.seq.queue.length < 4 →
        Spec.completesAs (exec (.cpygo f) s)
          (let cp := Spec.newCopy .local_ t c.seq.staging db (some ⟨c.cur, d.dq.toNat, r.tail⟩) y
           let c' : Core := { c with seq := { c.seq with ticket := t, queue := c.seq.queue ++ [cp] } }
           let s' := Spec.sentFrom s c'
             [(1, .qtail d.dq.toNat (BitVec.ofNat 8 (r.next r.tail r.twrap).1) (r.next r.tail r.twrap).2),
              (1, .reg f.d (BitVec.ofNat 32 t))] []
           if c.seq.queue = [] then Spec.due s' (y + 4) (evK .copyStart s.ictx.core) else s'))) ∧
    (∀ f : FmtD, s.guard f.gn f.g = true → c.cur = true →
      exec (.cpygo f) s = .next (Spec.sent s [(1, .reg f.d 0)] [])) ∧
    (∀ f : FmtD, s.guard f.gn f.g = true → c.cur = false → c.seq.loaded = false →
      exec (.cpygo f) s = .next (Spec.trapped s 0x0017)) ∧
    (∀ f : FmtD, s.guard f.gn f.g = true →
      exec (.cpystat f) s = .next (Spec.sent s
        [(1, .reg f.d (BitVec.ofNat 32 (c.seq.queue.length * 2 ^ 28 + c.seq.lastDone)))] []))

/-- R193 to R196: a local copy starts and reads its first beat at once; a beat read in one cycle is written two cycles later,
and the next is read in the next; a written beat puts its bytes in place; a completed copy leaves the queue and its ticket is
the last done; and after a rollback bank 0's next issue cycle lets the recorded copies start again four cycles later. -/
def Sys2Proof.Spec.CopyEventsHaveTheirEffect : Prop :=
  ∀ (s : State) (cp : Copy) (rest : List Copy),
    let k := s.ev.k
    let c := s.core k
    let y := s.clkOf k
    c.seq.queue = cp :: rest →
    let withQueue (q : List Copy) : Core := { c with seq := { c.seq with queue := q } }
    (c.seqStopped y = false → cp.started = none → cp.kind = .local_ → cp.reading = true →
      exec .copyStart s = .next (Spec.dueCol (s.setCore k (withQueue ({ cp with started := some y } :: rest)))
        (colOf k) y (evB .copyBeat k 0 false))) ∧
    (s.ev.b = false → c.seqStopped y = false → cp.reading = true → cp.step.reading = true →
      let n := cp.next
      exec .copyBeat s = .next (Spec.dueCol (Spec.dueCol (s.setCore k (withQueue
          ({ cp.step with flight := cp.flight ++ [(y + 2, n.dst, c.sp.bytes n.src n.len, n.endRun)] } :: rest)))
        (colOf k) (y + 2) (evB .copyBeat k 0 true)) (colOf k) (y + 1) (evB .copyBeat k 0 false))) ∧
    (∀ (t a : Nat) (bs : List Byte) (e : Bool) (fl : List (Nat × Nat × List Byte × Bool)), s.ev.b = true →
      cp.kind = .local_ → cp.flight = (t, a, bs, e) :: fl → ∃ t', exec .copyBeat s = .next t' ∧
      Spec.keeps s t' [k] [] ∧
      (∀ j, (t'.core k).sp.byte j = if a ≤ j ∧ j < a + bs.length then bs.getD (j - a) 0 else c.sp.byte j) ∧
      (t'.core k).seq.queue = { cp with flight := fl, runsDone := if e then cp.runsDone + 1 else cp.runsDone } :: rest ∧
      (t'.core k).bank0 = c.bank0 ∧ (t'.core k).bank1 = c.bank1) ∧
    (∃ t', exec .copyComplete s = .next t' ∧ Spec.keeps s t' [k] [] ∧
      t'.core k = { c with seq := { c.seq with queue := rest, lastDone := cp.ticket } }) ∧
    exec .copyRestart s = .next (Spec.dueCol (s.setCore k { withQueue ((cp :: rest).map fun x => { x with go := y }) with
      seqHold := false }) (colOf k) (y + 4) (evK .copyStart k))

/-- R228, R233 to R236, R238: VBCPY enters the sequencer's queue under the next ticket and returns it, and from a bank into a
ring takes the ring's TAIL slot and moves TAIL; with four copies queued it returns 0 and starts nothing, and in bank 1 too
(after its checks: log 13); WBZERO, WBCOPY, WBCMP and LUPD with fewer than four operations accepted enter the column's queue two cycles later and return 1, and otherwise return 0;
WBTAG returns the version map and changes the masked entries three cycles later; WBFENCE returns the bank status at once when
nothing is accepted, and otherwise the core waits for what is, whatever else its bundle does. -/
def Sys2Proof.Spec.BusAndBankFormsAct : Prop :=
  ∀ s : State, s.cur.rerun = none → Spec.logsNew s.cur →
    let c := s.cur
    let k := s.ictx.core
    let y := s.clkOf k
    let x := s.col (colOf k)
    (∀ (f : FmtDAB) (sub : Nat) (bits : BitVec 512) (kind : CopyKind) (db : Nat), sub ≤ 2 → s.guard f.gn f.g = true →
      s.descAt (s.rs 0 f.a).toNat = .ok bits →
      (CopyDesc.ofBits bits).busDest sub (layerOf k) (s.ringTail (CopyDesc.ofBits bits).dq) x (s.rs 1 f.b) = .ok (kind, db) →
      let i : Instr := if sub = 0 then .vbcpySs f else if sub = 1 then .vbcpyBs f else .vbcpySb f
      let d := CopyDesc.ofBits bits
      let r := s.ringTail d.dq
      let ticket := Spec.ticketAfter c.seq.ticket
      (c.cur = true → exec i s = .next (Spec.sent s [(1, .reg f.d 0)] [])) ∧
      (c.cur = false → c.seq.ticket < 2 ^ 24 → c.seq.queue.length < 4 → ∃ t, exec i s = .next t ∧ Spec.keeps s t [k] [] ∧
        t.cur.seq = { c.seq with ticket := ticket, queue := c.seq.queue ++
          [Spec.newCopy kind ticket bits db (if d.dring then some ⟨false, d.dq.toNat, r.tail⟩ else none) y] } ∧
        t.cur.pend = c.pend ++ ((if d.dring then [Spec.tailMoved d.dq.toNat r] else []) ++
          [PendKind.reg f.d (BitVec.ofNat 32 ticket)]).map (fun x => ⟨1, false, false, x⟩) ∧
        t.cur.sp = c.sp ∧ t.cur.outLog.length = if sub = 1 then c.outLog.length else c.outLog.length + 1) ∧
      (c.cur = false → 4 ≤ c.seq.queue.length → ∃ t, exec i s = .next t ∧ Spec.keeps s t [k] [] ∧ t.cur.seq = c.seq ∧
        t.cur.pend = c.pend ++ [⟨1, false, false, .reg f.d 0⟩] ∧ t.cur.sp = c.sp ∧
        t.cur.outLog.length = if sub = 1 then c.outLog.length else c.outLog.length + 1)) ∧
    (∀ (f : FmtDAB) (a b : Nat), s.guard f.gn f.g = true → x.select (s.rs 0 f.a) = some a → x.select (s.rs 1 f.b) = some b →
      (∃ t o, exec (.wbcopy f) s = .next t ∧ Spec.keeps s t [k] [colOf k] ∧
        t.cur.pend = c.pend ++ [⟨1, c.cur, c.cur, .reg f.d (if c.bankOps < 4 then 1 else 0)⟩] ∧
        (c.bankOps < 4 → t.cur.bankOps = c.bankOps + 1 ∧ t.col (colOf k) = { x with queue := insertOp o x.queue } ∧
          o.kind = .copy ∧ o.a = a ∧ o.b = b ∧ o.core = k ∧ o.enter = y + 2) ∧
        (4 ≤ c.bankOps → t.cur.bankOps = c.bankOps ∧ t.col (colOf k) = x)) ∧
      (∃ t o, exec (.wbcmp f) s = .next t ∧ Spec.keeps s t [k] [colOf k] ∧
        t.cur.pend = c.pend ++ [⟨1, c.cur, c.cur, .reg f.d (if c.bankOps < 4 then 1 else 0)⟩] ∧
        (c.bankOps < 4 → t.cur.bankOps = c.bankOps + 1 ∧ t.col (colOf k) = { x with queue := insertOp o x.queue } ∧
          o.kind = .cmp ∧ o.a = a ∧ o.b = b ∧ o.core = k ∧ o.enter = y + 2) ∧
        (4 ≤ c.bankOps → t.cur.bankOps = c.bankOps ∧ t.col (colOf k) = x))) ∧
    (∀ (f : FmtDA) (a : Nat), s.guard f.gn f.g = true → x.select (s.rs 0 f.a) = some a →
      ∃ t o, exec (.wbzero f) s = .next t ∧ Spec.keeps s t [k] [colOf k] ∧
        t.cur.pend = c.pend ++ [⟨1, c.cur, c.cur, .reg f.d (if c.bankOps < 4 then 1 else 0)⟩] ∧
        (c.bankOps < 4 → t.cur.bankOps = c.bankOps + 1 ∧ t.col (colOf k) = { x with queue := insertOp o x.queue } ∧
          o.kind = .zero ∧ o.a = a ∧ o.core = k ∧ o.enter = y + 2) ∧
        (4 ≤ c.bankOps → t.cur.bankOps = c.bankOps ∧ t.col (colOf k) = x)) ∧
    (∀ (f : FmtDA) (a tile : Nat), s.guard f.gn f.g = true → (s.rs 0 f.a).toNat = a → a % 16 = 0 → a + 16 ≤ 0x400000 →
      let w (n : Nat) : W := BitVec.ofNat 32 (c.sp.nat (a + 4 * n) 4)
      x.select (w 1) = some tile → (w 0).toNat % 128 = 0 → Spec.readable (w 0).toNat 65536 → kappaOk (w 2) = true →
      1 ≤ (w 3).toNat → (w 3).toNat ≤ 127 →
      (4 ≤ c.bankOps → ∃ t, exec (.lupd f) s = .next t ∧ Spec.keeps s t [k] [] ∧ t.cur.bankOps = c.bankOps ∧
        t.cur.sp = c.sp ∧ t.cur.pend = c.pend ++ [⟨1, c.cur, c.cur, .reg f.d 0⟩]) ∧
      (c.bankOps < 4 → ∃ t o, exec (.lupd f) s = .next t ∧ Spec.keeps s t [k] [colOf k] ∧ t.cur.bankOps = c.bankOps + 1 ∧
        t.cur.pend = c.pend ++ [⟨1, c.cur, c.cur, .reg f.d 1⟩] ∧
        t.col (colOf k) = { x with queue := insertOp o x.queue } ∧ o.kind = .lupd ∧ o.a = tile ∧
        o.core = k ∧ o.enter = y + 2 ∧
        o.b = tile / 4 * 4 + (tile + 1) % 4 ∧ o.gbase = (w 0).toNat ∧ o.kappa = w 2 ∧ o.dmax = (w 3).toNat)) ∧
    (∀ f : FmtDA, s.guard f.gn f.g = true → (s.rs 0 f.a).toNat < 4096 →
      ∃ t, exec (.wbtag f) s = .next t ∧ Spec.keeps s t [k] [] ∧
        t.cur.pend = c.pend ++ [⟨1, c.cur, c.cur, .reg f.d (x.tvmap.zeroExtend 32)⟩] ∧
        t.agenda = s.agenda ++ [⟨.die (dieOf k), y + 3, ⟨.tvmapUpdate, k, 0, 0, (s.rs 0 f.a).toNat, false⟩⟩]) ∧
    (∀ f : FmtD, s.guard f.gn f.g = true → exec (.wbfence f) s = .next
      (if c.bankOps = 0 then Spec.sent s [(1, .reg f.d c.bankStatus)] []
       else Spec.changed s { c with fence := some f.d, fenceOps := c.bankOps }))

/-- R228, R232 to R236: what the column's forms refuse in bank 0. VBCPY raises ALIGN, SP_RANGE, for a ring RING_DESC or
RING_FULL, and COPY_DESC, where its descriptor is out of place, its ring is unusable or full, or a field, a range or the
target word is not allowed; a tile select word with a reserved bit raises OPFMT, as do LUPD's own fields after ALIGN and then
SP_RANGE of its descriptor, of which the order is the model's choice (log 20), and WBTAG's reserved bits. -/
def Sys2Proof.Spec.ColumnFormsTrap : Prop :=
  ∀ s : State, s.cur.cur = false →
    let c := s.cur
    let traps (i : Instr) (code : Nat) : Prop := exec i s = .next (Spec.trapped s code)
    (∀ (f : FmtDAB) (sub : Nat), sub ≤ 2 → s.guard f.gn f.g = true →
      let i : Instr := if sub = 0 then .vbcpySs f else if sub = 1 then .vbcpyBs f else .vbcpySb f
      let a := (s.rs 0 f.a).toNat
      let b := s.rs 1 f.b
      let d := CopyDesc.ofBits (BitVec.ofNat 512 (c.sp.nat a 64))
      let r := s.ringTail d.dq
      let toRing := sub = 1 ∧ d.dring = true
      let base := if toRing then r.slotAt r.tail else 0
      let inBank (lo hi : Int) : Prop := 0 ≤ lo ∧ hi < 16384
      let source := if sub = 1 then inBank d.srcLo d.srcHi else rangeOk d.srcLo d.srcHi = true
      let dest := if toRing then base ≤ d.dstLo (base + d.dbase) ∧ d.dstHi (base + d.dbase) < base + r.slotsz
        else if sub = 2 then inBank (d.dstLo d.dbase) (d.dstHi d.dbase) else rangeOk (d.dstLo d.dbase) (d.dstHi d.dbase) = true
      let target := if sub = 0 then b.toNat < 4 ∧ b.toNat ≠ layerOf s.ictx.core else b.toNat < 4096
      (a % 64 ≠ 0 → traps i 0x0016) ∧ (a % 64 = 0 → 0x400000 < a + 64 → traps i 0x0015) ∧
      (a % 64 = 0 → a + 64 ≤ 0x400000 →
        (toRing → r.ok = false → traps i 0x0011) ∧ (toRing → r.ok = true → r.full = true → traps i 0x0013) ∧
        ((toRing → r.ok = true ∧ r.full = false) →
          (d.rsvd = true ∨ ¬ source ∨ ¬ dest ∨ ¬ target ∨ (d.dring = true ∧ sub ≠ 1)) → traps i 0x0017))) ∧
    (∀ f : FmtDAB, s.guard f.gn f.g = true → 4096 ≤ (s.rs 0 f.a).toNat ∨ 4096 ≤ (s.rs 1 f.b).toNat →
      traps (.wbcopy f) 0x0014 ∧ traps (.wbcmp f) 0x0014) ∧
    (∀ f : FmtDA, s.guard f.gn f.g = true → 4096 ≤ (s.rs 0 f.a).toNat → traps (.wbzero f) 0x0014 ∧ traps (.wbtag f) 0x0014) ∧
    (∀ f : FmtDA, s.guard f.gn f.g = true →
      let a := (s.rs 0 f.a).toNat
      let w (n : Nat) : W := BitVec.ofNat 32 (c.sp.nat (a + 4 * n) 4)
      (a % 16 ≠ 0 → traps (.lupd f) 0x0016) ∧ (a % 16 = 0 → 0x400000 < a + 16 → traps (.lupd f) 0x0015) ∧
      (a % 16 = 0 → a + 16 ≤ 0x400000 →
        (4096 ≤ (w 1).toNat ∨ (w 0).toNat % 128 ≠ 0 ∨ ¬ Spec.readable (w 0).toNat 65536 ∨ kappaOk (w 2) = false ∨
          (w 3).toNat = 0 ∨ 127 < (w 3).toNat) → traps (.lupd f) 0x0014))

/-- R223, R225, R227, R229, R233, R240, R242: the events of the vertical bus: a bus copy places its request in a slot of its
layer when the port is free, and its first beat comes twenty cycles later or in the next slot of the layer after that; a beat
of MLDWB in an owned slot reads one bank row of 128 bytes, which enters its plane in the next cycle; slot tables written take
effect together; a map update changes the masked entries; a failed wire takes one of eight spares and waits for its repair, or
without a spare the column and its cores are retired; a repair holds the bus for 32 cycles, and then the bus is free. -/
def Sys2Proof.Spec.BusTransfersAndTheirRepair : Prop :=
  ∀ s : State,
    let k := s.ev.k
    let c := s.core k
    let y := s.clkOf k
    let x := s.col (colOf k)
    (∀ (cp : Copy) (rest : List Copy), c.seq.queue = cp :: rest → c.seqStopped y = false → cp.started.isSome = true →
      cp.req = none → c.portBusy = false → c.portFrom ≤ y → x.slotOwner y = layerOf k → x.blocked = false →
      exec .busCopyRequest s = .next (Spec.dueCol (s.setCore k { c with
        seq := { c.seq with queue := { cp with req := some y } :: rest }, portBusy := true })
        (colOf k) (y + 20) (evB .busBeat k 0 false))) ∧
    (∀ (l : Load) (tile : Nat), s.ev.b = false → c.portBusy = true → x.slotOwner y = layerOf k → x.blocked = false →
      c.busLoad = some l → l.bank = some tile → x.badWords (16384 * tile + 128 * l.rows) 128 = [] →
      ∃ t, exec .busBeat s = .next t ∧ Spec.keeps s t [k] [] ∧
        (t.core k).loads = c.loads.map (fun z => if z.id = l.id then { z with rows := z.rows + 1, beats := z.beats ++
          [x.readBank (16384 * tile + 128 * l.rows) 128] } else z) ∧
        (t.core k).portBusy = decide (l.rows ≠ 127) ∧
        ⟨.die (dieOf k), y + 1, evJ .planeRowWrite k l.id l.rows⟩ ∈ t.agenda) ∧
    (exec .vbSlotsTakeEffect s = .next (s.setCol k (let z := s.col k
      { z with vbSlots := z.vbSlotsNext.getD z.vbSlots, vbBank := z.vbBankNext.getD z.vbBank, vbSlotsNext := none, vbBankNext := none }))) ∧
    (∃ m : BitVec 8, exec .tvmapUpdate s = .next (s.setCol (colOf k) { x with tvmap := m }) ∧
      ∀ b < 8, m.getLsbD b = if s.ev.w.testBit (8 + b / 2) then s.ev.w.testBit b else x.tvmap.getLsbD b) ∧
    (s.ev.b = false → c.portBusy = true → x.slotOwner y ≠ layerOf k →
      exec .busBeat s = .next (Spec.dueCol s (colOf k) (y + 1) (evB .busBeat k 0 false))) ∧
    ((s.col k).spares.length < 8 → ∃ t, exec .busWireFailure s = .next t ∧ Spec.keeps s t [] [k] ∧
      t.col k = { s.col k with spares := (s.col k).spares ++ [s.ev.j], fault := true } ∧
      ⟨.die (k / 128), ((s.die (k / 128)).clk / 16 + 1) * 16, evK .busWireRepairStart k⟩ ∈ t.agenda) ∧
    (8 ≤ (s.col k).spares.length → ∃ t, exec .busWireFailure s = .next t ∧ (t.col k).retired = true ∧
      ∀ z < 4, (t.core (coreIn k z)).retired = true) ∧
    (((s.col k).queue = [] → (s.col k).repair = none →
      exec .busWireRepairStart s = .next (Spec.dueCol (s.setCol k { s.col k with
        fault := false, repair := some ((s.die (k / 128)).clk + 31) })
        k ((s.die (k / 128)).clk + 31) (evK .busWireRepairEnd k)))) ∧
    exec .busWireRepairEnd s = .next (s.setCol k { s.col k with repair := none })

namespace Sys2Proof.Spec

open Sys2Proof Sys2Proof.Machine

/-- R190: where run j of a copy starts: its base, and for each level the index that j gives it times the level's stride. -/
def runAt (base : Nat) (cnt : List Nat) (str : List Int) (j : Nat) : Nat :=
  ((base : Int) + ((List.range 5).map fun k =>
    ((j / ((cnt.take k).map (· + 1)).prod % (cnt.getD k 0 + 1) : Nat) : Int) * str.getD k 0).sum).toNat

/-- The bytes of a memory after some were written at a place. -/
def wrote (m m' : Memory) (a : Nat) (bs : List Byte) : Prop :=
  ∀ j, m'.byte j = if a ≤ j ∧ j < a + bs.length then bs.getD (j - a) 0 else m.byte j

end Sys2Proof.Spec

/-- R194, R195, R228 to R230, R241: a beat of a copy stands for one 128-byte block of the destination that a run touches, in
the order of the runs. In a slot of its layer a bus copy reads its beat, a marked bank word as NAL, and the write follows a
cycle later, to its own scratchpad, its target layer's or the bank tile; after its last beat the port is free, and the copy is
complete with its last write. A beat that a failure or repair holds back is a data error of its core. -/
def Sys2Proof.Spec.BusCopiesMoveTheirBeats : Prop :=
  ∀ (s : State) (cp : Copy) (rest : List Copy),
    let k := s.ev.k
    let c := s.core k
    let y := s.clkOf k
    let x := s.col (colOf k)
    let n := cp.next
    let on (t : Nat) (e : Ev) : Due := ⟨.die (dieOf k), t, e⟩
    let again : Due := on (y + 1) (evB .busBeat k 0 false)
    (let d := CopyDesc.ofBits cp.desc
     let src := Spec.runAt d.sbase d.cnt d.sstr cp.run
     let dst := Spec.runAt cp.db d.cnt d.dstr cp.run
     let block := dst / 128 + cp.beat
     128 * block < dst + d.run + 1 →
      n.dst = max dst (128 * block) ∧ n.dst + n.len = min (dst + d.run + 1) (128 * (block + 1)) ∧
      n.src = src + (n.dst - dst) ∧ (n.endRun = true ↔ n.dst + n.len = dst + d.run + 1) ∧
      let run := if n.endRun then cp.run + 1 else cp.run
      cp.step = { cp with
        run := run
        beat := if n.endRun then 0 else cp.beat + 1
        reading := decide (run < (d.cnt.map (· + 1)).prod) }) ∧
    (c.seq.queue = cp :: rest → s.ev.b = false → c.portBusy = true → x.slotOwner y = layerOf k →
      (x.blocked = true → ∃ t, exec .busBeat s = .next t ∧ Spec.keeps s t [] [] ∧
        t.agenda = (s.agenda.filter fun d => !(d.ev == evB .dataError k 0 false)) ++ [on y (evB .dataError k 0 false), again]) ∧
      (x.blocked = false → c.busLoad = none →
        (c.seqStopped y = true ∨ cp.req = none ∨ cp.reading = false →
          exec .busBeat s = .next (s.setCore k { c with portBusy := false, portFrom := y + 1 })) ∧
        (c.seqStopped y = false → cp.req.isSome = true → cp.reading = true → ∃ t bs, exec .busBeat s = .next t ∧
          bs.length = n.len ∧
          (∀ i < n.len, bs.getD i 0 = match cp.kind with
            | .bs tile =>
              if sget false x.bankBad ((16384 * tile + n.src + i) / 8) then 0x80 else x.banks.byte (16384 * tile + n.src + i)
            | _ => c.sp.byte (n.src + i)) ∧
          t.core k = { c with
            seq := { c.seq with queue := { cp.step with flight := cp.flight ++ [(y + 1, n.dst, bs, n.endRun)] } :: rest }
            portBusy := cp.step.reading
            portFrom := if cp.step.reading then c.portFrom else y + 1 } ∧
          t.agenda = s.agenda ++ on (y + 1) (evB .busBeat k 0 true) :: (if cp.step.reading then [again] else []) ∧
          (∀ j, j ≠ k → t.core j = s.core j) ∧ t.columns = s.columns))) ∧
    (∀ (w a : Nat) (bs : List Byte) (e : Bool) (fl : List (Nat × Nat × List Byte × Bool)), c.seq.queue = cp :: rest →
      s.ev.b = true → cp.flight = (w, a, bs, e) :: fl → ∃ t, exec .busBeat s = .next t ∧
      (t.core k).seq.queue = { cp with flight := fl, runsDone := if e then cp.runsDone + 1 else cp.runsDone } :: rest ∧
      t.agenda = s.agenda ++ (if fl = [] ∧ cp.reading = false then [on y (evK .copyComplete k)] else []) ∧
      match cp.kind with
      | .ss z =>
        let q := coreIn (colOf k) z
        Spec.keeps s t [k, q] [] ∧ Spec.wrote (s.core q).sp (t.core q).sp a bs ∧ (q ≠ k → (t.core k).sp = c.sp)
      | .sb tile => Spec.keeps s t [k] [colOf k] ∧ (t.core k).sp = c.sp ∧
        Spec.wrote x.banks (t.col (colOf k)).banks (16384 * tile + a) bs
      | _ => Spec.keeps s t [k] [] ∧ Spec.wrote c.sp (t.core k).sp a bs)

/-- R234 to R238, R241: the events of the bank engine, for the operation at the head of a column's queue: a row of WBZERO or
WBCOPY is written; LUPD takes one 128-byte gradient beat in a slot of the engine, then reads a row and writes its update a
cycle later (a gradient that a failure or repair delays begins again, after one data error of its owner for each failure: the
model's choice, log 19); the end of an operation leaves the queue, replaces the status of the core of a WBCMP or LUPD, lets the
next begin a cycle later, and releases a fence that waited for it alone; and a released fence sends the status. -/
def Sys2Proof.Spec.BankOperationsMoveTheirRows : Prop :=
  ∀ (s : State) (o : BankOp) (rest : List BankOp),
    let col := s.ev.k
    let x := s.col col
    let y := (s.die (col / 128)).clk
    let j := s.ev.j
    x.queue = o :: rest →
    (o.kind = .zero → s.ev.b = true → ∃ t, exec .bankOpStart s = .next t ∧ Spec.keeps s t [] [col] ∧
      (t.col col).queue = x.queue ∧
      ∀ a, (t.col col).banks.byte a =
        if 16384 * o.a + 128 * j ≤ a ∧ a < 16384 * o.a + 128 * j + 128 then 0 else x.banks.byte a) ∧
    (∀ (h : List Byte) (hs : List (List Byte)), o.kind = .copy → s.ev.b = true → o.held = h :: hs → h.length = 128 →
      ∃ t, exec .bankOpStart s = .next t ∧ Spec.keeps s t [] [col] ∧ (t.col col).queue = { o with held := hs } :: rest ∧
      ∀ a, (t.col col).banks.byte a =
        if 16384 * o.b + 128 * j ≤ a ∧ a < 16384 * o.b + 128 * j + 128 then h.getD (a - (16384 * o.b + 128 * j)) 0
        else x.banks.byte a) ∧
    ((o.kind = .zero ∨ o.kind = .copy) → s.ev.b = true → ∃ t, exec .bankOpStart s = .next t ∧
      t.agenda = s.agenda ++ if j = 127 then [⟨.die (col / 128), y, evK .bankOpEnd col⟩] else []) ∧
    (x.slotOwner y ≠ 4 → exec .lupdGradientBeat s = .next (Spec.dueCol s col (y + 1) (evK .lupdGradientBeat col))) ∧
    (x.slotOwner y = 4 → x.blocked = false → ∃ t, exec .lupdGradientBeat s = .next t ∧ Spec.keeps s t [] [col] ∧
      (t.col col).queue = { o with
        late_ := false, beats := o.beats + 1, grad := o.grad.setBytes (128 * o.beats) ((s.core o.core).sp.bytes (o.gbase + 128 * o.beats) 128) } :: rest ∧
      t.agenda = s.agenda ++ [⟨.die (col / 128), y + 1,
        if o.beats = 511 then evB .lupdRowUpdate col 0 false else evK .lupdGradientBeat col⟩]) ∧
    (s.ev.b = false → x.badWords (16384 * o.a + 128 * j) 128 = [] →
      ∃ t, exec .lupdRowUpdate s = .next t ∧ Spec.keeps s t [] [col] ∧
      t.col col = { x with queue := { o with held := o.held ++ [x.readBank (16384 * o.a + 128 * j) 128] } :: rest } ∧
      t.agenda = s.agenda ++ ⟨.die (col / 128), y + 1, ⟨.lupdRowUpdate, col, 0, j, 0, true⟩⟩ ::
        if j < 127 then [⟨.die (col / 128), y + 1, ⟨.lupdRowUpdate, col, 0, j + 1, 0, false⟩⟩] else []) ∧
    (x.slotOwner y = 4 → x.blocked = true → ∃ t, exec .lupdGradientBeat s = .next t ∧ Spec.keeps s t [] [col] ∧
      t.col col = { x with queue := { o with beats := 0, grad := [], late_ := true } :: rest } ∧
      (o.late_ = true → t.agenda = s.agenda ++ [⟨.die (col / 128), y + 1, evK .lupdGradientBeat col⟩]) ∧
      (o.late_ = false → t.agenda = (s.agenda.filter fun d => !(d.ev == evB .dataError o.core 0 (!o.owner))) ++
        [⟨.die (dieOf o.core), s.clkOf o.core, evB .dataError o.core 0 (!o.owner)⟩,
          ⟨.die (col / 128), y + 1, evK .lupdGradientBeat col⟩])) ∧
    (∀ (h : List Byte) (hs : List (List Byte)), s.ev.b = true → o.held = h :: hs →
      ∃ t, exec .lupdRowUpdate s = .next t ∧ Spec.keeps s t [] [col] ∧
      (t.col col).queue = { (o.updateRow j h).1 with held := hs } :: rest ∧
      ∀ a, (t.col col).banks.byte a =
        if 16384 * o.b + 128 * j ≤ a ∧ a < 16384 * o.b + 128 * j + 128 then
          (o.updateRow j h).2.getD (a - (16384 * o.b + 128 * j)) 0
        else x.banks.byte a) ∧
    (s.ev.b = true → ∃ t, exec .lupdRowUpdate s = .next t ∧
      t.agenda = s.agenda ++ if j = 127 then [⟨.die (col / 128), y, evK .bankOpEnd col⟩] else []) ∧
    (∃ t, exec .bankOpEnd s = .next t ∧ Spec.keeps s t [o.core] [col] ∧
      t.col col = { x with queue := rest, engineFree := y + 1 } ∧
      let c := s.core o.core
      t.core o.core = { c with
        bankStatus := if o.kind = .cmp ∨ o.kind = .lupd then o.status else c.bankStatus
        bankOps := c.bankOps - 1
        fenceOps := c.fenceOps - 1
        ckpt := c.ckpt.map fun k => { k with fenceOps := k.fenceOps - 1 } } ∧
      (c.fenceOps = 1 → ⟨.die (dieOf o.core), s.clkOf o.core, evK .wbfenceRelease o.core⟩ ∈ t.agenda) ∧
      (rest ≠ [] → ⟨.die (col / 128), y + 1, evB .bankOpStart col 0 false⟩ ∈ t.agenda)) ∧
    (∀ d : BitVec 6, (s.core s.ev.k).fence = some d →
      exec .wbfenceRelease s = .next (s.setCore s.ev.k { Spec.sending (s.core s.ev.k) 1 (.reg d (s.core s.ev.k).bankStatus) with
        fence := none }))

/-- R234, R235: the row steps of a bank operation. It begins in its own cycle or when the engine is free, and then takes one
row a cycle: WBZERO writes the row at the end of it, WBCOPY reads it and writes it a cycle later, WBCMP reads a row of both
tiles and counts the bytes that differ and the place of the first; an LUPD lets its gradient beats begin twenty cycles later.
-/
def Sys2Proof.Spec.BankOperationsTakeARowACycle : Prop :=
  ∀ (s : State) (o : BankOp) (rest : List BankOp),
    let col := s.ev.k
    let x := s.col col
    let y := (s.die (col / 128)).clk
    let j := s.ev.j
    let row (t n : Nat) (b : Bool) : Due := ⟨.die (col / 128), t, ⟨.bankOpStart, col, 0, n, 0, b⟩⟩
    let next : List Due := if j < 127 then [row (y + 1) (j + 1) false] else []
    let begins : Prop := o.started = none ∧ o.enter ≤ y ∧ x.engineFree ≤ y
    let o' : BankOp := if j = 0 then { o with started := some y } else o
    let a := x.readBank (16384 * o.a + 128 * j) 128
    let b := x.readBank (16384 * o.b + 128 * j) 128
    let goes (q : BankOp) (due : List Due) : Prop := ∃ t, exec .bankOpStart s = .next t ∧ Spec.keeps s t [] [col] ∧
      t.col col = { x with queue := q :: rest } ∧ t.agenda = s.agenda ++ due
    x.queue = o :: rest → s.ev.b = false →
    (j = 0 → ¬ begins → exec .bankOpStart s = .next s) ∧
    (0 < j ∨ begins →
      (o.kind = .zero → goes o' (row y j true :: next)) ∧
      (o.kind = .copy → x.badWords (16384 * o.a + 128 * j) 128 = [] →
        goes { o' with held := o.held ++ [a] } (row (y + 1) j true :: next)) ∧
      (o.kind = .cmp → x.badWords (16384 * o.a + 128 * j) 128 = [] → x.badWords (16384 * o.b + 128 * j) 128 = [] →
        let differ := (List.range 128).filter fun n => decide (a.getD n 0 ≠ b.getD n 0)
        goes { o' with
            count := o.count + differ.length
            first := o.first.orElse fun _ => differ.head?.map fun n => 128 * j + n }
          (if j < 127 then next else [⟨.die (col / 128), y, evK .bankOpEnd col⟩])) ∧
      (o.kind = .lupd → goes o' [⟨.die (col / 128), y + 20, evK .lupdGradientBeat col⟩]))

/-- R237: a row of a log update, element by element: zero and NAL, and an element whose gradient is a NaN, or infinite under κ
of zero, stay, and the latter two set NANSEEN; any other keeps its sign and its magnitude falls by d, the nearest integer to κ
times the gradient with the sign of the code, limited to DMAX, and is held to 1 to 127; those so held are counted, and the
first of them is recorded. -/
def Sys2Proof.Spec.LogUpdatesFollowTheirRule : Prop :=
  ∀ (o : BankOp) (i : Nat) (row : List Byte) (k : ℚ), row.length = 128 → 0 < o.dmax → o.dmax < 128 → 0 ≤ k →
    Spec.real (fp32.decode o.kappa.toNat) = some k →
    let g (j : Nat) : XVal := fp32.decode (o.grad.nat (512 * i + 4 * j) 4)
    let code (j : Nat) : Nat := (row.getD j 0).toNat
    let neg (j : Nat) : Prop := 128 ≤ code j
    let dmax : Int := o.dmax
    let invalid (j : Nat) : Prop := code j % 128 ≠ 0 ∧ (g j = .nan ∨ ((∃ b, g j = .inf b) ∧ k = 0))
    let step (j : Nat) (d : Int) : Prop :=
      (∀ b, g j = .inf b → d = if b = decide (neg j) then dmax else -dmax) ∧
      (∀ x, Spec.real (g j) = some x →
        ∃ n, Spec.nearest (k * x * if neg j then -1 else 1) n ∧ d = max (-dmax) (min dmax n))
    let r := o.updateRow i row
    ∃ held : Nat → Bool,
      (∀ j < 128, (code j % 128 = 0 ∨ invalid j) → r.2.getD j 0 = row.getD j 0 ∧ held j = false) ∧
      (∀ j < 128, code j % 128 ≠ 0 → ¬ invalid j → ∃ d : Int, step j d ∧
        let m : Int := (code j % 128 : Nat) - d
        r.2.getD j 0 = BitVec.ofNat 8 ((if neg j then 128 else 0) + (max 1 (min 127 m)).toNat) ∧
        held j = decide (m < 1 ∨ 127 < m)) ∧
      r.2.length = 128 ∧
      let hs := (List.range 128).filter held
      r.1 = { o with
        nanSeen := r.1.nanSeen
        count := o.count + hs.length
        first := o.first.orElse fun _ => hs.head?.map fun j => 128 * i + j } ∧
      (r.1.nanSeen = true ↔ o.nanSeen = true ∨ ∃ j < 128, invalid j)

/-! ### Traps, checkpoints and data errors (09_core_faults.md) -/

namespace Sys2Proof.Spec

open Sys2Proof Sys2Proof.Machine

/-- U and A of R204: the bytes the undo buffer holds (the statistics words of R209 among them), with the flits taken in the
interval as the model counts them (log 16: 32 bytes a flit, 4 a statistics word), and the rows the pre-image buffer holds. -/
def undoBytes (c : Core) : Nat :=
  c.undo.length + 4 * c.undoStat.length + 32 * (c.taken.filter fun x => decide (x.1 < 8)).length

def rollbackCycles (c : Core) : Nat := 32 + (undoBytes c + 255) / 256 + c.preimg.length

/-- The last checkpoint's state is restored in d (R204, R206, R209, R210): the banked registers, the tile control words, MSTAT,
ICYCLE and the planes' mapping are the checkpoint's, every byte, word and row that the interval held reads as held, and
everything else of the memories as before; the matrix work is gone and the logs and budgets start again. -/
def restored (c d : Core) (k : Ckpt) : Prop :=
  d.bank0 = k.bank ∧ d.tctl = k.tctl ∧ d.pfmt0 = k.pfmt0 ∧ d.pfmt1 = k.pfmt1 ∧ d.act = k.act ∧ d.wp0 = k.wp0 ∧
    d.wp1 = k.wp1 ∧ d.icycle = k.icycle ∧
    (∀ a, d.sp.byte a = ((c.undo.filterMap fun x => if x.1 = a then x.2 else none).getLast?).getD (c.sp.byte a)) ∧
    (∀ a, sget 0 d.stat a = ((c.undoStat.filterMap fun x => if x.1 = a then x.2 else none).getLast?).getD (sget 0 c.stat a)) ∧
    (∀ r, sget 0 d.tiles r = ((c.preimg.filterMap fun x => if x.1 = r then x.2 else none).getLast?).getD (sget 0 c.tiles r)) ∧
    d.undo = [] ∧ d.preimg = [] ∧ d.undoCount = 0 ∧ d.accTiles = [] ∧ d.planeLoads = 0 ∧ d.outPos = 0 ∧ d.barPos = 0 ∧
    d.outLog = c.outLog ∧ d.barLog = c.barLog ∧ d.streams = [] ∧ d.loads = [] ∧ d.tileOps = [] ∧ d.drains = [] ∧
    d.bank1 = c.bank1 ∧ d.bars = c.bars ∧ d.codeMap = c.codeMap ∧ d.imem = c.imem ∧ d.planes = c.planes ∧ d.corr = c.corr ∧
    d.debugPend = c.debugPend

end Sys2Proof.Spec

/-- R201 to R205: at the end of the drain of a trap, outside a rerun, the last checkpoint is restored, and after the cycles
that rollback takes (a flit taken counted as 32 bytes of U and a statistics word as 4, the model's choice, log 16) the handler
is entered; entering it writes CAUSE, TRAP_PC and CKP_PC and starts bank 1 at offset 0 with no dwell, and leaves every other
register. -/
def Sys2Proof.Spec.TrapsRollBackAndEnterTheHandler : Prop :=
  ∀ (s : State) (since : Nat) (t : TrapInfo) (ck : Ckpt),
    let k := s.ev.k
    let c := s.core k
    let y := s.clkOf k
    c.ckpt = some ck →
    (c.run = .drain since (.trap t) → c.rerun = none → ∃ n, exec .rollback s = .next n ∧
      (∀ j, j ≠ k → n.core j = s.core j) ∧ Spec.restored c (n.core k) ck ∧
      (n.core k).run = .rollback (y + Spec.rollbackCycles c) (.trap t) ∧
      ⟨.die (dieOf k), y + Spec.rollbackCycles c - 1, evK .serviceHandlerEntry k⟩ ∈ n.agenda ∧
      n.columns = s.columns ∧ n.dies = s.dies ∧ n.pkgs = s.pkgs) ∧
    (∀ until_, c.run = .rollback until_ (.trap t) →
      exec .serviceHandlerEntry s = .next (s.setCore k { c with
        causeSlot := BitVec.ofNat 3 t.slot, causeCode := BitVec.ofNat 16 t.code, trapPc := t.pc, ckpPc := ck.pc,
        cur := true, pc := 0, dwell := 0, run := .issue }))

/-- R122, R206: bank 0 resumes after RFT with the checkpoint's remaining dwell, its pending entries, and the wait for a barrier
or for a fence that it was in (a barrier's wait is over where the barrier has completed meanwhile), at the offset RFT found in
CKP_PC; that bits [25:2] of it give the offset, and that a waiting fence is resumed, are the model's choice (log 15); bank 1's
registers stay. -/
def Sys2Proof.Spec.BankZeroResumesFromItsCheckpoint : Prop :=
  ∀ (s : State) (pc : PC) (ck : Ckpt),
    let k := s.ev.k
    let c := s.core k
    c.ckpt = some ck → c.run = .rftRun pc →
    let resumed (r : Run) : Core := { c with
      cur := false, pc := BitVec.ofNat 26 (4 * (pc.toNat / 4)), run := r, dwell := ck.dwell, pend := c.pend ++ ck.pend,
      fence := ck.fence, fenceOps := ck.fenceOps }
    ((∀ n, ck.after ≠ .barWait n) → exec .bank0Resume s = .next (s.setCore k (resumed ck.after))) ∧
    (∀ n, ck.after = .barWait n → exec .bank0Resume s = .next (s.setCore k (resumed
      (if (sget Bar.reset c.bars n).arr.getLsbD (layerOf k) = true ∧ n ∉ c.barLog.drop c.barPos then .barWait n
        else .issue))))

/-- R200, R205, R250: a trap in bank 1, and a HALT there, stop the core, leave a record in the die's log, and abort its task:
the task goes back to its queue, held, with the exchange state and the budget of its image, and its cores lose it and what
they had under way, in the cycle of the cause (log 23); the handler fault's record has the slot and cause HANDLER_FAULT, the
offset of the bundle and CKP_PC, the HALT's the registers that the trap wrote. -/
def Sys2Proof.Spec.BankOneFaultsAbortTheTask : Prop :=
  ∀ (s : State) (tag : W) (task : Task),
    let c := s.cur
    let k := s.ictx.core
    let d := s.die (dieOf k)
    c.cur = true → c.task = some tag → d.task tag = some task → d.log.length < 4096 →
    let aborts (o : Out) (r : LogRec) : Prop := ∃ t, o = .next t ∧
      (t.die (dieOf k)).log = d.log ++ [r] ∧
      (t.die (dieOf k)).task tag = some { task with
        place := .queued, held := true, exchange := task.imgExchange, budget := task.imgBudget, preq := false,
        started := false, stopped := none } ∧
      (∀ j ∈ s.taskCores (dieOf k) task, (t.core j).task = none ∧ (t.core j).run = .idle ∧ (t.core j).cur = false ∧
        (t.core j).pend = [] ∧ (t.core j).ckpt = none ∧ (t.core j).sp = (s.core j).sp ∧ (t.core j).bank0 = (s.core j).bank0) ∧
      (k ∉ s.taskCores (dieOf k) task → (t.core k).run = .stopped) ∧
      ∀ j, j ∉ s.taskCores (dieOf k) task → j ≠ k → t.core j = s.core j
    let record (cause tpc cpc : W) (dr : List DrainRec) : LogRec := logRecord 1 tag d.phase (coreId k) cause tpc cpc dr
    (∀ f : FmtTrapi, s.guard f.gn f.g = true → aborts (exec (.trapi f) s)
      (record (BitVec.ofNat 32 (s.ictx.slot * 2 ^ 21 + 7)) (s.ictx.pc.zeroExtend 32) (c.ckpPc.zeroExtend 32) [])) ∧
    (∀ f : FmtG, s.guard f.gn f.g = true → c.bank.loop.act = false → aborts (exec (.halt f) s)
      (record (BitVec.ofNat 32 (c.causeSlot.toNat * 2 ^ 21 + c.causeCode.toNat)) (c.trapPc.zeroExtend 32)
        (c.ckpPc.zeroExtend 32) c.drainRec))

/-- R137, R206, R207: outside a rerun a checkpoint of bank 0, that of a HALT among them, records its registers, tile control
words, MSTAT, ICYCLE, the planes' mapping, the results still on their way, the remaining dwell, the offset that executes next
and (the model's choice, log 15) a WBFENCE that waits, and empties the undo and pre-image buffers, the budgets and both logs;
after that of a HALT the core has halted; every register and memory stays as it is; in the cycle of a data error no checkpoint
commits (R58, R213). -/
def Obligations.CheckpointsRecordBankZero : Prop :=
  ∀ (s : State) (run : Run),
    let k := s.ev.k
    let c := s.core k
    (∀ y, c.run = .drain y .dataError → exec .checkpointCommit s = .next s) ∧
    ((∀ y, c.run ≠ .drain y .dataError) → c.cur = false → c.rerun = none → (∀ d, c.run = .halt d → run = .halt s.ev.b) → ((∀ d, c.run ≠ .halt d) → run = c.run) →
    ∃ (t : State) (ck : Ckpt), exec .checkpointCommit s = .next t ∧
      t = s.setCore k { c with
        run := run, ckpt := some ck, undo := [], undoStat := [], preimg := [], undoCount := 0, accTiles := [], planeLoads := 0,
        outLog := [], outPos := 0, barLog := [], barPos := 0, taken := [], drainRec := [], rerun := none } ∧
      ck.bank = c.bank0 ∧ ck.tctl = c.tctl ∧ ck.pfmt0 = c.pfmt0 ∧ ck.pfmt1 = c.pfmt1 ∧ ck.act = c.act ∧ ck.wp0 = c.wp0 ∧
      ck.wp1 = c.wp1 ∧ ck.icycle = c.icycle ∧ ck.dwell = c.dwell ∧ ck.pc = c.pc ∧ ck.seq = c.seq ∧ ck.after = run ∧
      ck.fence = c.fence ∧ ck.fenceOps = c.fenceOps ∧
      ∀ e, e ∈ ck.pend ↔ e ∈ c.pend ∧ e.owner = false ∧ (∀ m w, e.kind ≠ .mcast m w) ∧ ∀ r w, e.kind ≠ .status r w)

/-- R201, R205, R213: a data error in bank 0 outside a rerun starts a drain for the double rerun, discarding a trap that
drains or rolls back (its handler is then not entered, and bank 0 resumes); one in a run of a rerun keeps its runs from
committing, and one before or between them changes nothing; one in a result of bank 1 retires the core, but one of a transfer
of bank 0 that comes in while bank 1 runs starts the drain at once (log 17's choices: this, that a trap raised before is
discarded, and that an error before or between the runs counts for nothing; log 16's: what the time of a rollback counts
beside R204's bytes and rows). -/
def Sys2Proof.Spec.DataErrorsRunTheIntervalTwice : Prop :=
  ∀ s : State,
    let k := s.ev.k
    let c := s.core k
    let first : Rerun := { cycles := 0, sig := 0, disagree := false, ends := [] }
    c.task.isSome = true → c.ckpt.isSome = true →
    ((c.cur = false ∨ s.ev.b = true) → c.rerun = none → c.run = .issue →
      exec .dataError s = .next (s.setCore k { c with run := .drain (s.clkOf k + 1) .dataError })) ∧
    (∀ since t, c.cur = false → c.rerun = none → c.run = .drain since (.trap t) →
      exec .dataError s = .next (s.setCore k { c with run := .drain since .dataError })) ∧
    (∀ u t, c.cur = false → c.rerun = none → c.run = .rollback u (.trap t) → ∃ n, exec .dataError s = .next n ∧
      n.core k = { c with run := .rollback u .dataError, rerun := some first } ∧ (∀ j, j ≠ k → n.core j = s.core j) ∧
      ⟨.die (dieOf k), u - 1, evK .bank0Resume k⟩ ∈ n.agenda ∧ ∀ e ∈ n.agenda, e.ev ≠ evK .serviceHandlerEntry k) ∧
    (c.cur = false → c.rerun.isSome = true → (∃ u w, c.run = .rollback u w) ∨ (∃ u, c.run = .drain u .rerunB) →
      exec .dataError s = .next s) ∧
    (c.cur = false → c.rerun.isSome = true → (∀ u w, c.run ≠ .rollback u w) → (∀ u, c.run ≠ .drain u .rerunB) →
      exec .dataError s = .next (s.setCore k { c with rerun := c.rerun.map fun r => { r with disagree := true } })) ∧
    (c.cur = true → s.ev.b = false → ∃ t, exec .dataError s = .next t ∧ (t.core k).retired = true ∧ (t.core k).run = .stopped)

/-- R204, R213, R214: the drain of a data error ends in the checkpoint's state, from which bank 0 runs the interval again with
cycles and signature at 0, and so does that of run A's end; a run ends at the checkpoint bundle, or in a trap, with its cycles
and its signature over the words of a run's end, and run B's end brings the comparison; bank 0 resumes from the checkpoint
unless the column's bus is blocked, when it waits (log 17's choices: the drain after run A, the signature begun again at run
B's rollback, the wait; log 16's: the time of a rollback). -/
def Sys2Proof.Spec.RerunsStartAndEnd : Prop :=
  ∀ (s : State) (ck : Ckpt),
    let k := s.ev.k
    let c := s.core k
    let y := s.clkOf k
    let ended (r : Rerun) (e : RunEnd) : Rerun := { r with
      cycles := 0, sig := 0,
      ends := r.ends ++ [(e, r.cycles, (c.endWords (s.col (colOf k)).mcmask).foldl absorb r.sig)] }
    let rolled (why : DrainWhy) (r : Rerun) (e : Due) : Prop := ∃ n, exec .rollback s = .next n ∧
      (∀ j, j ≠ k → n.core j = s.core j) ∧ Spec.restored c (n.core k) ck ∧ (n.core k).rerun = some r ∧
      (n.core k).run = .rollback (y + Spec.rollbackCycles c) why ∧ e ∈ n.agenda
    let resume : Due := ⟨.die (dieOf k), y + Spec.rollbackCycles c - 1, evK .bank0Resume k⟩
    c.ckpt = some ck →
    (∀ since, c.run = .drain since .dataError →
      rolled .dataError { cycles := 0, sig := 0, disagree := false, ends := [] } resume) ∧
    (∀ since r, c.run = .drain since .rerunB → c.rerun = some r → rolled .rerunB { r with cycles := 0, sig := 0 } resume) ∧
    (∀ since t r, c.run = .drain since (.trap t) → c.rerun = some r →
      (r.ends = [] → rolled (.trap t) (ended r (.trap t)) resume) ∧
      (r.ends ≠ [] → rolled (.trap t) (ended r (.trap t)) ⟨.die (dieOf k), y, evK .rerunCompare k⟩)) ∧
    (∀ r, c.cur = false → c.rerun = some r → (∀ u, c.run ≠ .drain u .dataError) →
      (r.ends = [] → exec .checkpointCommit s = .next (s.setCore k { c with
        rerun := some (ended r .commit), run := .drain (if s.ev.w = 1 then y else y + 1) .rerunB })) ∧
      (r.ends ≠ [] → exec .checkpointCommit s = .next
        ((s.setCore k { c with rerun := some (ended r .commit) }).atOnce (evB .rerunCompare k 0 s.ev.b)))) ∧
    (∀ u why, c.run = .rollback u why →
      ((s.col (colOf k)).blocked = true → exec .bank0Resume s = .next (s.scheduleCore k (y + 1) s.ev)) ∧
      ((s.col (colOf k)).blocked = false → (∀ n, ck.after ≠ .barWait n) → exec .bank0Resume s = .next (s.setCore k { c with
        cur := false, pc := BitVec.ofNat 26 (4 * (ck.pc.toNat / 4)), run := ck.after, dwell := ck.dwell, pend := c.pend ++ ck.pend,
        fence := ck.fence, fenceOps := ck.fenceOps })))

/-- R213, R216: two runs that end alike at the checkpoint bundle, with no disagreement, commit the interval; two that end in
the same trap alike take that trap once the roll back is over; two that differ, or that a data error or a disagreement has
marked, retire the core. -/
def Sys2Proof.Spec.RerunsAreCompared : Prop :=
  ∀ (s : State) (r : Rerun),
    let k := s.ev.k
    let c := s.core k
    c.rerun = some r →
    (∀ e : RunEnd × Nat × BitVec 64, r.ends = [e, e] → e.1 = .commit →
      exec .rerunCompare s = .next (if r.disagree then s.retireCore k else s.setCore k (c.commit s.ev.b))) ∧
    (∀ (e : RunEnd × Nat × BitVec 64) t u why, r.ends = [e, e] → e.1 = .trap t → c.run = .rollback u why →
      exec .rerunCompare s = .next ((s.setCore k { c with rerun := none }).scheduleCore k (u - 1) (evK .serviceHandlerEntry k))) ∧
    (∀ a b : RunEnd × Nat × BitVec 64, r.ends = [a, b] → a ≠ b → exec .rerunCompare s = .next (s.retireCore k))

/-- R216, R250, R261, R265: a core that retires is marked and runs no more, leaves a retirement record with its task and cause
DATA_ERR in its die's log and takes its site column out of the grid; without a task every other core and column stays as it
is; with one, that task goes back to its queue, not held, with its image's exchange state and budget, and its cores lose it in
the cycle of the retirement (that cycle is the model's choice, log 23). -/
def Sys2Proof.Spec.RetirementIsReported : Prop :=
  ∀ (s : State) (k : Nat),
    let c := s.core k
    let d := s.die (dieOf k)
    let t := s.retireCore k
    let record (tag : W) : LogRec := logRecord 3 tag d.phase (coreId k) (BitVec.ofNat 32 6) 0 0 []
    (c.task = none →
      t.core k = { c with run := .stopped, retired := true } ∧
      (t.die (dieOf k)).xsite = d.xsite ||| (1#9 <<< (k % 128 / 8)) ∧
      (∀ j, j ≠ k → t.core j = s.core j) ∧ t.columns = s.columns ∧
      (d.log.length < 4096 → (t.die (dieOf k)).log = d.log ++ [record 0])) ∧
    ∀ (tag : W) (task : Task), c.task = some tag → d.task tag = some task → d.log.length < 4096 →
      (t.core k).retired = true ∧ ((t.core k).run = .stopped ∨ (t.core k).run = .idle) ∧
      (t.die (dieOf k)).log = d.log ++ [record tag] ∧
      (t.die (dieOf k)).xsite = d.xsite ||| (1#9 <<< (k % 128 / 8)) ∧
      (t.die (dieOf k)).task tag = some { task with
        place := .queued, held := false, exchange := task.imgExchange, budget := task.imgBudget, preq := false,
        started := false, stopped := none } ∧
      (∀ j ∈ s.taskCores (dieOf k) task, (t.core j).task = none ∧ (t.core j).run = .idle ∧ (t.core j).pend = [] ∧
        (t.core j).ckpt = none ∧ (t.core j).sp = (s.core j).sp ∧ (t.core j).bank0 = (s.core j).bank0) ∧
      ∀ j, j ∉ s.taskCores (dieOf k) task → j ≠ k → t.core j = s.core j

/-- R212: CPLD in bank 1 with a legal page and frame, neither held nor loading, takes the frame out of the map at once,
returns 0 and starts the load; it returns 2 for a page or frame out of range, 3 for a page another frame holds and 1 for a
frame that loads; and a completed load puts the page's bytes into the frame and makes its entry valid. -/
def Obligations.CodePagesLoad : Prop :=
  ∀ s : State,
    let c := s.cur
    (∀ f : FmtDAB, c.cur = true → s.guard f.gn f.g = true →
      let page := (s.rs 0 f.a).toNat
      let frame := (s.rs 1 f.b).toNat
      let size := ((s.taskOf s.ictx.core).map fun t => t.desc.codeSize).getD 0
      let bad := 0x3FFF < page ∨ 59 < frame ∨ size ≤ page * 4096
      let held := ∃ x ∈ c.codeMap, x.1 ≠ frame ∧ x.2.getLsbD 31 = true ∧ x.2.toNat % 16384 = page
      let gives (v : W) : Out := .next (Spec.sent s [(1, .reg f.d v)] [])
      (bad → exec (.cpld f) s = gives 2) ∧ (¬ bad → held → exec (.cpld f) s = gives 3) ∧
      (¬ bad → ¬ held → frame ∈ c.loading → exec (.cpld f) s = gives 1) ∧
      (¬ bad → ¬ held → frame ∉ c.loading → ∃ t clk, exec (.cpld f) s = .next t ∧
        (∀ j, j ≠ s.ictx.core → t.core j = s.core j) ∧
        t.cur = { c with codeMap := sset 0 c.codeMap frame (BitVec.ofNat 32 page), loading := c.loading ++ [frame],
                         pend := c.pend ++ [⟨1, true, true, .reg f.d 0⟩] } ∧
        t.agenda = s.agenda ++ [⟨.die (dieOf s.ictx.core), clk, ⟨.cpldComplete, s.ictx.core, frame, 0, page, false⟩⟩])) ∧
    (∀ t : Task, s.taskOf s.ev.k = some t → ∃ n, exec .cpldComplete s = .next n ∧
      (∀ j, j ≠ s.ev.k → n.core j = s.core j) ∧
      let d := s.core s.ev.k
      n.core s.ev.k = { d with
        imem := d.imem.setBytes (4096 * s.ev.i) (s.codePage (dieOf s.ev.k) t.desc t.table s.ev.w),
        loading := d.loading.filter (· != s.ev.i), codeMap := sset 0 d.codeMap s.ev.i (BitVec.ofNat 32 (2 ^ 31 + s.ev.w)) })

/-! ### Supersteps, the mesh and the fabric (12_die_supersteps.md, 19_fabric.md) -/

namespace Sys2Proof.Spec

open Sys2Proof Sys2Proof.Machine

/-- D(b) of R249: the cycles a superstep with budget b may take on a die. -/
def allowed (d : Die) (b : Nat) : Nat := b * (16 + d.margin.toNat) / 16 + 512

/-- A boundary completes on a die (R243, R247, R259): its cycle is recorded, the counter will take the next value in the next
cycle, a device checkpoint asked for holds the die, and nothing of this shows in the counter yet. -/
def completesBoundary (s : State) (k : Nat) (o : Out) : Prop :=
  let d := s.die k
  ∃ t, o = .next t ∧ (t.die k).boundary = some d.clk ∧ (t.die k).phaseNext = some (d.phase + 1) ∧ (t.die k).phase = d.phase ∧
    (t.die k).holding = d.holdReq ∧ (t.die k).holdReq = false ∧ (t.die k).clk = d.clk ∧
    ⟨.die k, d.clk, evK .phaseCounterAdvance k⟩ ∈ t.agenda

/-- The n flits of a register from flit FL on (R252). -/
def flits (v : VReg) (fl n : Nat) : List (BitVec 256) := (List.range n).map fun i => v.extractLsb' (256 * (fl + i)) 256

/-- A received register on its way (R255): visible two cycles later, its lanes those of the flits. -/
def received (c : Core) (un : Bool) (d : BitVec 6) (fl : Nat) (fs : List (BitVec 256)) (e : Pend) : Prop :=
  ∃ (mask : BitVec 64) (v : VReg), e = ⟨2, c.cur, c.cur, .vload un d mask v⟩ ∧
    (∀ l < 64, mask.getLsbD l = (decide (8 * fl ≤ l) && decide (l < 8 * (fl + fs.length)))) ∧
    ∀ i < fs.length, fl + i < 8 → some (v.extractLsb' (256 * (fl + i)) 256) = fs[i]?

/-- The flits that a send out of a mesh port adds to those that wait there (R253): one a cycle after the departures before. -/
def departures (s : State) (k p : Nat) (fs : List (BitVec 256)) : Nat × List OutFlit :=
  let d := Nat.max (s.clkOf k + 1) (sget 0 (s.core k).outNext p)
  (d, (List.range fs.length).map fun i => ⟨d + i, [fs.getD i 0]⟩)

/-- The flits have been sent out of a mesh port towards a core (R253). -/
def meshSent (s t : State) (k p q : Nat) (fs : List (BitVec 256)) : Prop :=
  let x := departures s k p fs
  sget [] (t.core k).out p = sget [] (s.core k).out p ++ x.2 ∧ sget 0 (t.core k).outNext p = x.1 + fs.length ∧
    sget 0 (t.core q).inflight (facing p) = sget 0 (s.core q).inflight (facing p) + fs.length ∧
    t.agenda = s.agenda ++ (List.range fs.length).map fun i =>
      ⟨.die (dieOf k), x.1 + i, ⟨.meshFlitDepart, k, p, q, 0, false⟩⟩

/-- Nothing but cores of a list differs, what is due apart. -/
def onlyCores (s t : State) (ks : List Nat) : Prop :=
  (∀ j, j ∉ ks → t.core j = s.core j) ∧ t.columns = s.columns ∧ t.dies = s.dies ∧ t.pkgs = s.pkgs ∧ t.msgs = s.msgs

/-- The registers and local memories of a core are as they were. -/
def sameMemories (c d : Core) : Prop :=
  d.bank0 = c.bank0 ∧ d.bank1 = c.bank1 ∧ d.sp = c.sp ∧ d.tiles = c.tiles ∧ d.planes = c.planes ∧ d.imem = c.imem ∧
    d.stat = c.stat ∧ d.tctl = c.tctl ∧ d.bars = c.bars ∧ d.run = c.run ∧ d.pc = c.pc

end Sys2Proof.Spec

/-- R243, R246 to R249, R259: the events of a superstep's end and start. An arrival is recorded; a boundary that completes,
with tasks or with none resident, sets the counter's next value, which the counter takes in the next cycle, when every mesh
FIFO of a resident task is emptied, and each that held flits, those of tasks that left their cores at the boundary first, has
a record MESH_RESIDUE with its core, port and task; a task that starts is marked, finds its entries of moved segments
rewritten (R318; log 34), its cores issue again and hold a checkpoint (of a launched core: log 15), and its deadline falls
D(b) cycles after its start; a task that has not arrived then is stopped at once, and 64 cycles later its stop is complete,
while its record and abort follow at the boundary (the stop in the deadline's own cycle is log 23's choice). -/
def Sys2Proof.Spec.SuperstepsEndAndStart : Prop :=
  ∀ s : State,
    let k := s.ev.k
    let d := s.die k
    let tag : W := BitVec.ofNat 32 s.ev.i
    (∀ b a, (s.core k).run = .phase b a →
      exec .phaseArrival s = .next (s.setCore k { s.core k with run := .phase b true })) ∧
    Spec.completesBoundary s k (exec .boundaryComplete s) ∧
    (d.residents = [] → Spec.completesBoundary s k (exec .emptyBoundary s)) ∧
    (∃ t, exec .phaseCounterAdvance s = .next t ∧ (t.die k).phase = d.phaseNext.getD d.phase ∧ (t.die k).phaseNext = none ∧
      (∀ u ∈ d.residents, ∀ j ∈ s.taskCores k u, ∀ p < 4, (t.core j).fifoOf p = []) ∧
      (t.die k).residue = [] ∧
      (let ks := (d.residents.map (s.taskCores k)).flatten
       let left := d.residue ++ (ks.map fun j => ((List.range 4).filter fun p => (s.core j).fifoOf p ≠ []).map
         fun p => (j, p, (s.core j).task.getD 0)).flatten
       ks.Nodup → d.log.length + left.length ≤ 4096 → (t.die k).log = d.log ++ left.map fun x =>
         logRecord 4 x.2.2 (d.phaseNext.getD d.phase) (coreId x.1 ||| BitVec.ofNat 32 (x.2.1 * 128)) 0 0 0 []) ∧
      ∀ j, Spec.sameMemories (s.core j) (t.core j) ∧ (t.core j).pend = (s.core j).pend) ∧
    (∀ u, d.task tag = some u → u.isResident = true → d.holding = false →
      (u.exchange = true → ∀ m ∈ (s.pkg (k / 2)).moves, u.maps m.old = false) →
      ∃ t, exec .superstepStart s = .next t ∧
        (t.die k).task tag = some { u.rewrite d.rewrites with started := true, start := d.clk + 1 } ∧
        t.agenda = s.agenda ++ [⟨.die k, d.clk + 1 + Spec.allowed d u.budget, evI .stragglerDeadline k s.ev.i⟩] ∧
        (∀ j ∈ s.taskCores k u, ∀ b a, (s.core j).run = .phase b a → (t.core j).run = .issue ∧
          Spec.sameMemories { s.core j with run := .issue } (t.core j)) ∧
        (∀ j ∈ s.taskCores k u, (s.core j).run = .launched → (t.core j).run = .issue ∧ (t.core j).ckpt.isSome = true ∧
          Spec.sameMemories { s.core j with run := .issue } (t.core j)) ∧
        ∀ j, j ∉ s.taskCores k u → t.core j = s.core j) ∧
    (∀ u, d.task tag = some u → u.isResident = true → u.started = true → u.stopped = none → s.taskArrived k u = false →
      ∃ t, exec .stragglerDeadline s = .next t ∧
        (t.die k).task tag = some { u with stopped := some (d.clk + 64) } ∧
        ⟨.die k, d.clk + 64, evI .stragglerStopComplete k s.ev.i⟩ ∈ t.agenda ∧
        (t.die k).log = d.log ∧
        (∀ j ∈ s.taskCores k u, (t.core j).run = .stopped ∧ (t.core j).task = (s.core j).task ∧ (t.core j).pend = [] ∧
          (t.core j).sp = (s.core j).sp) ∧
        ∀ j, j ∉ s.taskCores k u → t.core j = s.core j) ∧
    (∀ u e, d.task tag = some u → u.stopped = some e → ∃ t, exec .stragglerStopComplete s = .next t ∧
      (t.die k).task tag = some { u with stopped := some d.clk } ∧ t.cores = s.cores ∧ t.columns = s.columns ∧
      t.pkgs = s.pkgs)

/-- R253, R255, R256: in an exchange superstep, with a true guard and no interlock, XSEND sends its flits out of a port that
leads to a neighbour, one a cycle, and out of a null port sends none; XRECV takes the oldest flits of its port into a register,
visible two cycles later, counts 32 undo bytes for each, and from a null port takes none; XFWD takes flits and sends the same.
That XRECV from a null port writes no register, and that XFWD from one sends nothing and to one drops what it took, is the
model's choice (log 24). -/
def Sys2Proof.Spec.MeshFormsMoveFlits : Prop :=
  ∀ (s : State), s.compute = false → s.cur.rerun = none → Spec.logsNew s.cur →
    let k := s.ictx.core
    let c := s.cur
    (∀ f : FmtX, s.guard f.gn f.g = true →
      let p := f.port.toNat
      let n := f.nf.toNat + 1
      let fs := Spec.flits (s.rv f.un 0 f.v) f.fl.toNat n
      (∀ q, s.meshPeer k p = some q → s.sendWaits k p n = false → ∃ t, exec (.xsend f) s = .next t ∧
        Spec.onlyCores s t [k, q] ∧ Spec.meshSent s t k p q fs ∧ Spec.sameMemories c t.cur ∧ t.cur.pend = c.pend) ∧
      (s.meshPeer k p = none → ∃ t, exec (.xsend f) s = .next t ∧ Spec.onlyCores s t [k] ∧ t.agenda = s.agenda ∧
        t.cur.out = c.out ∧ Spec.sameMemories c t.cur ∧ t.cur.pend = c.pend)) ∧
    (∀ f : FmtX, s.guard f.gn f.g = true →
      let p := f.port.toNat
      let n := f.nf.toNat + 1
      (∀ q, s.meshPeer k p = some q → s.takeWaits k p n = false → Spec.room c (32 * n) →
        ∃ t e, exec (.xrecv f) s = .next t ∧ Spec.onlyCores s t [k] ∧ t.agenda = s.agenda ∧
          sget [] t.cur.fifo p = (sget [] c.fifo p).drop n ∧ (∀ p', p' ≠ p → sget [] t.cur.fifo p' = sget [] c.fifo p') ∧
          t.cur.pend = c.pend ++ [e] ∧ Spec.received c f.un f.v f.fl.toNat (((sget [] c.fifo p).take n).map (·.data)) e ∧
          t.cur.undoCount = (Spec.counting c (32 * n)).undoCount ∧ Spec.sameMemories c t.cur) ∧
      (s.meshPeer k p = none → exec (.xrecv f) s = .next s)) ∧
    (∀ (f : FmtXFwd) (q r : Nat), s.guard f.gn f.g = true →
      let p := f.port.toNat
      let n := f.nf.toNat + 1
      s.meshPeer k p = some q → s.meshPeer k f.port2.toNat = some r → s.takeWaits k p n = false →
      s.sendWaits k f.port2.toNat n = false → Spec.room c (32 * n) →
      ∃ t, exec (.xfwd f) s = .next t ∧ Spec.onlyCores s t [k, r] ∧
        sget [] t.cur.fifo p = (sget [] c.fifo p).drop n ∧
        Spec.meshSent s t k f.port2.toNat r (((sget [] c.fifo p).take n).map (·.data)) ∧
        Spec.sameMemories c t.cur ∧ t.cur.pend = c.pend) ∧
    (∀ (f : FmtXFwd) (q : Nat), s.guard f.gn f.g = true →
      let p := f.port.toNat
      let n := f.nf.toNat + 1
      s.meshPeer k p = some q → s.meshPeer k f.port2.toNat = none → s.takeWaits k p n = false → Spec.room c (32 * n) →
      ∃ t, exec (.xfwd f) s = .next t ∧ Spec.onlyCores s t [k] ∧ sget [] t.cur.fifo p = (sget [] c.fifo p).drop n ∧
        t.cur.out = c.out ∧ t.agenda = s.agenda ∧ Spec.sameMemories c t.cur ∧ t.cur.pend = c.pend) ∧
    (∀ f : FmtXFwd, s.guard f.gn f.g = true → s.meshPeer k f.port.toNat = none → s.sendWaits k f.port2.toNat 0 = false →
      Spec.room c 0 → ∃ t, exec (.xfwd f) s = .next t ∧ t.agenda = s.agenda ∧ t.columns = s.columns ∧ t.dies = s.dies ∧
        t.pkgs = s.pkgs ∧ ∀ j, Spec.sameMemories (s.core j) (t.core j) ∧ (t.core j).fifo = (s.core j).fifo ∧
          (t.core j).pend = (s.core j).pend ∧ ∀ p, sget [] (t.core j).out p = sget [] (s.core j).out p)

/-- R341, R343, R344: in an exchange superstep, with a true guard and no interlock, FSEND spends a credit for each of its flits
and puts them in its port's queue, by the cycle they were handed over in and then by core; FRECV takes the oldest flits of its
port into a register, visible two cycles later, and their senders' credits return one hop and two cycles later, counted
from the fabric cycle of the step that takes them (log 25); a null port takes and gives nothing. -/
def Sys2Proof.Spec.FabricFormsMoveFlits : Prop :=
  ∀ (s : State) (f : FmtX), s.compute = false → s.cur.rerun = none → Spec.logsNew s.cur → s.guard f.gn f.g = true →
    let k := s.ictx.core
    let c := s.cur
    let p := f.port.toNat
    let n := f.nf.toNat + 1
    let fs := Spec.flits (s.rv f.un 0 f.v) f.fl.toNat n
    let x : LinkFlit := { handed := s.fab + 1, core := k, tag := c.task.getD 0, coord := c.coord, flits := fs }
    (s.nullPort (pkgOf k) p = false → s.fsendWaits k p n = false → ∃ t, exec (.fsend f) s = .next t ∧
      sget 0 t.cur.creditsUsed p = sget 0 c.creditsUsed p + n ∧
      ((t.pkg (pkgOf k)).port p).queue = insertFlit x ((s.pkg (pkgOf k)).port p).queue ∧
      (∃ d ∈ t.agenda, d.ev = evI .fabricFlitDepart (pkgOf k) p) ∧
      (∀ j, j ≠ k → t.core j = s.core j) ∧ t.columns = s.columns ∧ t.dies = s.dies ∧
      Spec.sameMemories c t.cur ∧ t.cur.pend = c.pend) ∧
    (s.nullPort (pkgOf k) p = false → s.frecvWaits k p n = false → ∃ t e, exec (.frecv f) s = .next t ∧
      Spec.onlyCores s t [k] ∧ sget [] t.cur.fifo (8 + p) = (sget [] c.fifo (8 + p)).drop n ∧ t.cur.pend = c.pend ++ [e] ∧
      Spec.received c f.un f.v f.fl.toNat (((sget [] c.fifo (8 + p)).take n).map (·.data)) e ∧
      Spec.sameMemories c t.cur ∧
      ∀ x ∈ (sget [] c.fifo (8 + p)).take n, ∀ q, x.credit = some q →
        ⟨.fabric, s.fab + 129, ⟨.creditReturn, q, oppositePort p, 0, 0, false⟩⟩ ∈ t.agenda) ∧
    (s.nullPort (pkgOf k) p = true → exec (.frecv f) s = .next s ∧ ∃ t, exec (.fsend f) s = .next t ∧
      Spec.onlyCores s t [k] ∧ t.agenda = s.agenda ∧ t.cur.creditsUsed = c.creditsUsed ∧ Spec.sameMemories c t.cur ∧
      t.cur.pend = c.pend)

/-- R253, R338, R339, R341, R343, R344: a mesh flit that departs is written a cycle later behind the flits of its port's FIFO
and can be taken two cycles after that; the head of a fabric port's queue departs in a free data slot and arrives one hop of
128 fabric cycles later behind the flits of the FIFO of the core with its task and coordinates; and a returned credit can be
spent again. -/
def Obligations.FlitEventsHaveTheirEffect : Prop :=
  ∀ s : State,
    let k := s.ev.k
    let i := s.ev.i
    exec .meshFlitDepart s = .next { s with agenda := s.agenda ++
      [⟨.die (dieOf k), s.clkOf k + 1, ⟨.meshFlitArrive, s.ev.j, facing i, k, i, false⟩⟩] } ∧
    (∀ o rest, sget [] (s.core s.ev.j).out s.ev.w = o :: rest → ∃ t, exec .meshFlitArrive s = .next t ∧
      Spec.onlyCores s t [k, s.ev.j] ∧ sget [] (t.core s.ev.j).out s.ev.w = rest ∧
      sget [] (t.core k).fifo i = sget [] (s.core k).fifo i ++ o.data.map (fun d => (⟨d, false, s.clkOf k + 2, none⟩ : Flit)) ∧
      sget 0 (t.core k).inflight i = sget 0 (s.core k).inflight i - 1 ∧ Spec.sameMemories (s.core k) (t.core k)) ∧
    (∀ x rest, ((s.pkg k).port i).queue = x :: rest → s.fab % 16 < 12 → x.handed ≤ s.fab → (s.pkg k).inWindow s.fab = false →
      s.nullPort k i = false → ∃ t, exec .fabricFlitDepart s = .next t ∧ t.cores = s.cores ∧ t.dies = s.dies ∧
      ((t.pkg k).port i).queue = rest ∧
      ((t.pkg k).port i).wire = ((s.pkg k).port i).wire ++ [{ x with handed := s.fab + 128 }] ∧
      ⟨.fabric, s.fab + 128, evI .fabricFlitArrive k i⟩ ∈ t.agenda ∧
      (rest ≠ [] → ∃ d ∈ t.agenda, d.ev = evI .fabricFlitDepart k i)) ∧
    (∀ x rest r, ((s.pkg k).port i).wire = x :: rest → s.nullPort k i = false → s.flitTarget (s.portTo k i) x = some r →
      ((s.pkg (s.portTo k i)).port (oppositePort i)).spoil = false → ∃ t, exec .fabricFlitArrive s = .next t ∧
      (∀ j, j ≠ r → t.core j = s.core j) ∧ ((t.pkg k).port i).wire = rest ∧
      let fs : List Flit := x.flits.map fun d => ⟨d, false, s.fab + 3, some x.core⟩
      t.core r = { s.core r with fifo := smod [] (s.core r).fifo (8 + oppositePort i) fun l => l ++ fs }) ∧
    exec .creditReturn s = .next (s.setCore k { s.core k with
      creditsUsed := sset 0 (s.core k).creditsUsed i (sget 0 (s.core k).creditsUsed i - 1) })

/-- R338, R339, R340, R347: a sound delivery ends a port's count of uncorrectable flits; an uncorrectable one adds to it and
marks the cycle's delivery, the 1,024th in a row brings the link down, and one whose authentication fails is dropped and
counted; a link that goes down is down at both ends, with nothing queued (log 25), and both packages report it to the
sequencer (log 27); a trained link is up at both ends under their next training counts and the key these give (the bytes the
key is made from, package numbers of 2 bytes with the lower first and a training count of 4, are log 6's choice); a message
goes from hop to hop in slots 15 of even frames, one flit each, counted at the port (that a message is one flit is log 21's
choice), and is lost with the flit or the link that carries it; one that arrives first is acknowledged and has its effect in
that cycle, an acknowledged one is gone, and one not yet acknowledged is sent again every 3,200 fabric cycles. -/
def Obligations.LinkAndChannelEventsHaveTheirEffect : Prop :=
  ∀ s : State,
    let k := s.ev.k
    let i := s.ev.i
    let o := s.portTo k i
    let i' := oppositePort i
    (s.ev.b = true → exec .linkFlitDelivery s = .next (s.modPkg k fun p => p.modPort i fun q => { q with bad := 0 })) ∧
    (s.ev.b = false → s.ev.j ≠ 1 → ∃ t, exec .linkFlitDelivery s = .next t ∧ t.cores = s.cores ∧ t.dies = s.dies ∧
      ((t.pkg k).port i).bad = ((s.pkg k).port i).bad + 1 ∧ ((t.pkg k).port i).spoil = true ∧
      t.agenda = s.agenda ++ if 1023 ≤ ((s.pkg k).port i).bad then [⟨.fabric, s.fab, evI .linkDown k i⟩] else []) ∧
    (s.ev.b = false → s.ev.j = 1 → exec .linkFlitDelivery s =
      .next (s.modPkg k fun p => p.modPort i fun q => { q with dropped := q.dropped + 1, unauth := true })) ∧
    (∃ t m n, exec .linkDown s = .next t ∧ t.cores = s.cores ∧ t.dies = s.dies ∧
      ((t.pkg k).port i).up = false ∧ ((t.pkg o).port i').up = false ∧ ((t.pkg k).port i).queue = [] ∧
      ((t.pkg o).port i').queue = [] ∧ t.msgs = s.msgs ++ [m, n] ∧ m.body = .link k i false ∧ m.src = k ∧
      n.body = .link o i' false ∧ n.src = o) ∧
    (∃ t m n, exec .linkTraining s = .next t ∧ t.cores = s.cores ∧ t.dies = s.dies ∧
      ((t.pkg k).port i).up = true ∧ ((t.pkg k).port i).training = ((s.pkg k).port i).training + 1 ∧
      ((t.pkg o).port i').up = true ∧ ((t.pkg o).port i').training = ((s.pkg o).port i').training + 1 ∧
      ((t.pkg k).port i).chanCount = 0 ∧ ((t.pkg k).port i).key = Config.shake256 (Config.podSecret ++
        bytesOfNat 2 (min k o) ++ bytesOfNat 2 (max k o) ++ bytesOfNat 4 (((s.pkg k).port i).training + 1)) ∧
      t.msgs = s.msgs ++ [m, n] ∧ m.body = .link k i true ∧ n.body = .link o i' true) ∧
    (∀ m, s.msg i = some m →
      let src := if s.ev.b then m.dst else m.src
      let path := s.path src (if s.ev.b then m.src else m.dst)
      let node (n : Nat) : Nat := (path.take n).foldl s.portTo src
      let h := s.ev.j
      let q := path.getD h 0
      -- the flit of its last hop has arrived
      let whole : Prop := h = 0 ∨
        (s.nullPort (node (h - 1)) (path.getD (h - 1) 0) = false ∧
          ((s.pkg (s.portTo (node (h - 1)) (path.getD (h - 1) 0))).port (oppositePort (path.getD (h - 1) 0))).spoil = false ∧
          ((s.pkg (s.portTo (node (h - 1)) (path.getD (h - 1) 0))).port (oppositePort (path.getD (h - 1) 0))).unauth = false)
      (¬ whole → exec .channelMessageReceive s = .next s) ∧
      (whole → h < path.length → (h = 0 → (s.pkg src).ready = true) → s.nullPort (node h) q = false →
        ∃ t d, exec .channelMessageReceive s = .next t ∧ t.cores = s.cores ∧ t.dies = s.dies ∧ t.msgs = s.msgs ∧
          d % 32 = 15 ∧ (if h = 0 then s.fab else s.fab + 1) ≤ d ∧ ((s.pkg (node h)).port q).chanNext ≤ d ∧
          (d < (if h = 0 then s.fab else s.fab + 1) + 32 ∨ d < ((s.pkg (node h)).port q).chanNext + 32) ∧
          ((t.pkg (node h)).port q).chanNext = d + 1 ∧
          ((t.pkg (node h)).port q).chanCount = (((s.pkg (node h)).port q).chanCount + 1) % 2 ^ 64 ∧
          t.agenda = s.agenda ++ [⟨.fabric, d + 128, { s.ev with j := h + 1 }⟩]) ∧
      (whole → h = path.length → (s.pkg (node h)).ready = true →
        (s.ev.b = false → ∃ t, exec .channelMessageReceive s = .next t ∧ t.cores = s.cores ∧ t.pkgs = s.pkgs ∧
          t.msg i = some { m with seen := true } ∧
          (∃ d ∈ t.agenda, d.ev = evB .channelMessageReceive m.src m.id true) ∧
          (m.seen = false → ⟨.fabric, s.fab, m.event⟩ ∈ t.agenda)) ∧
        (s.ev.b = true → ∃ t, exec .channelMessageReceive s = .next t ∧ t.msg i = none ∧ t.cores = s.cores ∧
          t.pkgs = s.pkgs ∧ t.agenda = s.agenda))) ∧
    (∀ m, s.msg i = some m → ∃ t, exec .channelRetransmit s = .next t ∧ t.cores = s.cores ∧ t.pkgs = s.pkgs ∧
      t.msgs = s.msgs ∧ (∃ d ∈ t.agenda, d.ev = evB .channelMessageReceive m.dst m.id false) ∧
      ⟨.fabric, s.fab + 3200, s.ev⟩ ∈ t.agenda)

/-! ### Context images and the task controller (09_core_faults.md R217 to R219, 12_die_supersteps.md R258 to R263) -/

namespace Sys2Proof.Spec

open Sys2Proof Sys2Proof.Machine

/-- R217: the words of an image that hold a core, from the word's number and the value: header, registers, control and lanes.
-/
def imageRegisters (c : Core) (mcmask : BitVec 4) (w : Nat → W) : Prop :=
  let b := c.bank0
  (∀ n < 48, w (0x40 + n) = sget 0 b.s n) ∧ (∀ n < 8, w (0x70 + n) = sget 0 b.sk n) ∧
  (∀ n < 6, w (0x78 + n) = sget 0 b.sn n) ∧
  (∀ n < 8, ∀ j < 4, w (0x80 + 4 * n + j) = (sget 0 b.q n).extractLsb' (32 * j) 32) ∧
  (∀ n < 8, ∀ h < 2, w (0xA0 + 2 * n + h) = (if n = 0 then BitVec.allOnes 32 else (sget 0 b.vp0 n).extractLsb' (32 * h) 32) ∧
    w (0xB0 + 2 * n + h) = if n = 0 then BitVec.allOnes 32 else (sget 0 b.vp1 n).extractLsb' (32 * h) 32) ∧
  (∀ n < 8, w (0xC0 + n) = (sget 0 b.b n).zeroExtend 32) ∧
  w 0xC8 = b.loop.trip ∧ w 0xC9 = b.loop.pass ∧ w 0xCA = b.loop.idx ∧ w 0xCB = b.loop.lstat ∧
  w 0xCC = b.loop.body.zeroExtend 32 ∧ w 0xCD = b.loop.lpc.zeroExtend 32 ∧ w 0xCE = b.loop.res ∧ w 0xCF = b.loop.rem ∧
  (∀ n < 8, w (0xD0 + n) = sget 0 b.loop.linc n) ∧
  w 0xD8 = (b.p ||| 1#16).zeroExtend 32 ∧ w 0xD9 = b.round.zeroExtend 32 ∧ w 0xDA = b.srSeed ∧
  w 0xDB = BitVec.ofNat 32 (b.prb.toNat * 16 + b.brb.toNat) ∧ w 0xDC = mcmask.zeroExtend 32 ∧ w 0xDD = c.icycle ∧
  (∀ l < 128, (w (0x100 + l / 4)).extractLsb' (8 * (l % 4)) 8 = (sget 0 b.flags l).zeroExtend 8) ∧
  (∀ l < 128, w (0x120 + l) = sget 0 b.gen l) ∧
  (∀ n < 48, ∀ l < 64, w (0x200 + 64 * n + l) = lane (sget 0 b.v0 n) l ∧ w (0xE00 + 64 * n + l) = lane (sget 0 b.v1 n) l) ∧
  (∀ n < 8, ∀ l < 64, w (0x1A00 + 64 * n + l) = lane (sget 0 b.vk n) l) ∧
  (∀ n < 6, ∀ l < 64, w (0x1C00 + 64 * n + l) = lane (sget 0 b.vn n) l) ∧
  (∀ x ∈ [(b.relS, 0x1DB2), (b.relV0, 0x1DB4), (b.relV1, 0x1DB6)],
    w x.2 = x.1.extractLsb' 0 32 ∧ w (x.2 + 1) = (x.1.extractLsb' 32 16).zeroExtend 32)

/-- R217: the words of an image that hold the core's other parts: barriers, copy registers, planes, statistics and tiles. -/
def imageParts (c : Core) (w : Nat → W) : Prop :=
  (∀ n < 32, let b := sget Bar.reset c.bars n
    (w (0x1D80 + n)).getLsbD 31 = b.gen ∧ (w (0x1D80 + n)).extractLsb' 8 4 = b.arr ∧ (w (0x1D80 + n)).extractLsb' 0 4 = b.part) ∧
  (∀ j < 16, w (0x1DA0 + j) = c.seq.staging.extractLsb' (32 * j) 32) ∧
  w 0x1DB0 = BitVec.ofNat 32 c.seq.ticket ∧ w 0x1DB1 = BitVec.ofNat 32 c.seq.lastDone ∧
  ((w 0x1DB8).getLsbD 0 = c.act ∧ (w 0x1DB8).extractLsb' 4 4 = c.pfmt0 ∧ (w 0x1DB8).extractLsb' 8 4 = c.pfmt1) ∧
  (∀ t < 24, let x := sget TileCtl.reset c.tctl t
    (w (0x1DC0 + t)).extractLsb' 0 8 = x.p ∧ (w (0x1DC0 + t)).getLsbD 8 = x.ovf ∧ (w (0x1DC0 + t)).getLsbD 9 = x.inx ∧
      (w (0x1DC0 + t)).getLsbD 10 = x.nan) ∧
  (∀ i < 128, ∀ j < 128, w (0x2000 + 128 * i + j) = (c.planeRow c.wp0 i).extractLsb' (32 * j) 32 ∧
    w (0x6000 + 128 * i + j) = (c.planeRow c.wp1 i).extractLsb' (32 * j) 32) ∧
  (∀ n < 16384, w (0xA000 + n) = sget 0 c.stat n) ∧
  (∀ r < 3072, ∀ j < 256, w (0x10000 + 256 * r + j) = (sget 0 c.tiles r).extractLsb' (32 * j) 32)

/-- R217, R218: the ranges that an image's header names, each with the place where its bytes begin in the image. -/
def imageRangesAt : List (Nat × Nat) → Nat → List (Nat × Nat × Nat)
  | [], _ => []
  | (a, n) :: r, o => (a, n, o) :: imageRangesAt r (o + n)

/-- The byte of an image at an offset. -/
def imageByte (w : Nat → W) (o : Nat) : Byte := (w (o / 4)).extractLsb' (8 * (o % 4)) 8

end Sys2Proof.Spec

/-- R217 to R219: an image of a core holds bank 0, the barriers, the copy registers, both planes, the statistics, the tiles
and the core's ranges at the places of the layout, under its header, and elsewhere zero. An image is refused for a wrong
header, a reserved field that is set, or ranges out of bounds, misaligned or overlapping (an empty one inside another: log
15). Loading one gives the core all it holds, the rest of the scratchpad as zero, and nothing else. -/
def Sys2Proof.Spec.ImagesHoldAndRestoreTheCore : Prop :=
  (∀ (c : Core) (exchange : Bool) (m : BitVec 4), c.ranges.length ≤ 16 →
    let w := c.imageWord exchange m
    (w 0 = 0x4B574349 ∧ w 1 = 0x00010512 ∧ w 2 = c.pc.zeroExtend 32 ∧ w 3 = (if exchange then 1 else 0) ∧
      w 4 = BitVec.ofNat 32 c.ranges.length ∧ w 5 = BitVec.ofNat 32 (0x340000 + (c.ranges.map (·.2)).sum) ∧
      c.imageLen = 0x340000 + (c.ranges.map (·.2)).sum) ∧
    (∀ k < 16, w (8 + 2 * k) = BitVec.ofNat 32 (c.ranges.getD k (0, 0)).1 ∧
      w (9 + 2 * k) = BitVec.ofNat 32 (c.ranges.getD k (0, 0)).2) ∧
    Spec.imageRegisters c m w ∧ Spec.imageParts c w ∧
    (∀ x ∈ [(6, 8), (40, 64), (0x7E, 0x80), (0xDE, 0x100), (0x1A0, 0x200), (0x1D80 + 57, 0x1D80 + 64), (0x1DD8, 0x2000),
      (0xE000, 0x10000)], ∀ i, x.1 ≤ i → i < x.2 → w i = 0) ∧
    (∀ x ∈ Spec.imageRangesAt c.ranges 0x340000, ∀ i < x.2.1, Spec.imageByte w (x.2.2 + i) = c.sp.byte (x.1 + i))) ∧
  (∀ rd : Nat → W,
    let rs := (List.range (rd 4).toNat).map fun k => ((rd (8 + 2 * k)).toNat, (rd (9 + 2 * k)).toNat)
    (headerOk rd = true ↔ rd 0 = 0x4B574349 ∧ rd 1 = 0x00010512 ∧ (rd 2).toNat < 2 ^ 26 ∧ (rd 3).toNat < 2 ∧ (rd 4).toNat ≤ 16 ∧
      (∀ x ∈ rs, x.1 % 128 = 0 ∧ x.2 % 128 = 0 ∧ x.1 + x.2 ≤ 0x400000) ∧
      rs.Pairwise (fun x y => x.1 + x.2 ≤ y.1 ∨ y.1 + y.2 ≤ x.1) ∧ (rd 5).toNat = 0x340000 + (rs.map (·.2)).sum ∧
      rd 6 = 0 ∧ rd 7 = 0 ∧ ∀ i < 24, rd (40 + i) = 0) ∧
    ∀ c : Core, headerOk rd = true →
      let t := c.loadImage rd
      let c0 : Core := { c with
        bank0 := t.bank0, pc := t.pc, icycle := t.icycle, bars := t.bars, seq := t.seq, act := t.act, pfmt0 := t.pfmt0,
        pfmt1 := t.pfmt1, tctl := t.tctl, wp0 := t.wp0, wp1 := t.wp1, planes := t.planes, stat := t.stat, tiles := t.tiles,
        sp := t.sp, ranges := rs }
      t = c0 ∧ t.seq.queue = [] ∧ t.pc = (rd 2).extractLsb' 0 26 &&& 0x3FFFFFC#26 ∧
      (∃ image : Nat → W, Spec.imageRegisters t ((rd 0xDC).extractLsb' 0 4) image ∧ Spec.imageParts t image ∧
        let same (mask : W) (i : Nat) : Prop := image i &&& mask = rd i &&& mask
        (∀ i, 0x40 ≤ i → i < 0x7E → same 0xFFFFFFFF i) ∧
        (∀ n < 8, ∀ j < 4, same (ringMask.extractLsb' (32 * j) 32) (0x80 + 4 * n + j)) ∧
        (∀ n < 14, same 0xFFFFFFFF (0xA2 + n) ∧ same 0xFFFFFFFF (0xB2 + n)) ∧ (∀ n < 8, same 0x7FFFFF (0xC0 + n)) ∧
        (∀ i ∈ [0xC8, 0xC9, 0xCA, 0xCE, 0xCF, 0xDA, 0xDD], same 0xFFFFFFFF i) ∧ (∀ i ∈ [0xCC, 0xCD], same 0x3FFFFFF i) ∧
        (∀ n < 8, same 0xFF003FFF (0xD0 + n)) ∧ same 0xFFFE 0xD8 ∧ same 7 0xD9 ∧ same 0x77 0xDB ∧
        (∀ n < 32, same 0x1F1F1F1F (0x100 + n)) ∧ (∀ i, 0x120 ≤ i → i < 0x1A0 → same 0xFFFFFFFF i) ∧
        (∀ i, 0x200 ≤ i → i < 0x1D80 → same 0xFFFFFFFF i) ∧ (∀ n < 32, same 0x80000F0F (0x1D80 + n)) ∧
        (∀ n < 16, same 0xFFFFFFFF (0x1DA0 + n)) ∧ same 0xFFFFFF 0x1DB0 ∧ same 0xFFFFFF 0x1DB1 ∧
        (∀ i ∈ [0x1DB2, 0x1DB4, 0x1DB6], same 0xFFFFFFFF i ∧ same 0xFFFF (i + 1)) ∧ same 0xFF1 0x1DB8 ∧
        (∀ n < 24, same 0x7FF (0x1DC0 + n)) ∧ (∀ i, 0x2000 ≤ i → i < 0xE000 → same 0xFFFFFFFF i) ∧
        ∀ i, 0x10000 ≤ i → i < 0xD0000 → same 0xFFFFFFFF i) ∧
      t.bank0.loop.pass32 = (rd 0xCB).getLsbD 14 ∧ t.bank0.loop.act = (rd 0xCB).getLsbD 13 ∧
      t.bank0.loop.div = (rd 0xCB).getLsbD 12 ∧ t.bank0.loop.drn = (rd 0xCB).getLsbD 11 ∧
      t.bank0.loop.nst = (rd 0xCB).extractLsb' 8 3 ∧ t.bank0.loop.len = (rd 0xCB).extractLsb' 0 8 ∧
      (∀ x ∈ Spec.imageRangesAt rs 0x340000, ∀ i < x.2.1, t.sp.byte (x.1 + i) = Spec.imageByte rd (x.2.2 + i)) ∧
      ∀ a, (∀ x ∈ rs, ¬ (x.1 ≤ a ∧ a < x.1 + x.2)) → t.sp.byte a = 0)

namespace Sys2Proof.Spec

open Sys2Proof Sys2Proof.Machine

/-- R246: the budget that the cores of a task have declared for its next superstep. -/
def declared (s : State) (ks : List Nat) : Nat :=
  (ks.map fun k => match (s.core k).run with
    | .phase b _ => b
    | _ => 0).foldl max 0

/-- R261: the site columns of a die that are not excluded. -/
def sites (d : Die) : List Nat := (List.range 9).filter fun px => d.xsite.getLsbD px = false

/-- R262: a gang lies at an origin of the logical grid on columns that no resident task holds, but for some tasks. -/
def gangFits (d : Die) (t : TaskDesc) (but : List W) (x0 y0 : Nat) : Prop :=
  x0 + t.nx ≤ min 8 (sites d).length ∧ y0 + t.ny ≤ 8 ∧ ∀ x < t.nx, ∀ y < t.ny, ∀ u ∈ d.tasks, ∀ l, u.place = .resident l →
    u.desc.tag ∉ but → (sites d).getD (x0 + x) 0 * 8 + (y0 + y) ∉ l

/-- The memories of a package after a die has written the images of a task's cores in its far space. -/
def imagesWritten (s : State) (die : Nat) (t : Task) (ks : List Nat) (table : SMap DW) (exchange : Bool) : State :=
  ((List.range ks.length).zip ks).foldl (fun s' x =>
    let c := (s.passDrains die).settled x.2
    s'.writeFar (die / 2) (imageTable table) (die % 2) (t.desc.imgBase + x.1 * t.desc.imgStride) c.imageLen
      (imageByte (c.imageWord exchange (s.col (colOf x.2)).mcmask))) s

/-- R75, R219, R220, R262, R263: a core launched as core i of a task: what it holds under its image, or fresh. -/
def launched (s : State) (die : Nat) (t : Task) (i : Nat) (c : Core) : Prop :=
  let d := t.desc
  let (x, y) := (i / 4 % d.nx, i / 4 / d.nx)
  let stage := d.stages.getD (8 * y + x) 0
  c.task = some d.tag ∧ c.run = .launched ∧ c.bank1 = Bank.reset ∧ c.stage = BitVec.ofNat 16 stage ∧
    c.coord = BitVec.ofNat 32 (d.ldie * 2 ^ 16 + x * 2 ^ 5 + y * 2 ^ 2 + i % 4) ∧
    (t.imaged = false → d.img = false →
      let p := (s.pkg (die / 2)).program d.tag stage
      c.bank0 = Bank.reset.reseed d.seed ∧ c.ranges = [(0, 0x400000)] ∧ (stage = 0 → c.pc = 0) ∧
        (∀ n < 32, sget Bar.reset c.bars n = ⟨false, 0, 0xF⟩) ∧
        ∀ q, p = some q → (stage ≠ 0 → c.pc = q.entry) ∧
          ∀ a, c.sp.byte a = if a < 0x400000 then q.data.getD a 0 else 0) ∧
    (t.imaged = true ∨ d.img = true → ∃ rd : Nat → W,
      (∀ n v, s.readFarWord (die / 2) (imageTable t.table) (die % 2) (d.imgBase + i * d.imgStride + 4 * n) = some v → rd n = v) ∧
      let l := c.loadImage rd
      c.bank0 = l.bank0 ∧ c.pc = l.pc ∧ c.icycle = l.icycle ∧ c.bars = l.bars ∧ c.seq = l.seq ∧ c.act = l.act ∧
        c.pfmt0 = l.pfmt0 ∧ c.pfmt1 = l.pfmt1 ∧ c.tctl = l.tctl ∧ c.wp0 = l.wp0 ∧ c.wp1 = l.wp1 ∧ c.planes = l.planes ∧
        c.stat = l.stat ∧ c.tiles = l.tiles ∧ c.sp = l.sp ∧ c.ranges = l.ranges)

end Sys2Proof.Spec

/-- R217, R219, R258 to R262: the task controller at a boundary. A task whose cores have all halted retires, its cores are
free and its completion record is written; at a device checkpoint any other is imaged, its slice is charged, and one
pre-empted or whose slice cannot hold its next superstep goes back to its queue. A queued task is ready when its predecessors
have retired, its inputs are in HBM, it is not held and its queue has a slice; of its kind it is placed at the lowest free
origin, by y and then x, its cores are launched from their images or fresh, and its superstep starts 16 cycles later at the
earliest. -/
def Sys2Proof.Spec.BoundariesRetireImageAndPlace : Prop :=
  (∀ (s : State) (u : Task),
    let k := s.ev.k
    let d := s.die k
    let tag := u.desc.tag
    let ks := s.taskCores k u
    d.tasks = [u] → u.isResident = true → u.stopped = none → u.desc.nx ≤ min 8 (Spec.sites d).length →
    ((∀ j ∈ ks, (s.core j).run = .halt true) → ∃ t, exec .boundaryComplete s = .next t ∧ (t.die k).tasks = [] ∧
      (t.die k).retiredTags = d.retiredTags ++ [tag] ∧ (∃ v ∈ (t.die k).gone, v.desc = u.desc) ∧
      (∀ j ∈ ks, (t.core j).task = none ∧ (t.core j).run = .idle) ∧
      Spec.wrote (s.pkg (k / 2)).host (t.pkg (k / 2)).host u.desc.compl
        (bytesOfNat 4 tag.toNat ++ bytesOfNat 4 1 ++ bytesOfNat 4 (d.phase.toNat % 2 ^ 32) ++ bytesOfNat 4 (d.phase.toNat / 2 ^ 32))) ∧
    (¬ (∀ j ∈ ks, (s.core j).run = .halt true) → d.holdReq = true →
      let v := Spec.declared s ks
      let rs : Int := u.rs - ((d.clk : Int) - u.start)
      let leaves : Bool := u.preq || decide (rs < (Spec.allowed d v : Int))
      let exchange := !d.phase.getLsbD 0
      let table := rewriteTable d.rewrites u.table
      ∃ t idle ready, exec .boundaryComplete s = .next t ∧ (leaves = false → d.clk + 16 ≤ ready) ∧
        (t.die k).tasks = [{ u with
          rs := rs, steps := u.steps + 1, sinceImage := 0, budget := v, imgBudget := v, exchange := exchange, imgExchange := exchange,
          imaged := true, cols := (s.taskCols k u).map s.saveColumn, started := false, preq := false, idle := idle, table := table,
          place := if leaves then .queued else u.place, ready := ready }] ∧
        (leaves = true → ∀ j ∈ ks, (t.core j).task = none) ∧
        let w := Spec.imagesWritten s k u ks table exchange
        ∀ p, (t.pkg p).hbm = (w.pkg p).hbm ∧ (t.pkg p).tier = (w.pkg p).tier)) ∧
  (∀ (s : State) (u : Task) (x0 y0 : Nat),
    let k := s.ev.k
    let d := s.die k
    d.tasks = [u] → d.holdReq = false → d.rewrites = [] → u.queue < 16 → s.taskReady k u = true → u.exchange = !d.phase.getLsbD 0 →
    d.placeFor u.desc [] = some (x0, y0) →
    let columns := ((List.range u.desc.ny).map fun y => (List.range u.desc.nx).map fun x =>
      (Spec.sites d).getD (x0 + x) 0 * 8 + (y0 + y)).flatten
    ∃ t ready, exec .emptyBoundary s = .next t ∧ d.clk + 16 ≤ ready ∧
      (t.die k).tasks = [{ u with
        place := .resident columns, placed := d.placeSeq, rs := ((sget 0 d.qslice u.queue).toNat : Int), steps := 0, sinceImage := 0,
        started := false, stopped := none, ready := ready }] ∧
      ⟨.die k, ready - 1, evI .superstepStart k u.desc.tag.toNat⟩ ∈ t.agenda ∧
      ∀ g < columns.length, ∀ z < 4,
        Spec.launched s k u (4 * g + z) (t.core (coreIn (128 * k + columns.getD g 0) z))) ∧
  (∀ (d : Die) (t : TaskDesc) (but : List W) (x0 y0 : Nat),
    d.placeFor t but = some (x0, y0) ↔ x0 < 8 ∧ y0 < 8 ∧ Spec.gangFits d t but x0 y0 ∧
      ∀ x < 8, ∀ y < 8, Spec.gangFits d t but x y → 8 * y0 + x0 ≤ 8 * y + x) ∧
  (∀ (s : State) (k : Nat) (u : Task),
    let d := s.die k
    s.taskReady k u = true ↔ u.place = .queued ∧ u.held = false ∧ sget 0 d.qslice u.queue ≠ 0 ∧ (s.pkg (k / 2)).recov = false ∧
      (∀ p ∈ u.desc.preds, p = 0 ∨ ∃ h < 2, p ∈ (s.die (k / 2 * 2 + h)).retiredTags) ∧
      ∀ g ∈ u.desc.segs, g.input = true → entTier (sget 0 u.table g.index) = false)

/-! ### Far memory (13_die_memory.md, 16_package_memory.md) -/

namespace Sys2Proof.Spec

open Sys2Proof Sys2Proof.Machine

/-- The n words of a descriptor at an address of the scratchpad. -/
def words (s : State) (a n : Nat) : List W := (List.range n).map fun i => BitVec.ofNat 32 (s.cur.sp.nat (a + 4 * i) 4)

/-- What every far form needs (R244, R268, R270): an exchange superstep, a true guard, its descriptor of n words in place and
aligned, and a free entry. -/
def farReady (s : State) (gn : Bool) (g : BitVec 4) (a n al : Nat) : Prop :=
  s.compute = false ∧ s.guard gn g = true ∧ s.cur.farHeld < 768 ∧ a % al = 0 ∧ a + 4 * n ≤ 0x400000

/-- R266 to R268: a range of the executing task is mapped, lies within its segment and has the permissions. -/
def mapped (s : State) (va len : Nat) (pr pw pa : Bool) : Prop :=
  let e := sget 0 s.myTable (va / 2 ^ 30)
  e.getLsbD 63 = true ∧ va % 2 ^ 30 + len ≤ 2 ^ (21 + (e.extractLsb' 54 4).toNat) ∧ (pr = true → e.getLsbD 60 = true) ∧
    (pw = true → e.getLsbD 59 = true) ∧ (pa = true → e.getLsbD 58 = true)

/-- The index of STATUS in the descriptor of each form. -/
def statusIndex : FarKind → Nat
  | .tload => 12 | .tstore => 12 | .tloadz => 9
  | .gacq => 3 | .grel => 3
  | .fadd => 8 | .fcas => 8 | .fswap => 8
  | .nmsadd => 9 | .nmsgd => 9 | .nmzero => 9 | .nmcopy => 9 | .nmcmp => 9 | .nmfence => 0
  | .bkalloc => 8 | .bkxlat => 8 | .bkshare => 8 | .bkfree => 8 | .bkload => 8 | .bkstore => 8
  | .coll => 8 | .ccancel => 2

/-- R270, R271, R280: the form is accepted.  One entry more is held, sent or held back; PENDING goes to its status word two
issue cycles later, after other results `l`, and sD = 1 one cycle later; nothing else of the cores, columns and packages
changes but the outbound log, and DIRTY is set for the segments of `dirty` (R269). -/
def accepted (s t : State) (kind : FarKind) (d : BitVec 6) (a n : Nat) (l : List PendKind) (dirty : List Nat) : Prop :=
  let c := s.cur
  let m := t.cur
  m.pend = c.pend ++ (l.map fun x => Pend.mk 1 c.cur c.cur x) ++
      [⟨2, c.cur, c.cur, .status c.nextId (placed (a + 4 * statusIndex kind) [0, 0, 0, 0])⟩, ⟨1, c.cur, c.cur, .reg d 1⟩] ∧
    m.nextId = c.nextId + 1 ∧ m.far.length = c.far.length + 1 ∧
    (∃ r ∈ m.far, r.id = c.nextId ∧ r.kind = kind ∧ r.desc = a ∧ r.words = words s a n ∧ r.tag = c.task.getD 0 ∧ r.code = 0 ∧
      r.orphan = false ∧ r.issued = s.clkOf s.ictx.core ∧ r.stage = if mustHold c.far kind then .held else .sent) ∧
    (∀ q ∈ c.far, q.id ≠ c.nextId → q ∈ m.far) ∧ sameMemories c m ∧
    (∀ j, j ≠ s.ictx.core → t.core j = s.core j) ∧ t.columns = s.columns ∧ t.pkgs = s.pkgs ∧
    ∀ j, t.die j = (s.markDirty s.ictx.core dirty).die j

/-- R277: what the guard forms' descriptor must be. -/
def guardOk (w : List W) (sub : Nat) : Prop :=
  (w.getD 0 0).toNat % 64 = 0 ∧ (w.getD 1 0).toNat < 2 ^ 10 ∧ (w.getD 2 0).toNat < 2 ∧ w.getD 6 0 = 0 ∧ w.getD 7 0 = 0 ∧
    (sub = 1 → w.getD 2 0 = 1) ∧ (sub = 2 → w.getD 2 0 = 0)

/-- The far address in two words. -/
def far (lo hi : W) : Nat := lo.toNat + hi.toNat * 2 ^ 32

def acquires : List ((FmtDA → Instr) × Nat) := [(.gacq, 0), (.gacqX, 1), (.gacqS, 2)]
def releases : List ((FmtDAB → Instr) × Nat) := [(.grel, 0), (.grelX, 1), (.grelS, 2)]
def farAtomics : List ((FmtDA → Instr) × FarKind) := [(.fadd, .fadd), (.fcas, .fcas), (.fswap, .fswap)]
def nearForms : List ((FmtDA → Instr) × FarKind) :=
  [(.nmsadd, .nmsadd), (.nmsgd, .nmsgd), (.nmzero, .nmzero), (.nmcopy, .nmcopy), (.nmcmp, .nmcmp)]
def blockForms : List ((FmtDA → Instr) × FarKind) :=
  [(.bkalloc, .bkalloc), (.bkxlat, .bkxlat), (.bkshare, .bkshare), (.bkfree, .bkfree), (.bkload, .bkload),
   (.bkstore, .bkstore)]
def collForms : List ((FmtDA → Instr) × CollKind) := [(.collAr, .ar), (.collRs, .rs), (.collAg, .ag), (.collBc, .bc)]

/-- The forms whose descriptor is named by A, with the words of it and its alignment (R268). -/
def farForms : List ((FmtDA → Instr) × Nat × Nat) :=
  [(.tload, 16, 64), (.tstore, 16, 64), (.tloadz, 16, 64), (.nmfence, 4, 16), (.ccancel, 4, 16)] ++
    (acquires.map fun x => (x.1, 8, 32)) ++ (farAtomics.map fun x => (x.1, 12, 16)) ++
    (nearForms.map fun x => (x.1, 16, 64)) ++ (blockForms.map fun x => (x.1, 16, 64)) ++ collForms.map fun x => (x.1, 16, 64)

/-- Every range of a form is mapped as it needs. -/
def allMapped (s : State) (rs : List Range) : Prop := ∀ r ∈ rs, mapped s r.va r.len r.pr r.pw r.pa

/-- Steps 5 to 7 of R268: the causes of ranges whose entry is invalid, that leave their segment, or without a permission. -/
def segmentTraps (s : State) (rs : List Range) (traps : Nat → Prop) : Prop :=
  let valid (r : Range) : Prop := (sget 0 s.myTable (r.va / 2 ^ 30)).getLsbD 63 = true
  let inside (r : Range) : Prop := r.va % 2 ^ 30 + r.len ≤ 2 ^ (21 + ((sget 0 s.myTable (r.va / 2 ^ 30)).extractLsb' 54 4).toNat)
  ((∃ r ∈ rs, ¬ valid r) → traps 0x0041) ∧
    ((∀ r ∈ rs, valid r) → (∃ r ∈ rs, ¬ inside r) → traps 0x0042) ∧
    ((∀ r ∈ rs, valid r ∧ inside r) → ¬ allMapped s rs → traps 0x0043)

/-- A form that no entry was free for (R270): sD = 0, and no core, column, die or package changes otherwise, but for the
outbound log. -/
def refused (s : State) (d : BitVec 6) (o : Out) : Prop :=
  ∃ t, o = .next t ∧ t.cur.pend = s.cur.pend ++ [⟨1, s.cur.cur, s.cur.cur, .reg d 0⟩] ∧ t.cur.far = s.cur.far ∧
    sameMemories s.cur t.cur ∧ (∀ j, j ≠ s.ictx.core → t.core j = s.core j) ∧ t.columns = s.columns ∧ t.dies = s.dies ∧
    t.pkgs = s.pkgs ∧ t.agenda = s.agenda

end Sys2Proof.Spec

/-- R244, R266 to R273, R277, R281, R284: a tile load or store, a guard form or a far atomic whose descriptor its map allows
and whose ranges are mapped with the permissions they need is accepted; a load into a ring takes the tail slot, and a store or
an atomic marks its segment dirty. -/
def Sys2Proof.Spec.TileGuardAndAtomicFormsAreAccepted : Prop :=
  ∀ (s : State) (f : FmtDA) (h : FmtDAB),
    let a := (s.rs 0 f.a).toNat
    let d := TileDesc.ofWords (Spec.words s a 16)
    let r := s.ringTail d.dq
    let e := sget 0 s.myTable (d.faddr / 2 ^ 30)
    let loc := if d.dring then d.spoff + r.slotAt r.tail else d.spoff
    (Spec.farReady s f.gn f.g a 16 64 → (d.dring = true → r.ok = true ∧ r.full = false) → d.bad false r.slotsz loc (entKey e) = false →
      (d.rows ≠ 0 → Spec.mapped s d.faddr d.span true false false) →
      ∃ t, exec (.tload f) s = .next t ∧
        Spec.accepted s t .tload f.d a 16 (if d.dring then [Spec.tailMoved d.dq.toNat r] else []) []) ∧
    (Spec.farReady s f.gn f.g a 16 64 → Spec.logsNew s.cur → d.bad true r.slotsz d.spoff (entKey e) = false →
      (d.rows ≠ 0 → Spec.mapped s d.faddr d.span false true false) →
      (d.guard ≠ 0 → Spec.mapped s d.guard 64 false false true) → (d.rows ≠ 0 → entDup e = true → d.guard ≠ 0) →
      ∃ t, exec (.tstore f) s = .next t ∧
        Spec.accepted s t .tstore f.d a 16 [] (if d.rows ≠ 0 then [d.faddr] else [])) ∧
    (∀ x ∈ Spec.acquires, Spec.farReady s f.gn f.g a 8 32 → Spec.logsNew s.cur →
      let w := Spec.words s a 8
      Spec.guardOk w x.2 → Spec.mapped s (Spec.far (w.getD 0 0) (w.getD 1 0)) 64 false false true →
      ∃ t, exec (x.1 f) s = .next t ∧ Spec.accepted s t .gacq f.d a 8 [] []) ∧
    (∀ x ∈ Spec.releases,
      let a := (s.rs 0 h.a).toNat
      Spec.farReady s h.gn h.g a 8 32 → Spec.logsNew s.cur →
      let w := Spec.words s a 8
      Spec.guardOk w x.2 → Spec.mapped s (Spec.far (w.getD 0 0) (w.getD 1 0)) 64 false false true →
      ∃ t, exec (x.1 h) s = .next t ∧ Spec.accepted s t .grel h.d a 8 [] [] ∧
        ∃ q ∈ t.cur.far, q.id = s.cur.nextId ∧ q.opnd = s.rs 1 h.b) ∧
    (∀ x ∈ Spec.farAtomics, Spec.farReady s f.gn f.g a 12 16 → Spec.logsNew s.cur →
      let w := Spec.words s a 12
      let va := Spec.far (w.getD 0 0) (w.getD 1 0)
      (w.getD 1 0).toNat < 2 ^ 10 → va % 8 = 0 → w.getD 9 0 = 0 → w.getD 10 0 = 0 → w.getD 11 0 = 0 →
      Spec.mapped s va 8 true true true → entDup (sget 0 s.myTable (va / 2 ^ 30)) = false →
      ∃ t, exec (x.1 f) s = .next t ∧ Spec.accepted s t x.2 f.d a 12 [] [va])

/-- R300 to R302, R306, R308, R309, R315: the near-memory commands, the fence, the block forms and TLOADZ are accepted in the
same way, with the placement their rules ask for; the fence waits for the commands of its core that are held. -/
def Sys2Proof.Spec.PackageMemoryFormsAreAccepted : Prop :=
  ∀ (s : State) (f : FmtDA),
    let a := (s.rs 0 f.a).toNat
    (∀ x ∈ Spec.nearForms, Spec.farReady s f.gn f.g a 16 64 → Spec.logsNew s.cur →
      let d := NmDesc.ofWords (Spec.words s a 16)
      d.bad x.2 = false → (∀ r ∈ d.ranges x.2, Spec.mapped s r.va r.len r.pr r.pw r.pa) → d.misplaced x.2 s.myTable = false →
      ∃ t, exec (x.1 f) s = .next t ∧ Spec.accepted s t x.2 f.d a 16 [] (if x.2 = .nmcmp then [] else [d.dst])) ∧
    (Spec.farReady s f.gn f.g a 4 16 → Spec.logsNew s.cur →
      ∃ t, exec (.nmfence f) s = .next t ∧ Spec.accepted s t .nmfence f.d a 4 [] [] ∧
        ∃ q ∈ t.cur.far, q.id = s.cur.nextId ∧ q.waits = (s.cur.far.filter fun r => !r.orphan && r.kind.isNm).map (·.id) ∧
          q.ncmd = q.waits.length) ∧
    (∀ x ∈ Spec.blockForms, ∀ u : Task, Spec.farReady s f.gn f.g a 16 64 → Spec.logsNew s.cur →
      let d := BkDesc.ofWords (Spec.words s a 16)
      let r := s.ringTail d.dq
      let loc := if d.dring then d.spoff + r.slotAt r.tail else d.spoff
      (d.dring = true → x.2 = .bkload → r.ok = true ∧ r.full = false) → d.bad x.2 (Spec.words s a 16) r.slotsz loc = false →
      s.taskOf s.ictx.core = some u → u.desc.bk = true →
      ∃ t, exec (x.1 f) s = .next t ∧
        Spec.accepted s t x.2 f.d a 16 (if d.dring then [Spec.tailMoved d.dq.toNat r] else []) []) ∧
    (Spec.farReady s f.gn f.g a 16 64 →
      let d := SloeDesc.ofWords (Spec.words s a 16)
      let r := s.ringTail d.dq
      let loc := if d.dring then r.slotAt r.tail + d.spoff else d.spoff
      let bw := if d.dring then r.bwAt r.tail + 2 * (d.spoff / 8) else d.bwoff
      (d.dring = true → r.ok = true ∧ r.full = false) → d.bad r loc bw = false →
      Spec.mapped s (d.dir + 8 * d.tile) 8 true false false → Spec.mapped s d.data 1 true false false →
      ∃ t, exec (.tloadz f) s = .next t ∧
        Spec.accepted s t .tloadz f.d a 16 (if d.dring then [Spec.tailMoved d.dq.toNat r] else []) [])

/-- R268, R270, R272, R283: with 768 entries held a tile load answers sD = 0 and does nothing else; FSTAT gives
the entries held; and a tile load's descriptor out of place, with a field its map forbids, or with a range not mapped, not
within its segment or without its permission raises the cause of that check, in this order, and does nothing else. -/
def Sys2Proof.Spec.TileLoadsRefuseAndTrap : Prop :=
  ∀ (s : State) (f : FmtDA) (g : FmtD),
    let c := s.cur
    let a := (s.rs 0 f.a).toNat
    let d := TileDesc.ofWords (Spec.words s a 16)
    let e := sget 0 s.myTable (d.faddr / 2 ^ 30)
    let traps (o : Out) (code : Nat) : Prop := c.cur = false → o = .next (Spec.trapped s code)
    let placed := a % 64 = 0 ∧ a + 64 ≤ 0x400000
    let r := s.ringTail d.dq
    let free := d.dring = true → r.ok = true ∧ r.full = false
    let loc := if d.dring then d.spoff + r.slotAt r.tail else d.spoff
    (s.guard g.gn g.g = true → exec (.fstat g) s = .next (Spec.sent s [(1, .reg g.d (BitVec.ofNat 32 c.farHeld))] [])) ∧
    (s.compute = false → s.guard f.gn f.g = true →
      (a % 64 ≠ 0 → traps (exec (.tload f) s) 0x0016) ∧
      (a % 64 = 0 → 0x400000 < a + 64 → traps (exec (.tload f) s) 0x0015) ∧
      (placed → free → d.bad false r.slotsz loc (entKey e) = true → traps (exec (.tload f) s) 0x0040) ∧
      (placed → free → d.bad false r.slotsz loc (entKey e) = false → d.rows ≠ 0 →
        (e.getLsbD 63 = false → traps (exec (.tload f) s) 0x0041) ∧
        (e.getLsbD 63 = true → 2 ^ (21 + (e.extractLsb' 54 4).toNat) < d.faddr % 2 ^ 30 + d.span →
          traps (exec (.tload f) s) 0x0042) ∧
        (e.getLsbD 63 = true → d.faddr % 2 ^ 30 + d.span ≤ 2 ^ (21 + (e.extractLsb' 54 4).toNat) → e.getLsbD 60 = false →
          traps (exec (.tload f) s) 0x0043) ∧
        (Spec.mapped s d.faddr d.span true false false → 768 ≤ c.farHeld →
          exec (.tload f) s = .next (Spec.sent s [(1, .reg f.d 0)] []))))

/-- R268: in an exchange superstep every far form raises ALIGN where its descriptor is misaligned, and SP_RANGE where it leaves
the scratchpad; a load into a ring raises RING_DESC or RING_FULL next. -/
def Sys2Proof.Spec.FarDescriptorsAreInPlace : Prop :=
  ∀ (s : State) (f : FmtDA), s.compute = false → s.cur.cur = false → s.guard f.gn f.g = true →
    let a := (s.rs 0 f.a).toNat
    let w := Spec.words s a 16
    let traps (i : Instr) (code : Nat) : Prop := exec i s = .next (Spec.trapped s code)
    (∀ x ∈ Spec.farForms, (a % x.2.2 ≠ 0 → traps (x.1 f) 0x0016) ∧
      (a % x.2.2 = 0 → 0x400000 < a + 4 * x.2.1 → traps (x.1 f) 0x0015)) ∧
    (∀ x ∈ Spec.releases, ∀ g : FmtDAB, s.guard g.gn g.g = true →
      let o := (s.rs 0 g.a).toNat
      (o % 32 ≠ 0 → traps (x.1 g) 0x0016) ∧ (o % 32 = 0 → 0x400000 < o + 32 → traps (x.1 g) 0x0015)) ∧
    (a % 64 = 0 → a + 64 ≤ 0x400000 → ∀ x ∈ [((.tload : FmtDA → Instr), (TileDesc.ofWords w).dring, (TileDesc.ofWords w).dq),
        (.bkload, (BkDesc.ofWords w).dring, (BkDesc.ofWords w).dq), (.tloadz, (SloeDesc.ofWords w).dring, (SloeDesc.ofWords w).dq)],
      x.2.1 = true → let r := s.ringTail x.2.2
      (r.ok = false → traps (x.1 f) 0x0011) ∧ (r.ok = true → r.full = true → traps (x.1 f) 0x0013))

/-- R268, R272, R277, R281, R288: with its descriptor in place, a tile store, a guard form or a far atomic raises FAR_DESC for
a field its map forbids, then the cause of its ranges, then DUP_UNGUARDED for a duplicated segment it may not write so. -/
def Sys2Proof.Spec.TileGuardAndAtomicFormsTrap : Prop :=
  ∀ (s : State) (f : FmtDA), s.compute = false → s.cur.cur = false → s.guard f.gn f.g = true →
    let a := (s.rs 0 f.a).toNat
    let traps (i : Instr) (code : Nat) : Prop := exec i s = .next (Spec.trapped s code)
    let d := TileDesc.ofWords (Spec.words s a 16)
    let e := sget 0 s.myTable (d.faddr / 2 ^ 30)
    let rs := (if d.rows ≠ 0 then [(⟨d.faddr, d.span, false, true, false⟩ : Range)] else []) ++
      if d.guard ≠ 0 then [(⟨d.guard, 64, false, false, true⟩ : Range)] else []
    let bad := d.bad true (s.ringTail d.dq).slotsz d.spoff (entKey e)
    (a % 64 = 0 → a + 64 ≤ 0x400000 →
      (bad = true → traps (.tstore f) 0x0040) ∧ (bad = false → Spec.segmentTraps s rs (traps (.tstore f))) ∧
      (bad = false → Spec.allMapped s rs → d.rows ≠ 0 → entDup e = true → d.guard = 0 → traps (.tstore f) 0x0044)) ∧
    (∀ x ∈ Spec.acquires, a % 32 = 0 → a + 32 ≤ 0x400000 →
      let w := Spec.words s a 8
      (¬ Spec.guardOk w x.2 → traps (x.1 f) 0x0040) ∧
      (Spec.guardOk w x.2 → Spec.segmentTraps s [⟨Spec.far (w.getD 0 0) (w.getD 1 0), 64, false, false, true⟩] (traps (x.1 f)))) ∧
    (∀ x ∈ Spec.releases, ∀ g : FmtDAB, s.guard g.gn g.g = true →
      let o := (s.rs 0 g.a).toNat
      let w := Spec.words s o 8
      o % 32 = 0 → o + 32 ≤ 0x400000 → (¬ Spec.guardOk w x.2 → traps (x.1 g) 0x0040) ∧
      (Spec.guardOk w x.2 → Spec.segmentTraps s [⟨Spec.far (w.getD 0 0) (w.getD 1 0), 64, false, false, true⟩] (traps (x.1 g)))) ∧
    (∀ x ∈ Spec.farAtomics, a % 16 = 0 → a + 48 ≤ 0x400000 →
      let w := Spec.words s a 12
      let va := Spec.far (w.getD 0 0) (w.getD 1 0)
      let ok := (w.getD 1 0).toNat < 2 ^ 10 ∧ va % 8 = 0 ∧ w.getD 9 0 = 0 ∧ w.getD 10 0 = 0 ∧ w.getD 11 0 = 0
      (¬ ok → traps (x.1 f) 0x0040) ∧ (ok → Spec.segmentTraps s [⟨va, 8, true, true, true⟩] (traps (x.1 f))) ∧
      (ok → Spec.mapped s va 8 true true true → entDup (sget 0 s.myTable (va / 2 ^ 30)) = true → traps (x.1 f) 0x0044))

/-- R300 to R302, R308, R309, R315, R351, R352, R358: with its descriptor in place and a ring it loads into ready, a
near-memory command, a block form, TLOADZ or a collective form raises FAR_DESC for a field its map forbids; then the first two
the cause of their ranges and NM_PLACE, the block forms BK_DENIED for a task without blocks, TLOADZ the cause of its ranges,
and the collectives and CCANCEL COLL_GROUP for a group that is not one. -/
def Sys2Proof.Spec.PackageMemoryAndCollectiveFormsTrap : Prop :=
  ∀ (s : State) (f : FmtDA), s.compute = false → s.cur.cur = false → s.guard f.gn f.g = true →
    let a := (s.rs 0 f.a).toNat
    let w := Spec.words s a 16
    let traps (i : Instr) (code : Nat) : Prop := exec i s = .next (Spec.trapped s code)
    (a % 64 = 0 → a + 64 ≤ 0x400000 →
      (∀ x ∈ Spec.nearForms,
        let d := NmDesc.ofWords w
        (d.bad x.2 = true → traps (x.1 f) 0x0040) ∧ (d.bad x.2 = false → Spec.segmentTraps s (d.ranges x.2) (traps (x.1 f))) ∧
        (d.bad x.2 = false → Spec.allMapped s (d.ranges x.2) → d.misplaced x.2 s.myTable = true → traps (x.1 f) 0x0050)) ∧
      (∀ x ∈ Spec.blockForms,
        let d := BkDesc.ofWords w
        let r := s.ringTail d.dq
        let loc := if d.dring = true ∧ x.2 = .bkload then d.spoff + r.slotAt r.tail else d.spoff
        (d.dring = true → x.2 = .bkload → r.ok = true ∧ r.full = false) →
        (d.bad x.2 w r.slotsz loc = true → traps (x.1 f) 0x0040) ∧
        (d.bad x.2 w r.slotsz loc = false → (∀ u, s.taskOf s.ictx.core = some u → u.desc.bk = false) → traps (x.1 f) 0x0051)) ∧
      (let d := SloeDesc.ofWords w
       let r := s.ringTail d.dq
       let loc := if d.dring then r.slotAt r.tail + d.spoff else d.spoff
       let bw := if d.dring then r.bwAt r.tail + 2 * (d.spoff / 8) else d.bwoff
       (d.dring = true → r.ok = true ∧ r.full = false) →
       (d.bad r loc bw = true → traps (.tloadz f) 0x0040) ∧
       (d.bad r loc bw = false →
         Spec.segmentTraps s [⟨d.dir + 8 * d.tile, 8, true, false, false⟩, ⟨d.data, 1, true, false, false⟩] (traps (.tloadz f)))) ∧
      (∀ x ∈ Spec.collForms,
        let d := CollDesc.ofWords w
        let p := pkgOf s.ictx.core
        let bad := d.bad x.2 (w.getD 5 0) (w.getD 6 0) ((s.rankOf d p).getD 0)
        (bad = true → traps (x.1 f) 0x0040) ∧ (bad = false → s.badGroup d p = true → traps (x.1 f) 0x0060))) ∧
    (a % 16 = 0 → a + 16 ≤ 0x400000 →
      let d := CollDesc.ofWords ((Spec.words s a 4).take 2)
      (d.rsvd = true → traps (.ccancel f) 0x0040) ∧
      (d.rsvd = false → s.badGroup d (pkgOf s.ictx.core) = true → traps (.ccancel f) 0x0060))

/-- R270: a form that would be accepted, but for its 768 entries all held, answers sD = 0 and does nothing else; an outbound
one has its place in the log. -/
def Sys2Proof.Spec.FarFormsWithoutAnEntryAreRefused : Prop :=
  ∀ (s : State) (f : FmtDA), s.compute = false → s.guard f.gn f.g = true → 768 ≤ s.cur.farHeld → s.cur.rerun = none →
    Spec.logsNew s.cur →
    let a := (s.rs 0 f.a).toNat
    (∀ x ∈ Spec.acquires, a % 32 = 0 → a + 32 ≤ 0x400000 →
      let w := Spec.words s a 8
      Spec.guardOk w x.2 → Spec.mapped s (Spec.far (w.getD 0 0) (w.getD 1 0)) 64 false false true →
      Spec.refused s f.d (exec (x.1 f) s)) ∧
    (a % 64 = 0 → a + 64 ≤ 0x400000 →
      (let d := TileDesc.ofWords (Spec.words s a 16)
       d.bad true (s.ringTail d.dq).slotsz d.spoff (entKey (sget 0 s.myTable (d.faddr / 2 ^ 30))) = false → d.guard = 0 →
       Spec.mapped s d.faddr d.span false true false → entDup (sget 0 s.myTable (d.faddr / 2 ^ 30)) = false →
       Spec.refused s f.d (exec (.tstore f) s)) ∧
      (∀ x ∈ Spec.nearForms,
        let d := NmDesc.ofWords (Spec.words s a 16)
        d.bad x.2 = false → Spec.allMapped s (d.ranges x.2) → d.misplaced x.2 s.myTable = false →
        Spec.refused s f.d (exec (x.1 f) s)) ∧
      (∀ x ∈ Spec.blockForms, ∀ u : Task,
        let d := BkDesc.ofWords (Spec.words s a 16)
        let r := s.ringTail d.dq
        (d.dring = true → x.2 = .bkload → r.ok = true ∧ r.full = false) →
        d.bad x.2 (Spec.words s a 16) r.slotsz (if d.dring = true ∧ x.2 = .bkload then d.spoff + r.slotAt r.tail else d.spoff) = false →
        s.taskOf s.ictx.core = some u → u.desc.bk = true → Spec.refused s f.d (exec (x.1 f) s)) ∧
      (let d := SloeDesc.ofWords (Spec.words s a 16)
       let r := s.ringTail d.dq
       (d.dring = true → r.ok = true ∧ r.full = false) →
       d.bad r (if d.dring then r.slotAt r.tail + d.spoff else d.spoff)
         (if d.dring then r.bwAt r.tail + 2 * (d.spoff / 8) else d.bwoff) = false →
       Spec.mapped s (d.dir + 8 * d.tile) 8 true false false → Spec.mapped s d.data 1 true false false →
       Spec.refused s f.d (exec (.tloadz f) s)))

/-- R78, R266, R272, R273, R277, R300 to R302, R308, R315, R346, R351, R352: the fields of the far descriptors, and what each
form's map forbids: a reserved or must-be-zero field, a value out of range or off its alignment, scratchpad bytes outside the
private part and the window or outside the ring's slot, ranges that overlap, and a store to an encrypted segment of less than
whole lines. The ranges of a near-memory command have its permissions and lie in HBM on one stack; a group fits the torus and
holds the package. -/
def Sys2Proof.Spec.DescriptorFieldsAreChecked : Prop :=
  ∀ ws : List W,
    let x (n : Nat) : Nat := (ws.getD n 0).toNat
    let b (n lo k : Nat) : Nat := x n / 2 ^ lo % 2 ^ k
    let addr (n : Nat) : Nat := x n + x (n + 1) % 2 ^ 10 * 2 ^ 32
    let some_ (l : List Nat) : Prop := ∃ v ∈ l, v ≠ 0
    let outside (a n : Nat) : Prop := ¬ Spec.readable a n
    let meet (a m c n : Nat) : Prop := a < c + n ∧ c < a + m
    (let d := TileDesc.ofWords ws
     let g := if d.fmt = 10 ∨ d.fmt = 17 then 4 else if d.fmt = 11 ∨ d.fmt = 12 ∨ d.fmt = 16 then 2 else if d.fmt = 1 then 3 else 1
     d.faddr = addr 0 ∧ (d.dring = true ↔ b 2 31 1 = 1) ∧ d.dq.toNat = b 2 28 3 ∧ d.spoff = b 2 0 23 ∧ d.fmt = b 3 0 5 ∧
       d.fill.toNat = x 4 ∧ d.nrows = b 5 16 12 + 1 ∧ d.rowlen = b 5 0 16 + 1 ∧ d.fstride = x 6 ∧ d.lstride = b 7 0 23 ∧
       d.vrows = b 8 0 13 ∧ d.vbytes = b 9 0 17 ∧ d.guard = addr 10 ∧
       d.rows = (if min d.rowlen d.vbytes = 0 then 0 else min d.nrows d.vrows) ∧
       d.cols = (if d.vrows = 0 then 0 else min d.rowlen d.vbytes) ∧ d.span = (d.rows - 1) * d.fstride + d.cols ∧
       ∀ (store : Bool) (slotsz loc key : Nat),
        let last := (d.nrows - 1) * d.lstride + d.rowlen
        d.bad store slotsz loc key = true ↔
          some_ [b 1 10 22, b 2 23 5, b 3 5 27, b 5 28 4, b 7 23 9, b 8 13 19, b 9 17 15, b 11 10 22, x 15] ∨ 17 < d.fmt ∨
          some_ [d.rowlen % g, d.vbytes % g, d.fstride % g, d.faddr % g, d.guard % 64] ∨ d.nrows < d.vrows ∨ d.rowlen < d.vbytes ∨
          outside loc last ∨ (d.dring = true ∧ (store = true ∨ slotsz < d.spoff + last)) ∨
          (store = true ∧ key ≠ 0 ∧ d.rows ≠ 0 ∧
            (d.faddr % 64 ≠ 0 ∨ d.cols % 64 ≠ 0 ∨ (1 < d.rows ∧ d.fstride % 64 ≠ 0)))) ∧
    (let d := NmDesc.ofWords ws
     let n := 64 * d.nlines
     d.dst = addr 0 ∧ d.src = addr 2 ∧ d.nlines = b 4 0 24 + 1 ∧ d.p0.toNat = x 5 ∧ d.p1.toNat = x 6 ∧ d.guard = addr 7 ∧
       ∀ kind ∈ [FarKind.nmsadd, .nmsgd, .nmzero, .nmcopy, .nmcmp],
        (d.bad kind = true ↔ some_ [b 1 10 22, b 3 10 22, b 4 24 8, b 8 10 22, x 14, x 15] ∨
          some_ [d.dst % 64, d.src % 64, d.guard % 64] ∨ (kind = .nmzero ∧ d.src ≠ 0) ∨
          (kind ≠ .nmsadd ∧ kind ≠ .nmsgd ∧ x 5 ≠ 0) ∨ (kind ≠ .nmsgd ∧ x 6 ≠ 0) ∨
          ((kind = .nmsadd ∨ kind = .nmsgd) ∧ d.dst ≠ d.src ∧ meet d.dst n d.src n) ∨
          (kind = .nmcopy ∧ meet d.dst n d.src n)) ∧
        d.ranges kind = (⟨d.dst, n, decide (kind = .nmsgd ∨ kind = .nmcmp), decide (kind ≠ .nmcmp), true⟩ : Range) ::
          ((if kind = .nmzero then [] else [⟨d.src, n, true, false, false⟩]) ++
            if d.guard = 0 then [] else [⟨d.guard, 64, false, false, true⟩]) ∧
        ∀ table : SMap DW,
          let e := sget 0 table (d.dst / 2 ^ 30)
          let f := sget 0 table (d.src / 2 ^ 30)
          let off (e : DW) : Prop := e.getLsbD 47 = true ∨ e.getLsbD 62 = true
          d.misplaced kind table = true ↔ off e ∨
            (kind ≠ .nmzero ∧ (off f ∨ e.extractLsb' 34 13 ≠ f.extractLsb' 34 13 ∨ e.extractLsb' 31 3 ≠ f.extractLsb' 31 3))) ∧
    (let d := BkDesc.ofWords ws
     d.key = x 0 * 2 ^ 24 + b 1 24 8 * 2 ^ 16 + b 1 0 16 ∧ d.key2 = x 2 * 2 ^ 24 + b 3 24 8 * 2 ^ 16 + b 3 0 16 ∧
       (d.dring = true ↔ b 4 31 1 = 1) ∧ d.dq.toNat = b 4 28 3 ∧ d.spoff = b 4 0 23 ∧ d.len = b 5 0 17 ∧ d.boff = b 6 0 16 ∧
       ∀ (kind : FarKind) (slotsz loc : Nat), kind ∈ Spec.blockForms.map (·.2) →
        (d.bad kind ws slotsz loc = true ↔
          some_ [b 1 16 8, b 3 16 8, b 4 23 5, b 5 17 15, b 6 16 16, x 7, x 11, x 12, x 13, x 14, x 15] ∨
          (kind ≠ .bkshare ∧ some_ [x 2, x 3]) ∨ (kind ≠ .bkload ∧ d.dring = true) ∨
          if kind = .bkload ∨ kind = .bkstore then
            d.len < 64 ∨ 65536 < d.len ∨ some_ [d.len % 64, d.boff % 64] ∨ 65536 < d.boff + d.len ∨
              (d.dring = true ∧ slotsz < d.spoff + d.len) ∨ outside loc d.len
          else some_ [d.len, d.boff])) ∧
    (let d := SloeDesc.ofWords ws
     let four := 6 ≤ d.fmt ∧ d.fmt ≤ 9
     d.dir = addr 0 ∧ d.data = addr 2 ∧ d.tile = x 4 ∧ d.ntiles = x 5 ∧ (d.dring = true ↔ b 6 31 1 = 1) ∧ d.dq.toNat = b 6 28 3 ∧
       d.spoff = b 6 0 23 ∧ d.bwoff = b 7 0 23 ∧ d.fmt = b 8 0 5 ∧
       ∀ (r : Ring) (loc bw : Nat), d.bad r loc bw = true ↔
        some_ [b 1 10 22, b 3 10 22, b 6 23 5, b 7 23 9, b 8 5 27, x 12, x 13, x 14, x 15, d.dir % 8] ∨ ¬ (d.fmt = 2 ∨ four) ∨
        d.ntiles ≤ d.tile ∨ (four ∧ d.dring = false ∧ d.bwoff % 2 ≠ 0) ∨ (¬ (four ∧ d.dring = false) ∧ d.bwoff ≠ 0) ∨
        outside loc 8192 ∨ (four ∧ (outside bw 2048 ∨ meet loc 8192 bw 2048)) ∨
        (d.dring = true ∧ (r.fmt ≠ d.fmt ∨ r.slotsz < d.spoff + 8192))) ∧
    (let d := CollDesc.ofWords ws
     let signed (v n : Nat) : Int := if v < 2 ^ (n - 1) then v else (v : Int) - 2 ^ n
     let p := d.nx * d.ny * d.nz
     d.x0 = b 1 22 5 ∧ d.y0 = b 1 18 4 ∧ d.z0 = b 1 14 4 ∧ d.nx = b 1 9 5 + 1 ∧ d.ny = b 1 5 4 + 1 ∧ d.nz = b 1 1 4 + 1 ∧
       d.in_ = b 2 0 23 ∧ d.out = b 3 0 23 ∧ d.n = b 4 0 21 ∧ d.ofmt = b 5 27 5 ∧ d.ifmt = b 5 22 5 ∧
       (d.win = true ↔ b 5 21 1 = 1) ∧ (d.wout = true ↔ b 5 20 1 = 1) ∧ d.mode.toNat = b 5 16 3 ∧ d.ote = signed (b 5 8 8) 8 ∧
       d.ite = signed (b 5 0 8) 8 ∧ d.sexp = signed (b 6 0 16) 16 ∧ d.root = b 7 0 13 ∧
       (d.rsvd = true ↔ some_ [b 1 27 5, b 1 0 1, b 2 23 9, b 3 23 9, b 4 21 11, b 5 19 1, b 6 16 16, b 7 13 19, x 14, x 15]) ∧
       (∀ (k : CollKind) (rank : Nat),
        let sums := k = .ar ∨ k = .rs
        let size (wire : Bool) (fmt n : Nat) : Nat := if wire then 8 * n else (n * storedBits fmt + 7) / 8
        let nin := if sums then size d.win d.ifmt d.n else if k = .bc ∧ rank ≠ d.root then 0 else d.n
        let nout := if k = .ag then p * d.n else if k = .bc then d.n else size d.wout d.ofmt (if k = .rs then d.n / p else d.n)
        let wrong (f : Nat) : Prop := (3 ≤ f ∧ f ≤ 9) ∨ 18 ≤ f
        let odd (wire : Bool) (f : Nat) : Prop := wire = false ∧ ((f = 1 ∧ d.n % 4 ≠ 0) ∨ (f = 2 ∧ d.n % 2 ≠ 0))
        d.bad k (ws.getD 5 0) (ws.getD 6 0) rank = true ↔
          d.rsvd = true ∨ d.n = 0 ∨ 1048576 < d.n ∨ d.sexp < -512 ∨ 511 < d.sexp ∨
          (sums ∧ (3 < d.mode.toNat ∨ wrong d.ifmt ∨ wrong d.ofmt ∨ (d.win = true ∧ (d.ifmt ≠ 0 ∨ d.ite ≠ 0)) ∨
            (d.wout = true ∧ (d.ofmt ≠ 0 ∨ d.ote ≠ 0)) ∨ odd d.win d.ifmt ∨ odd d.wout d.ofmt)) ∨
          (k = .rs ∧ d.n % p ≠ 0) ∨ (¬ sums ∧ some_ [x 5, x 6]) ∨ p ≤ d.root ∨ (k ≠ .bc ∧ d.root ≠ 0) ∨
          (nin ≠ 0 ∧ outside d.in_ nin) ∨ outside d.out nout ∨
          (nin ≠ 0 ∧ meet d.in_ nin d.out nout ∧ ¬ (k = .ar ∧ d.in_ = d.out ∧ nin = nout))) ∧
       ∀ (s : State) (q : Nat), 0 < s.dx → 0 < s.dy → 0 < s.dz →
        let within (n o ext at_ : Nat) : Prop := ∃ i < ext, (o + i) % n = at_ % n
        (s.badGroup d q = true ↔ s.dx < d.nx ∨ s.dy < d.ny ∨ s.dz < d.nz ∨
          ¬ (within s.dx d.x0 d.nx (pkgX q) ∧ within s.dy d.y0 d.ny (pkgY q) ∧ within s.dz d.z0 d.nz (pkgZ q))))

/-! ### The events of far memory (13_die_memory.md, 16_package_memory.md, 19_fabric.md) -/

namespace Sys2Proof.Spec

open Sys2Proof Sys2Proof.Machine

/-- R271, R280, R284: a request has completed: it is held no more, and unless its task has left the core the bytes `out`, then
its result fields and then its status word, CODE in [31:28], MIS in bit 27 and COUNT in [23:0], stand in the scratchpad;
nothing else of the core's memories and no package changes. -/
def farEnded (s t : State) (k : Nat) (r : FarReq) (out fields : List (Nat × Byte)) (code : Nat) (mis : Bool) (count : Nat) :
    Prop :=
  let c := s.core k
  let m := t.core k
  let status := bytesOfNat 4 (code * 2 ^ 28 + mis.toNat * 2 ^ 27 + Nat.min count 0xFFFFFF)
  m.farReq r.id = none ∧ (∀ q ∈ c.far, q.id ≠ r.id → q.kind ≠ .nmfence → q ∈ m.far) ∧
    (r.orphan = true → m.sp = c.sp) ∧
    (r.orphan = false → m.sp = (out ++ fields ++ placed (r.desc + 4 * statusIndex r.kind) status).foldl
      (fun p x => p.setByte x.1 x.2) c.sp) ∧
    m.bank0 = c.bank0 ∧ m.bank1 = c.bank1 ∧ m.tiles = c.tiles ∧ m.planes = c.planes ∧ m.run = c.run ∧ m.pc = c.pc ∧
    (∀ j, j ≠ k → t.core j = s.core j) ∧ t.columns = s.columns ∧ t.pkgs = s.pkgs

/-- A 32-bit word of a result at a word index of the descriptor. -/
def result (r : FarReq) (i v : Nat) : List (Nat × Byte) := placed (r.desc + 4 * i) (bytesOfNat 4 v)

/-- A 64-bit result in two words. -/
def result2 (r : FarReq) (i v : Nat) : List (Nat × Byte) := placed (r.desc + 4 * i) (bytesOfNat 8 v)

/-- A request of a core changed, nothing else that can be read but what is due and the counter of the free values. -/
def requestBecomes (s t : State) (k : Nat) (r r' : FarReq) : Prop :=
  (t.core k).farReq r.id = some r' ∧ (t.core k).far.length = (s.core k).far.length ∧
    sameMemories (s.core k) (t.core k) ∧ (t.core k).pend = (s.core k).pend ∧
    (∀ j, j ≠ k → t.core j = s.core j) ∧ t.columns = s.columns ∧ t.dies = s.dies

/-- A piece of a request replaced. -/
def withPiece (r : FarReq) (j : Nat) (p : Piece) : FarReq := { r with pieces := r.pieces.set j p }

/-- The piece of a request that a message number names is lost: its line fails (R290, R299, R345). -/
def failing (r : FarReq) (j : Nat) : FarReq :=
  match r.pieces[j]? with
  | none => r
  | some p => withPiece r j { p with bad := true, stage := 2 }

/-- A line of a request is marked as failing. -/
def spoilt (r : FarReq) (j : Nat) : FarReq :=
  match r.pieces[j]? with
  | none => r
  | some p => withPiece r j { p with bad := true }

/-- A request whose message is lost: a line of a load, a store or a compressed tile fails, a tagged store's word to its guard
takes all of its lines with it, its count at the guard is made all the same, and any other message ends it POISONED with COUNT
1, in which a store keeps the lines it has moved (log 30); the number of a line's message is its index, and control messages
have numbers from 2^32 on: a request, a store's count at its guard, the reply of a store. -/
def lost (r : FarReq) (j : Nat) : FarReq :=
  if r.kind = .tloadz then spoilt r j
  else if r.kind = .tstore ∧ j = 2 ^ 32 then { r with pieces := r.pieces.map fun p => { p with bad := true, stage := 2 } }
  else if r.kind = .tstore ∧ j = 2 ^ 32 + 1 then r
  else if (r.kind = .tload ∨ r.kind = .tstore) ∧ j < 2 ^ 32 then failing r j
  else { r with code := 2, count := 1, stage := .performed, pieces := if j = 2 ^ 32 + 2 then r.pieces else [] }

/-- A message waits at a port of a package for the first remote-memory slot that is free from a fabric cycle on, and is at the
other end H cycles later (R339, R345; log 29). -/
def queued (s t : State) (pkg port f : Nat) (e : Ev) : Prop :=
  ∃ d, f ≤ d ∧ ((s.pkg pkg).port port).remoteNext ≤ d ∧ 12 ≤ d % 16 ∧ d % 16 < 15 ∧
    (∀ x, f ≤ x → ((s.pkg pkg).port port).remoteNext ≤ x → x < d → x % 16 < 12 ∨ x % 16 = 15) ∧
    t = { s.setPkg pkg { s.pkg pkg with
            ports := sset Port.reset (s.pkg pkg).ports port { (s.pkg pkg).port port with remoteNext := d + 1 } } with
          agenda := s.agenda ++ [⟨.fabric, d + 128, e⟩] }

/-- The lines and marks of far memory after the second copy of a store's lines (R289, R290): each written whole or in part
under the other die, a line that fails there marked in every copy. -/
def secondCopies (s : State) (k : Nat) (r : FarReq) : State :=
  r.pieces.foldl (fun u p =>
    if p.bad then u
    else
      let o := u.storeLine (pkgOf k) r.ent (halfOf k + 1) p.line ((p.at_.zip p.data).map fun x => (x.1.1, x.2))
      if o.2 then o.1.poisonLine r.ent p.line else o.1) s

/-- A byte of a load's tile that no later row writes over (R274: the rows in order). -/
def lastRow (d : TileDesc) (idx : Nat) : Bool :=
  decide (idx / d.rowlen + 1 = d.nrows ∨ idx % d.rowlen < d.lstride)

/-- A request performed: its reply sets out. -/
def replied (r : FarReq) (code : Nat) (mis : Bool) (count : Nat) : FarReq :=
  { r with code := code, mis := mis, count := count, stage := .performed }

end Sys2Proof.Spec

/-- R290, R299, R346: a line written in the clear reads back as written, in HBM and in the second tier, and every other line of
its segment reads as before; a line of an encrypted segment holds its ciphertext and its tag; a poisoned line reads as none,
and a partial write to it fails and leaves it, while a write of all of its bytes clears it; a line beyond the memory that
R2, R299 and R317 give reads as none and takes no write (log 29). -/
def Sys2Proof.Spec.FarLinesReadBack : Prop :=
  ∀ (s : State) (acc die va : Nat) (e : DW) (bs : List Byte), bs.length = 64 →
    let t := s.writeLine acc e die va bs
    let there := s.lineAbsent e va = false
    (there → entKey e = 0 → t.readLine acc e die va = some bs) ∧
    (∀ a, a / 64 ≠ va / 64 → a / 2 ^ 30 = va / 2 ^ 30 → t.readLine acc e die a = s.readLine acc e die a) ∧
    (there → entKey e ≠ 0 → entTier e = false →
      let key := sget 0 (s.pkg acc).xtsKeys (entKey e)
      let x := Config.xtsEncrypt key (BitVec.ofNat 128 (va / 64)) (BitVec.ofNat 512 (natOfBytes bs))
      let n := hbmKey e die (va / 64 * 64)
      (t.pkg (entPkg e)).hbm.nat n 64 = x.toNat ∧
        sget 0 (t.pkg (entPkg e)).tags (n / 64) =
          Config.cmacTag (sget 0 (s.pkg acc).macKeys (entKey e)) (BitVec.ofNat 128 (va / 64)) x) ∧
    (s.poisonLine e va).readLine acc e die va = none ∧
    (∀ w : List (Nat × Byte), (w.map (·.1)).eraseDups.length < 64 →
      (s.poisonLine e va).storeLine acc e die va w = (s.poisonLine e va, true)) ∧
    (there → entKey e = 0 → (s.poisonLine e va).storeLine acc e die va ((List.range 64).zip bs) =
      ((s.poisonLine e va).writeLine acc e die va bs, false)) ∧
    (s.lineAbsent e va = true → t = s ∧ s.readLine acc e die va = none ∧
      ∀ w : List (Nat × Byte), s.storeLine acc e die va w = (s, true)) ∧
    (s.lineAbsent e va = true ↔
      (if entTier e then (s.pkg (entPkg e)).tierPorts * 256000000000 else 64000000000) <
        (entBase e * 2 ^ 21 + va % 2 ^ 30) / 64 * 64 + 64) ∧
    (t.cores = s.cores ∧ t.columns = s.columns ∧ t.dies = s.dies ∧ ∀ p, p ≠ entPkg e → t.pkg p = s.pkg p)

/-- R278, R279: GACQ takes a free guard, and in shared mode a shared one, and is BUSY otherwise; an exclusive grant records the
owner and starts the counts again, and reports POISONED where the guard has counted poison; GREL ends the holder's own grant,
with the count of arrivals compared and the epoch advanced for an exclusive one, and is LOST otherwise; a tagged store counts
one arrival, its failing lines, and the first of them. -/
def Sys2Proof.Spec.GuardsAreTakenAndReleased : Prop :=
  ∀ (g : Guard) (owner b : W) (n p : Nat),
    let taken (code : Nat) (h : Guard) : GuardOut := ⟨h, code, g.mis, g.poison, g.firstp⟩
    let code := if g.poison = 0 then 1 else 2
    (g.mode = 0 → g.acquire true owner =
      taken code { g with mode := 2, owner := owner, arr := 0, poison := 0, mis := false, firstp := 0 }) ∧
    (g.mode = 0 ∨ g.mode = 1 → g.acquire false owner = taken code { g with mode := 1, nhold := g.nhold + 1 }) ∧
    (g.mode ≠ 0 → g.acquire true owner = ⟨g, 3, false, 0, 0⟩) ∧
    (g.mode ≠ 0 → g.mode ≠ 1 → g.acquire false owner = ⟨g, 3, false, 0, 0⟩) ∧
    (g.mode = 2 → g.owner = owner → g.release true owner b =
      ⟨{ g with mis := decide (g.arr ≠ b), mode := 0, owner := 0, epoch := g.epoch + 1 }, 1, decide (g.arr ≠ b), g.poison, 0⟩) ∧
    (g.mode ≠ 2 ∨ g.owner ≠ owner → g.release true owner b = ⟨g, 5, false, 0, 0⟩) ∧
    (g.mode = 1 → 0 < g.nhold → g.release false owner b =
      ⟨{ g with nhold := g.nhold - 1, mode := if g.nhold = 1 then 0 else 1 }, 1, false, 0, 0⟩) ∧
    (g.mode ≠ 1 ∨ g.nhold = 0 → g.release false owner b = ⟨g, 5, false, 0, 0⟩) ∧
    (g.arrive n p).arr = g.arr + 1 ∧ (g.arrive n p).poison = Nat.min (g.poison + n) 0xFFFFFF ∧
    (g.arrive n p).firstp = if g.poison = 0 ∧ 0 < n then p else g.firstp

/-- R274, R275, R279, R280, R285, R289, R290, R345: a held form is sent when nothing holds it; a line of a store's source is
read at one time, a load's line is read from far memory, and a line written at the other end, unless an earlier request of the
core must come first, when it waits; a line that fails is marked in every copy; after the last line an untagged store's reply
sets out, over the fabric from another package, and the form completes with OK, DELIV and FIRST, or with POISONED and its
failing lines; a tagged store whose guard the core does not hold, or cannot read, ends NOTHELD with nothing moved, and one
that was performed is counted at its guard whatever the guard has become (log 30); the second copy of a duplicated segment is
written under the other die; and a message waits for a slot of its next port, one flit in each, passes package after package,
one hop each (the order of waiting is log 29's), and is lost where the link is down or its flit fails, but for a store's line
whose flit fails: that one goes on, and is left as it was and poisoned where it was for (log 30). -/
def Obligations.TileTransferEventsHaveTheirEffect : Prop :=
  ∀ (s : State) (r : FarReq) (j : Nat) (p : Piece),
    let k := s.ev.k
    let c := s.core k
    let y := s.clkOf k
    let dd := TileDesc.ofWords r.words
    let half := halfOf k
    let acc := pkgOf k
    let again (e : Ev) : State := { s with agenda := s.agenda ++ [⟨.die (dieOf k), y + 1, e⟩] }
    c.farReq s.ev.i = some r →
    (r.stage = .held → mustHold (c.far.takeWhile fun q => q.id ≠ r.id) r.kind = false →
      ∃ t, exec .farRequestSend s = .next t ∧ Spec.requestBecomes s t k r { r with stage := .sent } ∧ t.pkgs = s.pkgs) ∧
    (s.ev.b = false → s.ev.w = 0 →
      let src := if r.orphan then r.src else r.src.setBytes (64 * s.ev.j) (c.sp.bytes (64 * s.ev.j) 64)
      let left := r.srcLeft.filter (· ≠ s.ev.j)
      ∃ t, exec .tileTransferComplete s = .next t ∧ t.pkgs = s.pkgs ∧ Spec.requestBecomes s t k r { r with
        srcLeft := left, src := src
        pieces := r.pieces.map fun p => if p.stage = 0 ∧ ∀ x ∈ p.at_, x.2.1 / 64 ∉ left
          then { p with data := p.at_.map (fun x => src.byte x.2.1), stage := 1 } else p }) ∧
    (s.ev.b = false → s.ev.j = j → r.pieces[j]? = some p →
      let w := (p.at_.zip p.data).map fun x => (x.1.1, x.2)
      (s.ev.w = 1 → c.farBlocked r.id p.line = true → exec .tileTransferComplete s = .next (again s.ev)) ∧
      (∀ l, s.ev.w = 1 → c.farBlocked r.id p.line = false → r.kind = .tload →
        s.readLine acc r.ent half p.line = some l → ∃ t, exec .tileTransferComplete s = .next t ∧ t.pkgs = s.pkgs ∧
          Spec.requestBecomes s t k r (Spec.withPiece r j { p with data := p.at_.map (fun x => l.getD x.1 0), stage := 1 })) ∧
      (s.ev.w = 1 → c.farBlocked r.id p.line = false → r.kind = .tload → s.readLine acc r.ent half p.line = none →
        ∃ t, exec .tileTransferComplete s = .next t ∧ t.pkgs = s.pkgs ∧
          Spec.requestBecomes s t k r (Spec.withPiece r j { p with bad := true, stage := 1 })) ∧
      (s.ev.w = 1 → c.farBlocked r.id p.line = false → r.kind = .tstore → p.bad = true →
        ∃ t, exec .tileTransferComplete s = .next t ∧ Spec.requestBecomes s t k r (Spec.withPiece r j { p with stage := 2 }) ∧
          ∀ q, t.pkg q = (s.poisonLine r.ent p.line).pkg q) ∧
      (∀ l, s.ev.w = 1 → c.farBlocked r.id p.line = false → r.kind = .tstore → p.bad = false →
        s.readLine acc r.ent half p.line = some l → p.at_.length ≤ p.data.length → (p.at_.map (·.1)).Nodup →
        ∃ t, exec .tileTransferComplete s = .next t ∧ (t.core k).sp = c.sp ∧ (∀ q, q ≠ entPkg r.ent → t.pkg q = s.pkg q) ∧
          ∀ q, t.pkg q = (s.writeLine acc r.ent half p.line
            ((p.at_.zip p.data).foldl (fun l x => l.set x.1.1 x.2) (if p.at_.length = 64 then List.replicate 64 0 else l))).pkg q) ∧
      (∀ l, s.ev.w = 1 → c.farBlocked r.id p.line = false → r.kind = .tstore → dd.guard = 0 →
        s.readLine acc r.ent half p.line = some l → (∀ x ∈ r.pieces.set j { p with stage := 2 }, x.stage = 2) →
        ∃ t, exec .tileTransferComplete s = .next t ∧ ∃ e ∈ t.agenda,
          if entPkg r.ent = acc then e.dom = .die (dieOf k) ∧ e.ev = ⟨.tileTransferComplete, k, r.id, 0, 3, true⟩
          else e.dom = .fabric ∧ e.ev = ⟨.remoteMemoryHop, k, r.id, 2 ^ 32 + 2, 0, true⟩) ∧
      (s.ev.w = 1 → c.farBlocked r.id p.line = false → r.kind = .tstore → s.readLine acc r.ent half p.line = none →
        (w.map (·.1)).eraseDups.length < 64 → ∃ t, exec .tileTransferComplete s = .next t ∧
          Spec.requestBecomes s t k r (Spec.withPiece r j { p with bad := true, stage := 2 }) ∧
          ∀ q, t.pkg q = (s.poisonLine r.ent p.line).pkg q) ∧
      (2 ≤ s.ev.w → r.orphan = false → p.bad = false → ∃ t, exec .tileTransferComplete s = .next t ∧ t.pkgs = s.pkgs ∧
        (t.core k).sp = ((p.at_.zip p.data).filter fun x => Spec.lastRow dd x.1.2.2).foldl
          (fun m x => m.setByte x.1.2.1 x.2) c.sp ∧ (t.core k).bank0 = c.bank0 ∧ (t.core k).bank1 = c.bank1)) ∧
    (s.ev.b = true → (r.kind = .tload ∨ r.kind = .tstore) →
      let n := r.badLines.length
      let fill := if r.kind = .tload then (r.badLines.map fun p =>
        (p.at_.filter fun x => Spec.lastRow dd x.2.2).map fun x => (x.2.1, dd.fillByte x.2.2)).flatten else []
      let done := ((r.pieces.filter fun p => !p.bad && p.stage == 2).map fun p => p.at_.length).sum
      ∃ t, exec .tileTransferComplete s = .next t ∧ if r.code = 4
        then Spec.farEnded s t k r (r.out ++ fill) (Spec.result r 13 0 ++ Spec.result r 14 0xFFFFFFFF) 4 r.mis 0
        else Spec.farEnded s t k r (r.out ++ fill) (Spec.result r 13 done ++
            Spec.result r 14 (((r.badLines.map (·.idx)).min?).getD 0xFFFFFFFF))
          (if r.code = 2 ∨ 0 < n then 2 else 1) r.mis (n + r.count)) ∧
    (c.farBlocked r.id dd.guard = true → s.ev.b = false → exec .taggedStoreAtGuard s = .next (again s.ev)) ∧
    (s.ev.b = false → c.farBlocked r.id dd.guard = false → s.readGuard acc r.gent half dd.guard = none ∨
        (∃ g, s.readGuard acc r.gent half dd.guard = some g ∧ (g.mode ≠ 2 ∨ g.owner ≠ coreId k)) →
      ∃ t, exec .taggedStoreAtGuard s = .next t ∧ t.pkgs = s.pkgs ∧
        Spec.requestBecomes s t k r { r with code := 4, pieces := [] }) ∧
    (∀ g, s.ev.b = false → c.farBlocked r.id dd.guard = false → s.readGuard acc r.gent half dd.guard = some g →
      g.mode = 2 → g.owner = coreId k → ∃ t, exec .taggedStoreAtGuard s = .next t ∧ t.pkgs = s.pkgs ∧
        Spec.requestBecomes s t k r r) ∧
    (∀ g, s.ev.b = true → s.readGuard acc r.gent half dd.guard = some g →
      ∃ t, exec .taggedStoreAtGuard s = .next t ∧ (∀ q, t.core q = s.core q) ∧
        ∀ q, t.pkg q = (s.writeGuard acc r.gent half dd.guard
          (g.arrive r.badLines.length ((r.firstBad.map Piece.line).getD 0))).pkg q) ∧
    (∃ t, exec .dupCopyAck s = .next t ∧ (∀ q, t.pkg q = (Spec.secondCopies s k r).pkg q) ∧
      (r.pieces = [] → Spec.requestBecomes s t k r { r with stage := .performed }) ∧
      (∀ x, r.pieces = [x] → x.bad = false →
        let w := (x.at_.zip x.data).map fun z => (z.1.1, z.2)
        let o := s.storeLine acc r.ent (half + 1) x.line w
        Spec.requestBecomes s t k r { r with stage := .performed, pieces := [{ x with bad := o.2 }] } ∧
        ∀ q, t.pkg q = (if o.2 then s.poisonLine r.ent x.line else o.1).pkg q)) ∧
    (let there := r.target s.ev.j
     let src := if s.ev.b then there else acc
     let path := if s.ev.b then s.path there acc else s.path acc there
     let sender := (path.take (s.ev.w - 1)).foldl s.portTo src
     let port := path.getD (s.ev.w - 1) 0
     let receiver := s.portTo sender port
     let last : Prop := s.ev.w = path.length
     let on := { s.ev with w := s.ev.w + 1 }
     let wait : State := { s with agenda := s.agenda ++ [⟨.fabric, s.fab + 1, s.ev⟩] }
     let spoil := ((s.pkg receiver).port (oppositePort port)).spoil
     let line : Prop := r.kind = .tstore ∧ s.ev.j < 2 ^ 32
     (s.ev.w = 0 → s.ev.b = false → s.mustFollow k r s.ev.j = true → exec .remoteMemoryHop s = .next wait) ∧
     (s.ev.w = 0 → s.ev.b = true ∨ s.mustFollow k r s.ev.j = false →
       ∃ t, exec .remoteMemoryHop s = .next t ∧ Spec.queued s t src (path.getD 0 0) s.fab on) ∧
     (s.ev.w ≠ 0 → s.ev.b = false → last → (s.pkg receiver).copying.isSome = true → exec .remoteMemoryHop s = .next wait) ∧
     (s.ev.w ≠ 0 → s.ev.b = true ∨ ¬ last ∨ (s.pkg receiver).copying = none →
       (s.nullPort sender port = true → ∃ t, exec .remoteMemoryHop s = .next t ∧ t.pkgs = s.pkgs ∧
         Spec.requestBecomes s t k r (Spec.lost r s.ev.j)) ∧
       (s.nullPort sender port = false → spoil = true → ¬ line → ∃ t, exec .remoteMemoryHop s = .next t ∧ t.pkgs = s.pkgs ∧
         Spec.requestBecomes s t k r (Spec.lost r s.ev.j)) ∧
       (s.nullPort sender port = false → spoil = true → line → ∃ u,
         Spec.requestBecomes s u k r (Spec.spoilt r s.ev.j) ∧ u.pkgs = s.pkgs ∧ u.agenda = s.agenda ∧
         (last → exec .remoteMemoryHop s =
           .next { u with agenda := s.agenda ++ [⟨.die (dieOf k), y + 1, r.arrival k s.ev.j s.ev.b⟩] }) ∧
         (¬ last → ∃ t, exec .remoteMemoryHop s = .next t ∧ Spec.queued u t receiver (path.getD s.ev.w 0) (s.fab + 1) on)) ∧
       (s.nullPort sender port = false → spoil = false → ¬ last →
         ∃ t, exec .remoteMemoryHop s = .next t ∧ Spec.queued s t receiver (path.getD s.ev.w 0) (s.fab + 1) on) ∧
       (s.nullPort sender port = false → spoil = false → last →
         exec .remoteMemoryHop s = .next (again (r.arrival k s.ev.j s.ev.b)))))

/-- R276, R278, R279, R282, R285: a guard form at its guard, after the core's earlier forms there, changes it as the guard's
rules say and reports what it found, and leaves an unchanged guard unwritten; at a poisoned line it finds the unspecified MODE
3, so that GACQ is BUSY and GREL LOST (log 30); an atomic reads eight bytes and writes their sum with, their exchange for, or
on equality their replacement by its operand; and each completes with its status, GACQ's FIRSTP and an atomic's OLD. -/
def Obligations.GuardAndAtomicEventsHaveTheirEffect : Prop :=
  ∀ (s : State) (r : FarReq),
    let k := s.ev.k
    let c := s.core k
    let w (i : Nat) : W := r.words.getD i 0
    let va := farAddr (w 0) (w 1)
    let half := halfOf k
    let exclusive := (w 2).getLsbD 0
    let again : State := { s with agenda := s.agenda ++ [⟨.die (dieOf k), s.clkOf k + 1, s.ev⟩] }
    c.farReq s.ev.i = some r →
    (s.ev.b = false → c.farBlocked r.id va = true → exec .gacqAtGuard s = .next again ∧ exec .grelAtGuard s = .next again) ∧
    (s.ev.b = false → c.farBlocked r.id (va / 64 * 64) = true → exec .atomicAtMemory s = .next again) ∧
    (∀ g : Guard, s.ev.b = false → c.farBlocked r.id va = false → s.readGuard (pkgOf k) r.gent half va = some g →
      (let o := g.acquire exclusive (coreId k)
       ∃ t, exec .gacqAtGuard s = .next t ∧
        Spec.requestBecomes s t k r { Spec.replied r o.code o.mis o.count with firstp := o.firstp } ∧
        ∀ q, t.pkg q = (if o.guard = g then s else s.writeGuard (pkgOf k) r.gent half va o.guard).pkg q) ∧
      (let o := g.release exclusive (coreId k) r.opnd
       ∃ t, exec .grelAtGuard s = .next t ∧
        Spec.requestBecomes s t k r { Spec.replied r o.code o.mis o.count with firstp := o.firstp } ∧
        ∀ q, t.pkg q = (if o.guard = g then s else s.writeGuard (pkgOf k) r.gent half va o.guard).pkg q)) ∧
    (s.ev.b = false → c.farBlocked r.id va = false → s.readGuard (pkgOf k) r.gent half va = none →
      (∃ t, exec .gacqAtGuard s = .next t ∧ t.pkgs = s.pkgs ∧
        Spec.requestBecomes s t k r { Spec.replied r 3 false 0 with firstp := 0 }) ∧
      ∃ t, exec .grelAtGuard s = .next t ∧ t.pkgs = s.pkgs ∧
        Spec.requestBecomes s t k r { Spec.replied r 5 false 0 with firstp := 0 }) ∧
    (s.ev.b = true → r.kind = .gacq → r.code < 16 → ∃ t, exec .gacqAtGuard s = .next t ∧
      Spec.farEnded s t k r r.out (if r.code = 1 ∨ r.code = 2 then Spec.result2 r 4 r.firstp else []) r.code r.mis r.count) ∧
    (s.ev.b = true → r.kind = .grel → r.code < 16 → ∃ t, exec .grelAtGuard s = .next t ∧
      Spec.farEnded s t k r r.out [] r.code r.mis r.count) ∧
    (s.ev.b = true → r.code < 16 → ∃ t, exec .atomicAtMemory s = .next t ∧
      Spec.farEnded s t k r r.out (Spec.result2 r 6 r.old.toNat) r.code r.mis r.count) ∧
    (s.ev.b = false → c.farBlocked r.id (va / 64 * 64) = false → s.readLine (pkgOf k) r.ent half va = none →
      ∃ t, exec .atomicAtMemory s = .next t ∧ t.pkgs = s.pkgs ∧
        Spec.requestBecomes s t k r { r with code := 2, count := 1, old := 0, stage := .performed }) ∧
    (∀ l, s.ev.b = false → c.farBlocked r.id (va / 64 * 64) = false → s.readLine (pkgOf k) r.ent half va = some l →
      l.length = 64 → va % 8 = 0 →
      let old := natOfBytes ((l.drop (va % 64)).take 8)
      let opnd := (w 2).toNat + (w 3).toNat * 2 ^ 32
      let cmp := (w 4).toNat + (w 5).toNat * 2 ^ 32
      let new := if r.kind = .fadd then (old + opnd) % 2 ^ 64 else if r.kind = .fswap then opnd
        else if old = cmp then opnd else old
      ∃ t, exec .atomicAtMemory s = .next t ∧
        Spec.requestBecomes s t k r { r with code := 1, old := BitVec.ofNat 64 old, stage := .performed } ∧
        ∀ q, t.pkg q = (s.writeLine (pkgOf k) r.ent half va
          (l.take (va % 64) ++ bytesOfNat 8 new ++ l.drop (va % 64 + 8))).pkg q)

/-- R285, R303 to R306: a command at its unit, a tagged one after the core's earlier forms at its guard, joins the queue of
its stack behind those before it, and begins where there are none: a tagged one whose guard the core does not hold ends
NOTHELD without a line step; a line step performs one line, zeros, a copy, the FP32 sum or descent step of sixteen elements,
each rounded once, whose infinite and NaN results NFIN counts, or a comparison, and counts it; a line whose source is poisoned
is poisoned in turn and counted; it waits for the core's earlier forms on its lines; at its end the command is counted at its
guard and leaves the queue (that a unit performs one command at a time, a line at a time in rising order, and leaves a failing
line, is log 31's reading); at the core it writes DELIV, FIRST, NFIN and its fourth result with its status, and a fence that
waits for it takes over its failing lines; and a fence whose commands have all completed reports how many there were, OK, or
POISONED with the sum of their counts. -/
def Obligations.NearMemoryEventsHaveTheirEffect : Prop :=
  ∀ (s : State) (r : FarReq),
    let k := s.ev.k
    let c := s.core k
    let y := s.clkOf k
    let d := NmDesc.ofWords r.words
    let dva := d.dst + 64 * r.line
    let sva := d.src + 64 * r.line
    let acc := pkgOf k
    let half := halfOf k
    let pkg := entPkg r.ent
    let st := entStack r.ent
    let next : FarReq := { r with line := r.line + 1, deliv := r.deliv + 1 }
    c.farReq s.ev.i = some r →
    (r.stage ≠ .queued → d.guard ≠ 0 → c.farBlocked r.id d.guard = true →
      exec .nmCommandAtNmu s = .next { s with agenda := s.agenda ++ [⟨.die (dieOf k), y + 1, s.ev⟩] }) ∧
    (r.stage ≠ .queued → d.guard = 0 ∨ c.farBlocked r.id d.guard = false →
      (∀ q ∈ c.far, q.id < r.id → q.kind.isNm = true → q.stage ≠ .sent) →
      let due (t : State) (e : Ev) : Prop := ∃ x ∈ t.agenda, x.ev = e
      let held : Prop := d.guard = 0 ∨
        ∃ g, s.readGuard acc r.gent half d.guard = some g ∧ g.mode = 2 ∧ g.owner = coreId k
      (∀ h tl, sget [] (s.pkg pkg).nmu st = h :: tl →
        ∃ t, exec .nmCommandAtNmu s = .next t ∧ Spec.requestBecomes s t k r { r with stage := .queued } ∧
          sget [] (t.pkg pkg).nmu st = h :: tl ++ [(k, r.id)] ∧ (t.pkg pkg).hbm = (s.pkg pkg).hbm) ∧
      (sget [] (s.pkg pkg).nmu st = [] → held → ∃ t, exec .nmCommandAtNmu s = .next t ∧
        Spec.requestBecomes s t k r { r with stage := .queued } ∧ sget [] (t.pkg pkg).nmu st = [(k, r.id)] ∧
        due t (evI .nmLineStep k r.id)) ∧
      (sget [] (s.pkg pkg).nmu st = [] → ¬ held → (∀ x ∈ s.agenda, x.ev ≠ evI .nmLineStep k r.id) → ∃ t, exec .nmCommandAtNmu s = .next t ∧
        Spec.requestBecomes s t k r { r with stage := .queued, code := 4 } ∧ (t.pkg pkg).hbm = (s.pkg pkg).hbm ∧
        due t (evB .nmCommandComplete k r.id false) ∧ ¬ due t (evI .nmLineStep k r.id))) ∧
    (c.farBlocked r.id dva = false → c.farBlocked r.id sva = false →
      (r.kind = .nmzero → ∃ t, exec .nmLineStep s = .next t ∧ Spec.requestBecomes s t k r next ∧
        ∀ q, t.pkg q = (s.writeLine acc r.ent half dva (List.replicate 64 0)).pkg q) ∧
      (∀ x, r.kind = .nmcopy → s.readLine acc r.sent half sva = some x → ∃ t, exec .nmLineStep s = .next t ∧
        Spec.requestBecomes s t k r next ∧ ∀ q, t.pkg q = (s.writeLine acc r.ent half dva x).pkg q) ∧
      (r.kind = .nmcopy → s.readLine acc r.sent half sva = none → ∃ t, exec .nmLineStep s = .next t ∧
        Spec.requestBecomes s t k r { r with line := r.line + 1, count := r.count + 1, first := some (r.first.getD r.line) } ∧
        ∀ q, t.pkg q = (s.poisonLine r.ent dva).pkg q) ∧
      (∀ x z, r.kind = .nmcmp → s.readLine acc r.ent half dva = some z → s.readLine acc r.sent half sva = some x →
        ∃ t, exec .nmLineStep s = .next t ∧ t.pkgs = s.pkgs ∧ Spec.requestBecomes s t k r { next with
          nfin := if z ≠ x then r.nfin + 1 else r.nfin
          firstD := if z ≠ x then some (r.firstD.getD r.line) else r.firstD }) ∧
      (∀ x z, r.kind = .nmsadd ∨ r.kind = .nmsgd → s.readLine acc r.ent half dva = some z →
        s.readLine acc r.sent half sva = some x →
        let fp (w : W) : XVal := fp32.decode w.toNat
        let a (e : Nat) : XVal := fp (wordAt z e)
        let g (e : Nat) : XVal := XVal.mul (fp d.p0) (fp (wordAt x e))
        let v (e : Nat) : XVal := if r.kind = .nmsadd then XVal.add false (a e) (g e)
          else XVal.add false (XVal.add false (a e) (g e).negate) (XVal.mul (XVal.mul (fp d.p0) (fp d.p1)) (a e)).negate
        let res (e : Nat) : Nat := (fp32.encode .rne false 0 (v e)).1
        ∃ (t : State) (bs : List Byte), exec .nmLineStep s = .next t ∧ bs.length = 64 ∧
          (∀ e < 16, wordAt bs e = BitVec.ofNat 32 (res e)) ∧
          Spec.requestBecomes s t k r { next with
            nfin := r.nfin + ((List.range 16).filter fun e => decide (res e / 2 ^ 23 % 256 = 255)).length } ∧
          ∀ q, t.pkg q = (s.writeLine acc r.ent half dva bs).pkg q) ∧
      (r.kind ≠ .nmzero → r.kind ≠ .nmcopy → s.readLine acc r.ent half dva = none ∨ s.readLine acc r.sent half sva = none →
        ∃ t, exec .nmLineStep s = .next t ∧
          Spec.requestBecomes s t k r { r with line := r.line + 1, count := r.count + 1, first := some (r.first.getD r.line) } ∧
          ∀ q, t.pkg q = (if r.kind = .nmcmp then s else s.poisonLine r.ent dva).pkg q)) ∧
    (c.farBlocked r.id dva = true ∨ (r.kind ≠ .nmzero ∧ c.farBlocked r.id sva = true) →
      exec .nmLineStep s = .next { s with agenda := s.agenda ++ [⟨.die (dieOf k), y + 1, s.ev⟩] }) ∧
    (∀ g, s.ev.b = false → d.guard ≠ 0 → r.code ≠ 4 → s.readGuard acc r.gent half d.guard = some g → ∃ t,
      exec .nmCommandComplete s = .next t ∧ ∀ q, (t.pkg q).hbm =
        ((s.writeGuard acc r.gent half d.guard (g.arrive r.count (d.dst + 64 * r.first.getD 0))).pkg q).hbm) ∧
    (s.ev.b = false → d.guard = 0 → (sget [] (s.pkg pkg).nmu st).length = 1 → ∃ t, exec .nmCommandComplete s = .next t ∧
      Spec.requestBecomes s t k r { r with
        code := if r.code = 4 then 4 else if r.count = 0 then 1 else 2
        stage := .performed } ∧ sget [] (t.pkg pkg).nmu st = [] ∧ (t.pkg pkg).hbm = (s.pkg pkg).hbm) ∧
    (s.ev.b = true → r.kind.isNm = true → r.code < 16 → ∃ t, exec .nmCommandComplete s = .next t ∧
      Spec.farEnded s t k r r.out (Spec.result r 10 r.deliv ++ Spec.result r 11 (r.first.getD 0xFFFFFFFF) ++
        Spec.result r 12 r.nfin ++ Spec.result r 13 (if r.kind = .nmcmp then r.firstD.getD 0xFFFFFFFF else 0))
        r.code r.mis r.count) ∧
    (s.ev.b = true → r.kind.isNm = true → r.orphan = false → ∀ q ∈ c.far, q.kind = .nmfence → q.id ≠ r.id → r.id ∈ q.waits →
      ∃ t, exec .nmCommandComplete s = .next t ∧
        { q with
          waits := q.waits.filter (· ≠ r.id)
          count := if r.code = 2 then q.count + r.count else q.count
          code := if r.code = 2 then 2 else q.code } ∈ (t.core k).far ∧
        ((∀ n ∈ q.waits, n = r.id) → ∃ e ∈ t.agenda, e.ev = evI .nmfenceComplete k q.id)) ∧
    (r.kind = .nmfence → r.waits = [] → c.statusPending r.id = false → ∃ t,
      exec .nmfenceComplete s = .next t ∧
      Spec.farEnded s t k r r.out (Spec.result r 1 r.ncmd ++ Spec.result2 r 2 0) (if r.code = 2 then 2 else 1) r.mis r.count)

namespace Sys2Proof.Spec

open Sys2Proof Sys2Proof.Machine

/-- An event stands on an agenda. -/
def awaits (t : State) (e : Ev) : Prop := ∃ x ∈ t.agenda, x.ev = e

/-- R308, R309: a Bramble form has been at the directory, which answers OUTCOME, REFS and the key's block; the form moves
nothing, writes the bytes `out`, and its completion is on its way. -/
def answered (s t : State) (k : Nat) (r : FarReq) (outcome refs : Nat) (blk : Option Nat) (out : List (Nat × Byte)) : Prop :=
  requestBecomes s t k r { r with
    stage := .queued, outcome := outcome, refs := refs, blk := blk, out := out, pieces := [], srcLeft := [] } ∧
  awaits t ⟨.brambleComplete, k, r.id, 0, 3, true⟩

/-- R309: a block access has been translated to a block; its lines set out, a store's once its source has been read. -/
def translated (s t : State) (k : Nat) (r : FarReq) (outcome refs n : Nat) : Prop :=
  requestBecomes s t k r { r with stage := .queued, outcome := outcome, refs := refs, blk := some n, out := [] } ∧
  (r.kind = .bkload → ∀ j < r.pieces.length, awaits t ⟨.brambleComplete, k, r.id, j, 1, false⟩) ∧
  (r.kind = .bkstore → ∀ l ∈ r.srcLeft, awaits t ⟨.brambleComplete, k, r.id, l, 0, false⟩)

/-- The maps of a block store in the canonical form, keys rising, no entry that an unlisted key reads as (log 1), and its pools
within 976,562 blocks (R307). -/
def blocksCanonical (b : Bramble) : Prop :=
  swf 0 b.refs = true ∧ swf 0#8 b.data = true ∧ swf false b.poison = true ∧ ∀ x, sget 0 b.pool x ≤ 976562

/-- A block of a stack's pool that nothing uses (R307, R311). -/
def freeBlock (b : Bramble) (n : Nat) : Prop :=
  n % 2 ^ 24 < sget 0 b.pool (n / 2 ^ 24) ∧ b.ref n = 0 ∧ n ∉ b.zombie

/-- The bytes and marks of a block are those that two functions give, and the others are as they were. -/
def blockHolds (b b' : Bramble) (n : Nat) (bytes : Nat → Byte) (marks : Nat → Bool) : Prop :=
  (∀ a, b'.data.byte a = if a / 65536 = n then bytes (a % 65536) else b.data.byte a) ∧
  ∀ l, sget false b'.poison l = if l / 1024 = n then marks (l % 1024) else sget false b.poison l

/-- R309: the stack that BKALLOC takes its block from: the one with most free blocks of the issuing die, the lowest on a tie,
and where that die has none, of the package (log 32). -/
def allocStack (b : Bramble) (half st : Nat) : Prop :=
  let near (x : Nat) : Prop := x / 4 = half
  st < 8 ∧ 0 < b.free st ∧ (near st ∨ ∀ x < 8, near x → b.free x = 0) ∧
    ∀ x < 8, (near x ∨ ¬ near st) → b.free x ≤ b.free st ∧ (x < st → b.free x < b.free st)

/-- R313: the canonical code of a symbol, by the lengths of the symbols: a symbol of length n takes the value of n bits that
the codes of the symbols before it, by length and then by value, leave. -/
def sloeCode (lens : List Nat) (x : Nat) : Nat :=
  let n := lens.getD x 0
  (((List.range 16).filter fun y =>
    let m := lens.getD y 0
    decide (m ≠ 0 ∧ (m < n ∨ (m = n ∧ y < x)))).map fun y => 2 ^ (n - lens.getD y 0)).sum

/-- The code's bits, the first bit first. -/
def sloeBits (lens : List Nat) (x : Nat) : List Bool :=
  (List.range (lens.getD x 0)).map fun i => (sloeCode lens x).testBit (lens.getD x 0 - 1 - i)

end Sys2Proof.Spec

/-- R307 to R311: a Bramble form at the directory waits for the core's earlier forms to have been there, and a copy on write
for its earlier stores to the block; BKALLOC maps its key to a free block of zeros, or answers EXISTS or FULL; BKXLAT, BKSHARE
and BKFREE look the key up, share its block, take it away, or answer NOKEY, EXISTS or FULL; BKLOAD and BKSTORE are translated
to the key's block, and a BKSTORE to a shared block to a copy of it on the same stack, or answers FULL; NOKEY leaves a load
zeros (log 32's choices: which free block is taken, FULL at 4,194,304 keys for BKALLOC and BKSHARE, and the wait of a copy on
write for the core's earlier stores). -/
def Sys2Proof.Spec.BlockDirectoryAnswers : Prop :=
  ∀ (s : State) (r : FarReq),
    let k := s.ev.k
    let c := s.core k
    let pkg := pkgOf k
    let b := (s.pkg pkg).bramble
    let d := BkDesc.ofWords r.words
    let here := sget none b.keys d.key
    let full : Prop := 4194304 ≤ b.keys.length
    let again : State := { s with agenda := s.agenda ++ [⟨.die (dieOf k), s.clkOf k + 1, s.ev⟩] }
    let answers (b' : Bramble) (outcome refs : Nat) (blk : Option Nat) (out : List (Nat × Byte)) : Prop :=
      ∃ t, exec .brambleDirectoryOp s = .next t ∧ Spec.answered s t k r outcome refs blk out ∧ (t.pkg pkg).bramble = b'
    c.farReq s.ev.i = some r → r.kind.isBk = true →
    ((∃ q ∈ c.far, q.id < r.id ∧ q.kind.isBk = true ∧ (q.stage = .sent ∨ q.stage = .held)) →
      exec .brambleDirectoryOp s = .next again) ∧
    ((∀ q ∈ c.far, q.id < r.id → q.kind.isBk = true → q.stage ≠ .sent ∧ q.stage ≠ .held) →
      (here = none → r.kind ≠ .bkalloc → answers b 1 0 none
        (if r.kind = .bkload then (List.range d.len).map fun i => (r.loc + i, 0) else [])) ∧
      (∀ n, here = some n → r.kind = .bkalloc → answers b 2 (b.ref n) (some n) []) ∧
      (here = none → r.kind = .bkalloc → (∀ x < 8, b.free x = 0) ∨ full → answers b 3 0 none []) ∧
      (∀ x < 8, here = none → r.kind = .bkalloc → 0 < b.free x → ¬ full → Spec.blocksCanonical b → ∃ t n b', exec .brambleDirectoryOp s = .next t ∧
        Spec.answered s t k r 0 1 (some n) [] ∧ (t.pkg pkg).bramble = b' ∧ Spec.allocStack b (halfOf k) (n / 2 ^ 24) ∧
        Spec.freeBlock b n ∧ Spec.blockHolds b b' n (fun _ => 0) (fun _ => false) ∧
        { b' with data := b.data, poison := b.poison } =
          { b with keys := sset none b.keys d.key (some n), refs := sset 0 b.refs n 1 }) ∧
      (∀ n, here = some n → r.kind = .bkxlat → answers b 0 (b.ref n) (some n) []) ∧
      (∀ n, here = some n → r.kind = .bkshare →
        let there := sget none b.keys d.key2
        (there ≠ none → answers b 2 (b.ref n) (some n) []) ∧
        (there = none → 65535 ≤ b.ref n ∨ full → answers b 3 (b.ref n) (some n) []) ∧
        (there = none → b.ref n < 65535 → ¬ full → answers { b with
          keys := sset none b.keys d.key2 (some n), refs := sset 0 b.refs n (b.ref n + 1) } 0 (b.ref n + 1) (some n) [])) ∧
      (∀ n, here = some n → r.kind = .bkfree → 0 < b.ref n → ∃ t, exec .brambleDirectoryOp s = .next t ∧
        Spec.answered s t k r 0 0 none [] ∧ (t.pkg pkg).bramble = { b with
          keys := sset none b.keys d.key none, refs := sset 0 b.refs n (b.ref n - 1)
          zombie := if b.ref n = 1 then b.zombie ++ [n] else b.zombie } ∧
        (b.ref n = 1 → Spec.awaits t (evI .blockReturnToPool k n))) ∧
      (∀ n, here = some n → r.kind = .bkload ∨ (r.kind = .bkstore ∧ b.ref n ≤ 1) → ∃ t, exec .brambleDirectoryOp s = .next t ∧
        Spec.translated s t k r 0 (b.ref n) n ∧
        (t.pkg pkg).bramble = { b with uses := sset 0 b.uses n (sget 0 b.uses n + 1) }) ∧
      (∀ n, here = some n → r.kind = .bkstore → 1 < b.ref n →
        (b.free (n / 2 ^ 24) = 0 → answers b 3 (b.ref n) (some n) []) ∧
        (0 < b.free (n / 2 ^ 24) → c.storesTo r (some n) = true → exec .brambleDirectoryOp s = .next again) ∧
        (0 < b.free (n / 2 ^ 24) → c.storesTo r (some n) = false → Spec.blocksCanonical b → ∃ t m b', exec .brambleDirectoryOp s = .next t ∧
          Spec.translated s t k r 4 1 m ∧ (t.pkg pkg).bramble = b' ∧ m / 2 ^ 24 = n / 2 ^ 24 ∧ Spec.freeBlock b m ∧
          Spec.blockHolds b b' m (fun i => b.data.byte (65536 * n + i)) (fun i => sget false b.poison (1024 * n + i)) ∧
          { b' with data := b.data, poison := b.poison } = { b with
            keys := sset none b.keys d.key (some m), refs := sset 0 (sset 0 b.refs n (b.ref n - 1)) m 1
            uses := sset 0 b.uses m (sget 0 b.uses m + 1) })))

/-- R275, R308, R309, R311: a block access reads each line of a store's source at one time, moves its lines, each after those
of the core's earlier forms on the block, and writes what a load brings to the scratchpad, zeros for a poisoned line; after
the last it completes, OK or POISONED with its failing lines, with OUTCOME, REFS and the block; and a block without references
and accesses is free again. -/
def Sys2Proof.Spec.BlockAccessesMoveTheirLines : Prop :=
  ∀ (s : State) (r : FarReq),
    let k := s.ev.k
    let c := s.core k
    let pkg := pkgOf k
    let b := (s.pkg pkg).bramble
    let again : State := { s with agenda := s.agenda ++ [⟨.die (dieOf k), s.clkOf k + 1, s.ev⟩] }
    let last (t : State) (j : Nat) : Prop := (∀ i x, i ≠ j → r.pieces[i]? = some x → x.stage = 2) →
      Spec.awaits t ⟨.brambleComplete, k, r.id, 0, 3, true⟩
    (c.farReq s.ev.i = some r → s.ev.b = false → s.ev.w = 0 →
      let src := if r.orphan then r.src else r.src.setBytes (64 * s.ev.j) (c.sp.bytes (64 * s.ev.j) 64)
      let left := r.srcLeft.filter (· ≠ s.ev.j)
      let whole (p : Piece) : Prop := p.stage = 0 ∧ ∀ x ∈ p.at_, x.2.1 / 64 ∉ left
      ∃ t, exec .brambleComplete s = .next t ∧ t.pkgs = s.pkgs ∧ Spec.requestBecomes s t k r { r with
        srcLeft := left, src := src
        pieces := r.pieces.map fun p => if p.stage = 0 ∧ ∀ x ∈ p.at_, x.2.1 / 64 ∉ left
          then { p with data := p.at_.map (fun x => src.byte x.2.1), stage := 1 } else p } ∧
        ∀ i p, r.pieces[i]? = some p → whole p → Spec.awaits t ⟨.brambleComplete, k, r.id, i, 1, false⟩) ∧
    (∀ (j : Nat) (p : Piece) (n : Nat), c.farReq s.ev.i = some r → s.ev.b = false → s.ev.j = j → r.pieces[j]? = some p →
      r.blk = some n →
      let a := n * 65536 + p.line
      let bad := sget false b.poison (a / 64)
      (s.ev.w = 1 → c.blockBusy r p.line = true → exec .brambleComplete s = .next again) ∧
      (s.ev.w = 1 → c.blockBusy r p.line = false → r.kind = .bkstore → ∃ t, exec .brambleComplete s = .next t ∧
        (t.pkg pkg).bramble = { b with
          data := b.data.setBytes a p.data
          poison := sset false b.poison (a / 64) false } ∧
        Spec.requestBecomes s t k r (Spec.withPiece r j { p with stage := 2 }) ∧ last t j) ∧
      (s.ev.w = 1 → c.blockBusy r p.line = false → r.kind = .bkload → ∃ t, exec .brambleComplete s = .next t ∧
        t.pkgs = s.pkgs ∧ Spec.requestBecomes s t k r (Spec.withPiece r j { p with
          bad := bad, data := if bad then List.replicate 64 0 else b.data.bytes a 64, stage := 1 }) ∧
        Spec.awaits t ⟨.brambleComplete, k, r.id, j, 2, false⟩) ∧
      (2 ≤ s.ev.w → r.orphan = false → ∃ t, exec .brambleComplete s = .next t ∧ t.pkgs = s.pkgs ∧ t.columns = s.columns ∧
        (∀ i, i ≠ k → t.core i = s.core i) ∧
        (t.core k).sp = (p.at_.zip p.data).foldl (fun m x => m.setByte x.1.2.1 x.2) c.sp ∧
        (t.core k).bank0 = c.bank0 ∧ (t.core k).bank1 = c.bank1 ∧
        (t.core k).farReq r.id = some (Spec.withPiece r j { p with stage := 2 }) ∧ last t j)) ∧
    (c.farReq s.ev.i = some r → s.ev.b = true → r.kind.isBk = true →
      let n := (r.pieces.filter (·.bad)).length
      let moved (x : Nat) : Prop := r.pieces ≠ [] ∧ r.blk = some x
      let after : State := match r.pieces, r.blk with
        | _ :: _, some x => s.setPkg pkg { s.pkg pkg with bramble := { b with uses := sset 0 b.uses x (sget 0 b.uses x - 1) } }
        | _, _ => s
      ∃ t, exec .brambleComplete s = .next t ∧ Spec.farEnded after t k r r.out
          (Spec.result r 9 (r.outcome * 2 ^ 24 + r.refs) ++ (match r.blk with
            | none => []
            | some x => Spec.result r 10 x)) (if n = 0 then 1 else 2) r.mis n ∧
        ∀ x, moved x → x ∈ b.zombie → Spec.awaits t (evI .blockReturnToPool k x)) ∧
    exec .blockReturnToPool s = .next (if sget 0 b.uses s.ev.i = 0 ∧ b.ref s.ev.i = 0
      then s.setPkg pkg { s.pkg pkg with bramble := { b with zombie := b.zombie.filter (· ≠ s.ev.i) } }
      else s.setPkg pkg (s.pkg pkg))

/-- R285, R312, R314, R316, R345: TLOADZ reads the line of its directory entry and then, line by line, the bytes of the tile
that the entry names, each after the core's earlier forms on that line; once all have come it brings the tile, or zeros with
its reason, and completes: a ZERO tile reads no byte, a RAW tile comes as stored, and a bad or poisoned entry, or a line that
fails, has its reason (log 33). -/
def Sys2Proof.Spec.TloadzEventsHaveTheirEffect : Prop :=
  ∀ (s : State) (r : FarReq),
    let k := s.ev.k
    let c := s.core k
    let j := s.ev.j
    let z := SloeDesc.ofWords r.words
    let entryAt := z.dir + 8 * z.tile
    let b4 : Prop := 6 ≤ z.fmt ∧ z.fmt ≤ 9
    let tcode := (BlkTy.ofFmt z.fmt).tcode * 2 ^ 14
    let words (w : Nat) : List Byte := if b4 then ((List.range 1024).map fun _ => bytesOfNat 2 w).flatten else []
    let goes (r' : FarReq) : Prop := ∃ t, exec .tloadzComplete s = .next t ∧ t.pkgs = s.pkgs ∧ Spec.requestBecomes s t k r r'
    (c.farReq s.ev.i = some r →
      (∀ p, s.ev.b = false → r.pieces[j]? = some p →
        (s.ev.w = 1 → c.farBlocked r.id p.line = true →
          exec .tloadzComplete s = .next { s with agenda := s.agenda ++ [⟨.die (dieOf k), s.clkOf k + 1, s.ev⟩] }) ∧
        (s.ev.w = 1 → c.farBlocked r.id p.line = false →
          let l := s.readLine (pkgOf k) (if j = 0 then r.sent else r.ent) (halfOf k) p.line
          goes (Spec.withPiece r j { p with bad := l.isNone, data := l.getD [], stage := 1 })) ∧
        (s.ev.w ≠ 1 →
          let r1 := Spec.withPiece r j { p with stage := 2 }
          ((∃ q ∈ r1.pieces, q.stage ≠ 2) → goes r1) ∧
          ((∀ q ∈ r1.pieces, q.stage = 2) → r1.sloeMore ≠ [] → goes { r1 with pieces := r1.pieces ++ r1.sloeMore }) ∧
          ((∀ q ∈ r1.pieces, q.stage = 2) → r1.sloeMore = [] → goes r1.sloeDone ∧
            ∃ t, exec .tloadzComplete s = .next t ∧ ∃ x ∈ t.agenda, x.ev = evB .tloadzComplete k r.id true))) ∧
      (s.ev.b = true → r.kind = .tloadz → r.code < 16 → ∃ t, exec .tloadzComplete s = .next t ∧
        Spec.farEnded s t k r r.out (Spec.result r 11 r.deliv ++ Spec.result r 10 (r.reason * 2 ^ 24 + (match r.row with
          | none => 0
          | some i => 128 + i))) r.code r.mis r.count)) ∧
    (∀ first lines, r.pieces = first :: lines →
      let e := BitVec.ofNat 64 (natOfBytes ((first.data.drop (entryAt % 64)).take 8))
      let off := (e.extractLsb' 0 40).toNat
      let len := (e.extractLsb' 40 20).toNat
      let raw := e.getLsbD 60
      let zero := e.getLsbD 61
      let at_ := z.data + off
      let flags : Prop := e.extractLsb' 62 2 ≠ 0 ∨ (raw = true ∧ zero = true)
      let brings (codes bws : List Byte) (n : Nat) : Prop := r.sloeDone = { r with
        code := 1, count := 0, deliv := n, out := placed r.loc codes ++ placed r.bw bws, stage := .performed }
      let fails (reason : Nat) (row : Option Nat) (n : Nat) : Prop := r.sloeDone = { r with
        code := 2, count := 128, deliv := n, reason := reason, row := row, stage := .performed
        out := placed r.loc (List.replicate 8192 0) ++ placed r.bw (words (tcode + 0x3F00)) }
      (first.bad = true → r.sloeMore = [] ∧ fails 3 none 0) ∧
      (first.bad = false → flags → r.sloeMore = [] ∧ fails 1 none 0) ∧
      (first.bad = false → ¬ flags → zero = true →
        r.sloeMore = [] ∧ brings (List.replicate 8192 0) (words (tcode + 0x00FF)) 0) ∧
      (first.bad = false → ¬ flags → zero = false → entBytes r.ent < z.data % 2 ^ 30 + off + len →
        r.sloeMore = [] ∧ fails 2 none 0) ∧
      (first.bad = false → ¬ flags → zero = false → z.data % 2 ^ 30 + off + len ≤ entBytes r.ent →
        (r.sloeMore.map (·.line) = if lines = [] ∧ len ≠ 0
          then (List.range ((at_ + len - 1) / 64 - at_ / 64 + 1)).map fun i => (at_ / 64 + i) * 64 else []) ∧
        ((∃ q ∈ lines, q.bad = true) → fails 3 none 0) ∧
        ((∀ q ∈ lines, q.bad = false) →
          let bs := (((lines.map (·.data)).flatten).drop (at_ % 64)).take len
          (raw = true → len = (if b4 then 10240 else 8192) → brings (bs.take 8192) (bs.drop 8192) len) ∧
          (raw = true → len ≠ (if b4 then 10240 else 8192) → fails 6 none len) ∧
          (raw = false → match sloeTile z.fmt z.b4 bs with
            | .ok x => brings x.1 x.2 len
            | .error x => fails x.1 x.2 len))))

/-- R313, R314: a row whose bits are the canonical codes of 128 symbols and up to 7 bits more decodes to them; with more left
it is TAIL, cut off within a code SHORT; a tile has the first reason of its header in the order of R314 (a short tile is
LENGTH: log 33), and the rows of a sound one follow in turn. -/
def Sys2Proof.Spec.SloeTilesDecodeTheirCanonicalCodes : Prop :=
  (∀ (lens xs : List Nat) (bs : List Byte) (rest : List Bool), lens.length = 16 → (∀ n ∈ lens, n ≤ 12) →
    ((lens.filter (· ≠ 0)).map fun n => 2 ^ (12 - n)).sum ≤ 4096 →
    (∀ x ∈ xs, x < 16 ∧ lens.getD x 0 ≠ 0) → streamBits bs = (xs.map (Spec.sloeBits lens)).flatten ++ rest →
    (xs.length = 128 → rest.length ≤ 7 → sloeRow lens bs = .ok xs) ∧
    (xs.length = 128 → 8 ≤ rest.length → sloeRow lens bs = .error 12) ∧
    (∀ x, xs.length < 128 → x < 16 → lens.getD x 0 ≠ 0 → rest.length < lens.getD x 0 →
      rest = (Spec.sloeBits lens x).take rest.length → sloeRow lens bs = .error 10)) ∧
  (∀ (fmt : Nat) (b4 : Bool) (t : List Byte),
    let w (i : Nat) : Nat := (wordAt t i).toNat
    let lens := sloeLens t
    let magic : Prop := w 0 = 0x534C4F45
    let format : Prop := w 1 = fmt
    let length : Prop := 280 ≤ t.length ∧ w 2 = t.length ∧ (if b4 then w 3 + 2048 = t.length ∧ 280 ≤ w 3 else w 3 = 0)
    let short : Prop := ∀ n ∈ lens, n ≤ 12
    let fits : Prop := ((lens.filter (· ≠ 0)).map fun n => 2 ^ (12 - n)).sum ≤ 4096
    let area := (if b4 then w 3 else t.length) - 280
    let off (i : Nat) : Nat := natOfBytes ((t.drop (24 + 2 * i)).take 2)
    let wrong (i : Nat) : Prop := (i = 0 ∧ off 0 ≠ 0) ∨ (0 < i ∧ off i < off (i - 1)) ∨ area < off i
    (¬ magic → sloeTile fmt b4 t = .error (4, none)) ∧
    (magic → ¬ format → sloeTile fmt b4 t = .error (5, none)) ∧
    (magic → format → ¬ length → sloeTile fmt b4 t = .error (6, none)) ∧
    (magic → format → length →
      (¬ short → sloeTile fmt b4 t = .error (7, none)) ∧
      (short → ¬ fits → sloeTile fmt b4 t = .error (8, none)) ∧
      (∀ i < 128, short → fits → wrong i → (∀ j < i, ¬ wrong j) → sloeTile fmt b4 t = .error (9, some i)) ∧
      (short → fits → (∀ i < 128, ¬ wrong i) →
        let row (i : Nat) : Except Nat (List Nat) :=
          sloeRow lens ((t.drop (280 + off i)).take ((if i = 127 then area else off (i + 1)) - off i))
        (∀ i < 128, ∀ e, row i = .error e → (∀ j < i, ∃ xs, row j = .ok xs) → sloeTile fmt b4 t = .error (e, some i)) ∧
        ∀ xs : Nat → List Nat, (∀ i < 128, row i = .ok (xs i)) → sloeTile fmt b4 t =
          .ok (packBytes 2 ((List.range 128).map xs).flatten, if b4 then t.drop (w 3) else []))))

/-- R307: the directory, the lines and the pools keep the block store's maps canonical (log 1) and its pools within 976,562
blocks. -/
def Sys2Proof.Spec.BlockStoreStaysCanonical : Prop :=
  (∀ k, Spec.blocksCanonical (State.reset.pkg k).bramble) ∧
  ∀ (i : Instr) (s t : State), i ∈ [Instr.brambleDirectoryOp, .brambleComplete, .blockReturnToPool, .bkpool] →
    (∀ k, Spec.blocksCanonical (s.pkg k).bramble) → exec i s = .next t → ∀ k, Spec.blocksCanonical (t.pkg k).bramble

/-! ### Collectives (19_fabric.md) -/

namespace Sys2Proof.Spec

open Sys2Proof Sys2Proof.Machine

/-- Words 9 to 13 of a collective's descriptor (R351). -/
def collResult (r : FarReq) (outcome flags : Nat) : Option Grant → List (Nat × Byte)
  | none => result r 9 (outcome * 2 ^ 24 + flags)
  | some g => result r 9 (outcome * 2 ^ 24 + flags) ++ result r 10 g.csn.toNat ++ result r 11 g.term ++ result2 r 12 g.start

end Sys2Proof.Spec

/-- R244, R351, R352, R358, R359: a collective form whose descriptor and group its rules allow is accepted, counted unless 256
are outstanding, when it will end BUSY; so is a cancel; and CSTAT gives the sequencer's state, the links up and the collectives
outstanding. -/
def Obligations.CollectiveFormsAreAccepted : Prop :=
  ∀ (s : State) (f : FmtDA) (g : FmtD),
    let c := s.cur
    let a := (s.rs 0 f.a).toNat
    let pkg := pkgOf s.ictx.core
    (∀ x ∈ Spec.collForms, Spec.farReady s f.gn f.g a 16 64 → Spec.logsNew c →
      let w := Spec.words s a 16
      let d := CollDesc.ofWords w
      s.badGroup d pkg = false → d.bad x.2 (w.getD 5 0) (w.getD 6 0) ((s.rankOf d pkg).getD 0) = false →
      ∃ t, exec (x.1 f) s = .next t ∧ Spec.accepted s t .coll f.d a 16 [] [] ∧
        t.cur.colls = (if c.colls < 256 then c.colls + 1 else c.colls) ∧
        ∃ q ∈ t.cur.far, q.id = c.nextId ∧ q.opnd.toNat = x.2.sub ∧ q.outcome = if c.colls < 256 then 0 else 5) ∧
    (Spec.farReady s f.gn f.g a 4 16 → Spec.logsNew c →
      let d := CollDesc.ofWords (Spec.words s a 2)
      d.rsvd = false → s.badGroup d pkg = false →
      ∃ t, exec (.ccancel f) s = .next t ∧ Spec.accepted s t .ccancel f.d a 4 [] []) ∧
    (s.guard g.gn g.g = true → c.colls < 512 → ∃ w : W, exec (.cstat g) s = .next (Spec.sent s [(1, .reg g.d w)] []) ∧
      w.toNat % 512 = c.colls ∧ (∀ p < 6, w.getLsbD (16 + p) = !s.nullPort pkg p) ∧
      (w.getLsbD 31 = true ↔ ∃ y, (s.pkg pkg).medlar.lastBeat = some y ∧ s.fab ≤ y + 64000))

/-- R355, R356: a wire sum over at most 8,192 participants does not depend on their order, and it is NANW exactly when a
contribution is. -/
def Obligations.WireSumsDoNotDependOnOrder : Prop :=
  ∀ (d : CollDesc) (ps qs : Parts) (e : Nat), ps.length ≤ 8192 → ps.Perm qs →
    d.sumAt ps e = d.sumAt qs e ∧
    (d.sumAt ps e = nanw ↔ ∃ x ∈ ps.filterMap id, (d.toWire (elemAt (sideBits d.win d.ifmt) x.1 e)).1 = nanw) ∧
    (d.sumAt ps e ≠ nanw → d.sumAt ps e =
      ((ps.filterMap id).map fun x => (d.toWire (elemAt (sideBits d.win d.ifmt) x.1 e)).1).sum)

/-- R349, R350, R353, R354, R356 to R358, R360: a request leaves its package for the primary; a first request for an identity
makes a record there; a grant of a term not passed is kept, starts at START, and is late when START has passed, and a void one
ends what an earlier one had scheduled; a collective that starts reads its input flit by flit in its window, lacks the flits
of links that are down, writes OUT by the window's end and completes in the next die cycle; completion writes FLAGS, OUTCOME
and the grant, then STATUS; a late participant ends POISONED, and a void collective LOST with its outcome. The cycles of the
reads, the cycle of OUT within the rules' bounds, the COUNT of a late participant, and what a late or void one writes to words
10 to 13 are log 26's. -/
def Sys2Proof.Spec.CollectiveEventsAct : Prop :=
  ∀ (s : State) (r : FarReq) (pc : PkgColl) (g : Grant) (m : Msg),
    let k := s.ev.k
    let c := s.core k
    let pkg := pkgOf k
    (c.farReq s.ev.i = some r → s.ev.b = true → r.outcome ≠ 5 → ∃ (t : State) (m' : Msg) (q : PrimReq) (n : PkgColl),
      exec .collRequestAtPrimary s = .next t ∧ t.cores = s.cores ∧ t.msgs = s.msgs ++ [m'] ∧ m'.src = pkg ∧
      m'.dst = (s.pkg pkg).medlar.leader ∧ m'.body = .request r.tag (r.words.getD 0 0) q ∧ q.pkg = pkg ∧ q.core = k ∧ q.far = r.id ∧
      q.word1 = r.words.getD 1 0 ∧ (t.pkg pkg).colls = (s.pkg pkg).colls ++ [n] ∧ n.id = q.id ∧ n.far = r.id ∧
      n.grant = none ∧ n.words = r.words) ∧
    (∀ (tag ctag : W) (q : PrimReq), s.ev.b = false → s.msg s.ev.i = some m → m.body = .request tag ctag q →
      let u := (s.pkg k).medlar
      u.primary = true → u.colls = [] → u.down = [] → 1 < (CollDesc.ofWords ([ctag, q.word1, 0, 0] ++ q.fields)).count →
      ∃ (t : State) (n : PrimColl), exec .collRequestAtPrimary s = .next t ∧ t.cores = s.cores ∧
        (t.pkg k).medlar.colls = [n] ∧ n.tag = tag ∧ n.ctag = ctag ∧ n.box = q.word1 ∧ n.reqs = [q] ∧ n.csn = none ∧
        n.void_ = none ∧ t.msgs = s.msgs) ∧
    (∀ core far coll, s.msg s.ev.i = some m → m.body = .grant core far coll g → (s.pkg k).medlar.term ≤ g.term →
      (∀ x, (s.pkg k).coll coll = some x → x.running = false) → ∃ t, exec .grantReceived s = .next t ∧ t.cores = s.cores ∧
        (t.pkg k).medlar.term = g.term ∧
        ((s.pkg k).medlar.term < g.term → (t.pkg k).medlar.lastBeat = none ∧ (t.pkg k).medlar.primary = false) ∧
        (t.pkg k).colls = (s.pkg k).colls.map (fun x => if x.id = coll then
          { x with grant := some g, late_ := g.void_.isNone && decide (g.start < s.fab) } else x) ∧
        (∀ e ∈ s.agenda, e.ev ≠ evI .collectiveStart k coll → e.ev ≠ evK .failover k → e ∈ t.agenda) ∧
        (∀ e ∈ t.agenda, e.ev = evI .collectiveStart k coll → g.void_ = none ∧ s.fab ≤ g.start ∧ e.at_ = g.start) ∧
        (g.void_ = none → s.fab ≤ g.start → ⟨.fabric, g.start, evI .collectiveStart k coll⟩ ∈ t.agenda) ∧
        ∀ o, g.void_ = some o → ⟨.die (dieOf core), (s.die (dieOf core)).clkFrom (max g.start s.fab + 1),
          ⟨.voidCollectiveComplete, core, far, coll, o.code, false⟩⟩ ∈ t.agenda) ∧
    ((s.pkg k).coll s.ev.i = some pc → pc.grant = some g →
      let d := CollDesc.ofWords pc.words
      let at_ (y : Nat) (w : Nat) : Due := ⟨.die (dieOf pc.core), y, ⟨.collectiveComplete, pc.core, pc.far, pc.id, w, false⟩⟩
      let y := (s.die (dieOf pc.core)).clkFrom (g.start + d.window pc.kind + 1)
      let bytes := (s.core pc.core).sp.bytes d.in_ (d.inBytes pc.kind ((s.rankOf d k).getD 0))
      let per := if pc.kind.sums then sideBytes d.win d.ifmt 32 else 256
      (g.void_.isSome = true → exec .collectiveStart s = .next s) ∧
      (g.void_ = none → s.ev.j = 0 → ∃ t, exec .collectiveStart s = .next t ∧ t.cores = s.cores ∧
        (∃ l, (t.pkg k).coll s.ev.i = some { pc with running := true, input := bytes, lost := pc.lost ++ l } ∧
          ((∀ p < 6, s.nullPort k p = false) → l = [])) ∧
        (∀ e ∈ s.agenda, e ∈ t.agenda) ∧ at_ (y - 1) 0 ∈ t.agenda ∧ at_ y 1 ∈ t.agenda ∧
        ∀ f < ceilDiv bytes.length per, ∃ e ∈ t.agenda, e.dom = .fabric ∧ e.ev = evJ .collectiveStart k pc.id (f + 1) ∧
          g.start ≤ e.at_ ∧ e.at_ + 32 < g.start + d.window pc.kind) ∧
      (∀ f, g.void_ = none → s.ev.j = f + 1 →
        let n := min per (pc.input.length - f * per)
        ∃ t, exec .collectiveStart s = .next t ∧ t.cores = s.cores ∧ t.agenda = s.agenda ∧
          (t.pkg k).coll s.ev.i = some { pc with
            input := pc.input.take (f * per) ++ (s.core pc.core).sp.bytes (d.in_ + f * per) n ++ pc.input.drop (f * per + n) })) ∧
    (c.farReq s.ev.i = some r → (s.pkg pkg).coll s.ev.j = some pc → pc.grant = some g → r.orphan = false →
      (pc.late_ = true → ∃ t n, exec .collectiveComplete s = .next t ∧ (t.core k).colls = c.colls - 1 ∧
        Spec.farEnded s t k r r.out (Spec.collResult r 3 0 (some g)) 2 r.mis n) ∧
      (pc.late_ = false → s.ev.w = 1 → r.code < 16 → ∃ t, exec .collectiveComplete s = .next t ∧
        (t.core k).colls = c.colls - 1 ∧ Spec.farEnded s t k r r.out (Spec.collResult r 0 r.nfin (some g)) r.code r.mis r.count) ∧
      (pc.late_ = false → s.ev.w ≠ 1 →
        let d := CollDesc.ofWords pc.words
        let rank := (s.rankOf d pkg).getD 0
        let o := if pc.kind.sums then d.reduced pc.kind (s.parts d g.csn) rank (c.sp.bytes d.out (d.outBytes pc.kind))
          else d.moved pc.kind (s.parts d g.csn) rank
        ∃ t, exec .collectiveComplete s = .next t ∧ t.pkgs = s.pkgs ∧ t.columns = s.columns ∧
          (∀ j, j ≠ k → t.core j = s.core j) ∧ (t.core k).sp = o.bytes.foldl (fun p x => p.setByte x.1 x.2) c.sp ∧
          (t.core k).bank0 = c.bank0 ∧ (t.core k).bank1 = c.bank1 ∧ (t.core k).colls = c.colls ∧
          (t.core k).farReq r.id = some { r with
            code := if o.count = 0 then 1 else 2, count := o.count, nfin := o.flags.bits })) ∧
    (c.farReq s.ev.i = some r → r.orphan = false → r.outcome ≠ 5 → s.ev.w ≠ 5 →
      ((s.pkg pkg).colls.find? fun x => x.core = k ∧ x.far = r.id) = some pc → ∃ t,
      exec .voidCollectiveComplete s = .next t ∧ (t.core k).colls = c.colls - 1 ∧
      Spec.farEnded s t k r r.out (Spec.collResult r s.ev.w 0 pc.grant) 5 r.mis 0)

/-- R351, R353: the package at offset (i, j, k) of the box, wrapping, has rank i + NX·(j + NY·k), and the participants stand in
rank order. -/
def Sys2Proof.Spec.RanksHaveTheirPlaces : Prop :=
  ∀ (s : State) (d : CollDesc) (i j k : Nat), s.dx ≤ 32 → s.dy ≤ 16 → s.dz ≤ 16 → d.nx ≤ s.dx → d.ny ≤ s.dy → d.nz ≤ s.dz →
    i < d.nx → j < d.ny → k < d.nz →
    let p := mkPkg ((d.x0 + i) % s.dx) ((d.y0 + j) % s.dy) ((d.z0 + k) % s.dz)
    s.rankOf d p = some (i + d.nx * (j + d.ny * k)) ∧ (s.boxPkgs d)[i + d.nx * (j + d.ny * k)]? = some p

/-- R355, R356: a wire word given as input is clipped to ±(2^49 − 1) with OVF, NANW kept; an output word is stored whole, or is
the exact W·2^S converted to OFMT, NANW the outcome of a NaN with NAN and NFIN. -/
def Sys2Proof.Spec.WireWordsAreConverted : Prop :=
  ∀ (d : CollDesc) (w : BitVec 64),
    let top : Int := 2 ^ 49 - 1
    (d.win = true → w.toInt = -(2 ^ 63) → d.toWire w.toNat = (-(2 ^ 63), Flags.none)) ∧
    (d.win = true → w.toInt ≠ -(2 ^ 63) → d.toWire w.toNat =
      if top < w.toInt then (top, Flags.ovfOnly) else if w.toInt < -top then (-top, Flags.ovfOnly) else (w.toInt, Flags.none)) ∧
    (d.wout = true → d.fromWire w.toInt = (w.toNat, Flags.none)) ∧
    (d.wout = false →
      let e (x : XVal) := encodeElem d.ofmt d.ote (RMode.ofCode d.mode 0) false 0 x
      (w.toInt = -(2 ^ 63) → d.fromWire w.toInt = ((e .nan).1, Flags.nanNfin)) ∧
      (w.toInt ≠ -(2 ^ 63) → d.fromWire w.toInt = e ((XVal.ofInt w.toInt).scale d.sexp)))

/-- R353, R355, R356, R360: OUT of a participant: an element of AR or RS is delivered from the sum over the ranks of its wire
words (NANW where one is), a byte of AG or BC is its source's; an element or byte of a poisoned flit keeps its old bits, and
COUNT is the number of flits with one. -/
def Sys2Proof.Spec.CollectivesDeliverTheirResults : Prop :=
  ∀ (d : CollDesc) (ps : Parts) (kind : CollKind) (r : Nat) (old : List Byte), ps.length = d.count → d.count ≤ 8192 →
    r < d.count → old.length = d.outBytes kind →
    let after (o : CollOut) : List Byte := (List.range old.length).map fun i =>
      ((o.bytes.find? fun x => x.1 = d.out + i).map (·.2)).getD (old.getD i 0)
    (kind = .ar ∨ kind = .rs →
      let o := d.reduced kind ps r old
      let b := if d.wout then 64 else storedBits d.ofmt
      let n := if kind = .rs then d.n / d.count else d.n
      let first := if kind = .rs then r * n else 0
      let words (e : Nat) : List Int := (ps.filterMap id).map fun x => (d.toWire (elemAt (sideBits d.win d.ifmt) x.1 e)).1
      let word (e : Nat) : Int := if nanw ∈ words e then nanw else (words e).sum
      (∀ e < n, elemAt b (after o) e = if d.badFlit kind ps ((first + e) / 32) r then elemAt b old e
        else (d.fromWire (word (first + e))).1 % 2 ^ b) ∧
      o.count = ((List.range (ceilDiv d.n 32)).filter fun f =>
        d.badFlit kind ps f r && (List.range n).any fun e => (first + e) / 32 = f).length) ∧
    (kind = .ag ∨ kind = .bc → 0 < d.n →
      let o := d.moved kind ps r
      let src (i : Nat) : Nat := if kind = .ag then i / d.n else d.root
      let bad (i : Nat) : Bool := if kind = .ag then d.badGather ps (i / 256) (src i) r else d.badFlit kind ps (i / 256) r
      (∀ i < old.length, (after o).getD i 0 = if bad i then old.getD i 0
        else (((ps.getD (src i) none).map (·.1)).getD []).getD (i % d.n) 0) ∧
      o.count = ((List.range (ceilDiv old.length 256)).filter fun f =>
        (List.range old.length).any fun i => i / 256 = f && bad i).length)

/-- R360: which flits are poisoned. None where every participant runs and none is lost; a flit lost on the way to the origin,
or a participant that does not run, poisons a reduction at every rank, a broadcast where it lies on the root's way, and a
gather's bytes that came that way at every rank but their own; one lost on the return path poisons it where it was due and
onward. -/
def Sys2Proof.Spec.LostFlitsPoisonWhatTheyCarried : Prop :=
  ∀ (d : CollDesc) (ps : Parts) (kind : CollKind) (f r q : Nat), ps.length = d.count → r < d.count → q < d.count →
    d.root < d.count →
    let lostFrom (p : Nat) : Prop := ∃ x < d.count, ∃ port ∈ [0, 2, 4], cameOver port (d.place x) (d.place p) = true ∧
      ps.lostAt x f port = true
    let lostBack : Prop := ∃ x < d.count, onReturn (d.place x) (d.place r) = true ∧
      ∃ port, returnPort (d.place x) = some port ∧ ps.lostAt x f port = true
    let present : Prop := ∀ x < d.count, ps.getD x none ≠ none
    ((∀ x ∈ ps, ∃ bs, x = some (bs, [])) → d.badFlit kind ps f r = false ∧ d.badGather ps f q r = false) ∧
    (kind ≠ .bc → ¬ present ∨ lostFrom q ∨ lostBack → d.badFlit kind ps f r = true) ∧
    (lostFrom d.root ∨ lostBack → d.badFlit .bc ps f r = true) ∧
    (present → ¬ lostFrom d.root → ¬ lostBack → d.badFlit .bc ps f r = false) ∧
    (q ≠ r → lostFrom q ∨ lostBack → d.badGather ps f q r = true) ∧
    (present → ¬ lostFrom q → ¬ lostBack → d.badGather ps f q r = false) ∧ d.badGather ps f r r = false

/-- R358, R361: a cancel goes to the primary, voids an identity not known there, and comes back with its result, which
completes it; a heartbeat of a term not passed is noted, a former primary of a lower term becomes standby, and the primary
sends one to every package, once it has booted, and again 16,000 fabric cycles later; a standby that has heard none for 64,000
is primary of the next term and collects the requests; a package that takes a term not lower reports its links down and its
requests and keeps no grant of an older term that has not started; and numbering goes on after the greatest number reported
(log 27). -/
def Obligations.SequencerEventsHaveTheirEffect : Prop :=
  ∀ (s : State) (r : FarReq) (m : Msg),
    let k := s.ev.k
    let c := s.core k
    let u := (s.pkg k).medlar
    (c.farReq s.ev.i = some r → s.ev.b = true → s.ev.w = 1 → ∃ (t : State) (m' : Msg), exec .cancelAtPrimary s = .next t ∧
      t.cores = s.cores ∧ t.pkgs = s.pkgs ∧ t.msgs = s.msgs ++ [m'] ∧ m'.dst = (s.pkg (pkgOf k)).medlar.leader ∧
      m'.body = .cancel k r.id r.tag (r.words.getD 0 0) (r.words.getD 1 0)) ∧
    (∀ core far tag ctag box, s.msg s.ev.i = some m → m.body = .cancel core far tag ctag box → s.ev.b = false →
      u.primary = true → u.colls = [] → u.awaiting = [] → ∃ (t : State) (m' : Msg) (n : PrimColl),
      exec .cancelAtPrimary s = .next t ∧ t.cores = s.cores ∧ (t.pkg k).medlar.colls = [n] ∧ n.tag = tag ∧ n.ctag = ctag ∧
      n.box = box ∧ n.void_ = some .cancelled ∧ n.csn = some u.nextCsn ∧ (t.pkg k).medlar.nextCsn = u.nextCsn + 1 ∧
      t.msgs = s.msgs ++ [m'] ∧ m'.dst = m.src ∧ m'.body = .cancelled core far 0) ∧
    (c.farReq s.ev.i = some r → s.ev.b = true → s.ev.w = 3 → ∃ t, exec .cancelAtPrimary s = .next t ∧
      Spec.farEnded s t k r r.out (Spec.result r 3 (s.ev.j * 2 ^ 24)) 1 r.mis 0) ∧
    (s.ev.b = true → u.term ≤ s.ev.w → ∃ t, exec .heartbeat s = .next t ∧ t.cores = s.cores ∧
      (t.pkg k).medlar = { u with
        term := s.ev.w, lastBeat := some s.fab, primary := u.primary && decide (s.ev.w ≤ u.term)
        standby := u.standby || (u.primary && decide (u.term < s.ev.w)), leader := s.ev.i } ∧
      ((t.pkg k).medlar.standby = true → ⟨.fabric, s.fab + 64000, evK .failover k⟩ ∈ t.agenda)) ∧
    (s.ev.b = false → u.primary = true → (s.pkg k).ready = false →
      exec .heartbeat s = .next { s with agenda := s.agenda ++ [⟨.fabric, s.fab + 1, evK .heartbeat k⟩] }) ∧
    (s.ev.b = false → u.primary = true → (s.pkg k).ready = true → ∃ t, exec .heartbeat s = .next t ∧ t.cores = s.cores ∧
      t.pkgs = s.pkgs ∧ ⟨.fabric, s.fab + 16000, evK .heartbeat k⟩ ∈ t.agenda ∧
      t.msgs.length = s.msgs.length + s.podPkgs.length ∧
      ∀ p ∈ s.podPkgs, ∃ n ∈ t.msgs, n.src = k ∧ n.dst = p ∧ n.body = .beat u.term) ∧
    (u.standby = true → u.primary = false → (∀ f, u.lastBeat = some f → f + 64000 ≤ s.fab) → ∃ t,
      exec .failover s = .next t ∧ t.cores = s.cores ∧
      (t.pkg k).medlar = { u with
        term := u.term + 1, primary := true, standby := false, lastBeat := none, colls := [], down := [], busy := [], leader := k
        awaiting := s.podPkgs.filter (s.reaches k), resumeBy := some (s.fab + 1600000) } ∧
      ⟨.fabric, s.fab, evK .heartbeat k⟩ ∈ t.agenda ∧
      ⟨.fabric, s.fab + 1600000, evB .numberingResume k 0 false⟩ ∈ t.agenda ∧
      ∀ p ∈ s.podPkgs, ∃ n ∈ t.msgs, n.dst = p ∧ n.body = .collect (u.term + 1)) ∧
    (u.term ≤ s.ev.w → ∃ (t : State) (m' : Msg) (busy : Nat) (reqs : List (W × W × PrimReq)),
      exec .collectRequest s = .next t ∧
      t.cores = s.cores ∧ (t.pkg k).medlar.term = s.ev.w ∧ t.msgs = s.msgs ++ [m'] ∧ m'.src = k ∧ m'.dst = s.ev.i ∧
      m'.body = .report k s.ev.w u.maxCsn busy ((List.range 6).filter fun i => decide (1 < s.extentOf i) && s.nullPort k i)
        reqs ∧
      (∀ x ∈ (s.pkg k).colls, ∀ g, x.grant = some g → g.void_ = none → g.start ≤ s.fab →
        g.start + (CollDesc.ofWords x.words).window x.kind ≤ busy) ∧
      ∀ x ∈ (t.pkg k).colls, ∀ g, x.grant = some g → ((s.core x.core).farReq x.far).isSome = true →
        g.start ≤ s.fab ∨ s.ev.w ≤ g.term) ∧
    (s.ev.b = false → u.resumeBy.isSome = true → u.colls = [] → ∃ t, exec .numberingResume s = .next t ∧
      t.cores = s.cores ∧ t.msgs = s.msgs ∧ (t.pkg k).medlar =
        { u with awaiting := [], resumeBy := none, nextCsn := (u.maxCsn.map (· + 1)).getD 0 })

/-! ### The package and its host (16_package_memory.md, 17_package_system.md) -/

namespace Sys2Proof.Spec

open Sys2Proof Sys2Proof.Machine

/-- R324, step 4: a command has completed from the state u, which holds its effect: the journal has one entry more, the command
is done, and word 15 of its slot names its accept entry, word 14 its status; nothing else differs. -/
def completed (u t : State) (k : Nat) (c : HostCmd) (status named : Nat) : Prop :=
  let p := u.pkg k
  t.cores = u.cores ∧ t.columns = u.columns ∧ t.dies = u.dies ∧ (∀ j, j ≠ k → t.pkg j = u.pkg j) ∧
    ∃ j, t.pkg k = { p with
      cmd := none, jrnlSeq := p.jrnlSeq + 1, journal := j
      host := (p.host.setNat (c.slot + 60) 4 named).setNat (c.slot + 56) 4 status }

/-- A package in which an agent owns. -/
def owner (p : Pkg) (agent : Nat) : Prop := p.ownerValid = true ∧ p.owner.toNat = agent

/-- DENY of an agent set (R322). -/
def denied (p : Pkg) (agent : Nat) : Pkg := { p with deny := p.deny ||| (1#4 <<< agent) }

/-- R7, R328, R329, R340, R359: a package reset: its cores and columns are at their reset values but for what the array test
found, its dies but for their clock's place in the pod, and the package but for what outlives a reset (log 38); its links are
down at both ends, and its commands have left the near-memory units; it will boot, and what is not of the package is as it
was. -/
def packageReset (s t : State) (k : Nat) (trip : Bool) : Prop :=
  (∀ j, t.core j = if j / 1024 = k then { Core.reset with rowOff := (s.core j).rowOff, retired := (s.core j).retired }
    else s.core j) ∧
  (∀ j, t.col j = if j / 256 = k then { Column.reset with spares := (s.col j).spares, retired := (s.col j).retired }
    else s.col j) ∧
  (∀ d, t.die d = if d / 2 = k then { Die.reset with phi := (s.die d).phi, baseFab := s.fab }
    else s.die d) ∧
  (∀ p, p ≠ k → { t.pkg p with ports := (s.pkg p).ports, colls := (s.pkg p).colls, nmu := (s.pkg p).nmu } = s.pkg p) ∧
  (∀ p, ∀ st < 8, sget [] (t.pkg p).nmu st = (sget [] (s.pkg p).nmu st).filter fun x => pkgOf x.1 ≠ k) ∧
  (∀ i < 6, s.nullPort k i = false → t.nullPort k i = true ∧ t.nullPort (s.portTo k i) (oppositePort i) = true) ∧
  (let p := s.pkg k
   let q := t.pkg k
   q.ready = false ∧ q.ownerValid = false ∧ q.epoch = 0 ∧ q.cmdHead = 0 ∧ q.cmdTail = 0 ∧ q.cmdBase = 0 ∧ q.tcold = 0 ∧
    q.deny = 0 ∧ q.recov = false ∧ q.hbm = [] ∧ q.tier = p.tier ∧ q.journal = p.journal ∧ q.jrnlSeq = p.jrnlSeq ∧
    q.host = p.host ∧ q.slot0 = p.slot0 ∧ q.slot1 = p.slot1 ∧ q.fwA = p.fwA ∧ q.fwB = p.fwB) ∧
  ∃ d ∈ t.agenda, d.ev = evB .bootComplete k 0 trip

/-- R40, R216, R242, R329, R336: the state v of a package whose boot has run its firmware and its array test: the digest of the
image and of the configuration in the measurement registers, and what the test found taken out. -/
def tested (s v : State) (k : Nat) (image : BitVec 256) : Prop :=
  let p := s.pkg k
  let q := v.pkg k
  q.measure0 = image ∧ q.measure1 = Config.firmwareConfig (s.configBytes k) ∧ q.recov = false ∧ q.ready = p.ready ∧
    q.host = p.host ∧ q.cmd = p.cmd ∧ q.jrnlSeq = p.jrnlSeq ∧
    ∀ h < 2, ∀ l < 4, ∀ i < 72,
      (v.core ((2 * k + h) * 512 + l * 128 + i)).retired =
        (decide (4 < onesIn (Config.failingRows s.fresh ((2 * k + h) * 512 + l * 128 + i))) ||
          Config.failingAcc s.fresh ((2 * k + h) * 512 + l * 128 + i) ||
          decide (8 < (Config.failingWires s.fresh ((2 * k + h) * 128 + i)).length)) ∧
      (v.col ((2 * k + h) * 128 + i)).spares = (Config.failingWires s.fresh ((2 * k + h) * 128 + i)).take 8

/-- R319, R321: the state u of a package restored from the checkpoint x: its dies have the checkpoint's tasks, queued and not
begun, and its fault logs, and their phase counters as they were; its blocks are the checkpoint's, and nothing moves or is
copied. -/
def deviceRestored (v u : State) (k : Nat) (x : DevCkpt) : Prop :=
  (∀ h < 2, ∀ d, x.dies[h]? = some d →
    let e := u.die (2 * k + h)
    e.tasks.map (·.desc) = d.tasks.map (·.desc) ∧ (∀ z ∈ e.tasks, z.place = .queued ∧ z.started = false) ∧
      e.log = d.log ∧ e.logLost = d.logLost ∧ e.phase = (v.die (2 * k + h)).phase) ∧
    (u.pkg k).bramble = x.bramble ∧ (u.pkg k).moves = [] ∧ (u.pkg k).copying = none

/-- R327, R329: the end of a boot: READY is set and the boot has its journal entry once no command is pending; until then the
boot looks again in the next fabric cycle. -/
def bootEnds (w t : State) (k : Nat) : Prop :=
  ((w.pkg k).cmd = none → (t.pkg k).ready = true ∧ (t.pkg k).jrnlSeq = (w.pkg k).jrnlSeq + 1 ∧ t.cores = w.cores ∧
    t.columns = w.columns ∧ t.dies = w.dies) ∧
  ((w.pkg k).cmd ≠ none → t = { w with agenda := w.agenda ++ [⟨.fabric, w.fab + 1, ⟨.bootComplete, k, 0, 1, 0, false⟩⟩] })

end Sys2Proof.Spec

/-- R322, R323, R326: a write of the window by the owner changes the register and no other, and by another agent only its DENY
bit, but for a write of OWN_CLAIM, which claims, and of its own DENY bit, which clears it; OWN_BEAT is a beat; the lowest of
the agents that claim a package without an owner becomes owner, with the epoch advanced, and the others are denied; a beat of
the owner renews its lease of 640,000,000 fabric cycles; a lease that has run out ends the ownership; and a handover window
that ends leaves it. -/
def Obligations.OwnershipEventsHaveTheirEffect : Prop :=
  ∀ s : State,
    let k := s.ev.k
    let p := s.pkg k
    let a := s.ev.i % 4
    let v : W := BitVec.ofNat 32 s.ev.w
    (p.recov = false → Spec.owner p a →
      (s.ev.j = 0x20 → exec .registerWrite s = .next (s.setPkg k { p with
        cmdBase := p.cmdBase.extractLsb' 32 32 ++ (v &&& 0xFFFFF000#32) })) ∧
      (s.ev.j = 0x24 → exec .registerWrite s = .next (s.setPkg k { p with cmdBase := v ++ p.cmdBase.extractLsb' 0 32 })) ∧
      (s.ev.j = 0x28 → exec .registerWrite s = .next (s.setPkg k { p with cmdTail := v.extractLsb' 0 8 })) ∧
      (s.ev.j = 0x38 → exec .registerWrite s = .next (s.setPkg k { p with tcold := v.extractLsb' 0 16 })) ∧
      (∀ h < 2, s.ev.j = 0x10008 + 0x10000 * h → exec .registerWrite s =
        .next (s.setDie (2 * k + h) { s.die (2 * k + h) with margin := v.extractLsb' 0 8 })) ∧
      (∀ h < 2, ∀ q < 16, s.ev.j = 0x10040 + 0x10000 * h + 4 * q → exec .registerWrite s =
        .next (s.setDie (2 * k + h) { s.die (2 * k + h) with qslice := sset 0 (s.die (2 * k + h)).qslice q v }))) ∧
    (p.recov = false → s.ev.j = 0x10 → p.handover = none →
      (p.ownerValid = false → ∃ t, exec .registerWrite s = .next t ∧ Spec.owner (t.pkg k) a ∧
        (t.pkg k).epoch = p.epoch + 1 ∧ (t.pkg k).deny = p.deny ∧
        ⟨.fabric, s.fab + 640000000, evK .ownerLeaseExpiry k⟩ ∈ t.agenda) ∧
      (p.ownerValid = true → ¬ Spec.owner p a → exec .registerWrite s = .next (s.setPkg k (Spec.denied p a)))) ∧
    (p.recov = false → s.ev.j = 0x18 → v.getLsbD 4 = true →
      exec .registerWrite s = .next (s.setPkg k { p with deny := p.deny &&& ~~~(1#4 <<< a) })) ∧
    (p.recov = false → s.ev.j = 0x14 → Spec.owner p a → ∃ t, exec .registerWrite s = .next t ∧
      t.pkg k = { p with lastBeat := s.fab } ∧ ⟨.fabric, s.fab + 640000000, evK .ownerLeaseExpiry k⟩ ∈ t.agenda) ∧
    (p.recov = false → s.ev.j ≠ 0x10 → ¬ (s.ev.j = 0x18 ∧ v.getLsbD 4 = true) → ¬ Spec.owner p a → exec .registerWrite s = .next (s.setPkg k (Spec.denied p a))) ∧
    (p.recov = false → exec .denyClear s = .next (s.setPkg k { p with deny := p.deny &&& ~~~(1#4 <<< a) })) ∧
    (∀ b < 4, p.recov = false → p.ownerValid = false → p.handover = none → (BitVec.ofNat 4 s.ev.w).getLsbD b = true →
      (∀ x < b, (BitVec.ofNat 4 s.ev.w).getLsbD x = false) → ∃ t, exec .ownClaim s = .next t ∧
      Spec.owner (t.pkg k) b ∧ (t.pkg k).epoch = p.epoch + 1 ∧ (t.pkg k).jrnlSeq = p.jrnlSeq + 1 ∧
      (∀ x < 4, (t.pkg k).deny.getLsbD x = (p.deny.getLsbD x || (decide (x ≠ b) && (BitVec.ofNat 4 s.ev.w).getLsbD x))) ∧
      ⟨.fabric, s.fab + 640000000, evK .ownerLeaseExpiry k⟩ ∈ t.agenda ∧ t.cores = s.cores ∧ t.dies = s.dies) ∧
    (p.recov = false → Spec.owner p a → ∃ t, exec .ownBeat s = .next t ∧ t.pkg k = { p with lastBeat := s.fab } ∧
      ⟨.fabric, s.fab + 640000000, evK .ownerLeaseExpiry k⟩ ∈ t.agenda ∧ t.cores = s.cores ∧ t.dies = s.dies) ∧
    (p.recov = false → ¬ Spec.owner p a → exec .ownBeat s = .next (s.setPkg k (Spec.denied p a))) ∧
    (p.ownerValid = true → p.lastBeat + 640000000 ≤ s.fab → ∃ t j, exec .ownerLeaseExpiry s = .next t ∧
      t = s.setPkg k { p with ownerValid := false, epoch := p.epoch + 1, jrnlSeq := p.jrnlSeq + 1, journal := j }) ∧
    (∀ b e, p.handover = some (b, e) → e ≤ s.fab →
      exec .handoverWindowExpiry s = .next (s.setPkg k { p with handover := none }))

/-- R249 to R251, R265, R307, R320, R321, R324 to R328, R330: a command that the device has taken and whose TOKEN is not that
of an earlier one is performed and completes with its status: SUBMIT queues the task of a good descriptor and refuses a bad
one with a record; PREEMPT, RESUME and DISCARD act on a resident, a held and a queued task; the guard commands act at a guard
in the host's name; LOGREAD, BKPOOL, HANDOVER and ATTEST have their effects; CKPT waits for both dies; RESTORE needs a
committed checkpoint; an unknown command is BADCMD; and a repeated TOKEN is a DUPLICATE without effect. The places of a
command's arguments, which cases are BADCMD and which REFUSED, and the number a DUPLICATE names are log 35's; the guard a
command reaches log 36's; what RESTORE writes back log 42's; the layout of ATTEST's report log 43's. -/
def Obligations.HostCommandsHaveTheirEffect : Prop :=
  ∀ (s : State) (c : HostCmd),
    let k := s.ev.k
    let p := s.pkg k
    let h := (c.word 3).toNat
    let die := 2 * k + h
    let d := s.die die
    let seq := c.acceptSeq % 2 ^ 32
    let hostAs (m : Memory) : State := s.setPkg k { p with host := m }
    p.cmd = some c → c.waiting = false →
    (∀ n, p.duplicateOf c = some n → ∀ i ∈ [Instr.submit, .preempt, .resume, .discard, .hgacq, .hgrel, .gfree, .logread, .ckpt,
        .restore, .bkpool, .handover, .attest, .unknownCommand],
      ∃ t, exec i s = .next t ∧ Spec.completed s t k c 5 (n % 2 ^ 32)) ∧
    (p.duplicateOf c = none →
      (∃ t, exec .unknownCommand s = .next t ∧ Spec.completed s t k c 3 seq) ∧
      (2 ≤ h → ∀ i ∈ [Instr.submit, .preempt, .resume, .discard, .logread, .ckpt, .restore],
        ∃ t, exec i s = .next t ∧ Spec.completed s t k c 3 seq) ∧
      (h < 2 → (c.word 4).toNat < 16 →
        let td := s.readDescriptor k (c.addr 5)
        let table := td.table
        let ok := s.descriptorOk k (c.addr 5) td = true ∧ s.submitOk die (c.word 4).toNat td table = true
        (ok → ∃ t u task, exec .submit s = .next t ∧ Spec.completed u t k c 1 seq ∧ u.pkgs = s.pkgs ∧
          u.cores = s.cores ∧ (u.die die).tasks = d.tasks ++ [task] ∧ task.desc = td ∧ task.queue = (c.word 4).toNat ∧
          task.isResident = false ∧ task.table = table) ∧
        (¬ ok → ∃ t u, exec .submit s = .next t ∧ Spec.completed u t k c 2 seq ∧ u.cores = s.cores ∧
          (u.die die).tasks = d.tasks ∧ (d.log.length < 4096 →
            (u.die die).log = d.log ++ [logRecord 6 td.tag d.phase 0 0 0 0 []]) ∧
          (u.pkg k).host = p.host.setBytes td.compl (wordBytes [td.tag, 2, d.phase.extractLsb' 0 32,
            (d.phase.extractLsb' 32 16).zeroExtend 32]))) ∧
      (h < 2 → d.task (c.word 4) = none → ∀ i ∈ [Instr.preempt, .resume, .discard],
        ∃ t, exec i s = .next t ∧ Spec.completed s t k c 2 seq) ∧
      (∀ u, h < 2 → d.task (c.word 4) = some u →
        (∃ t, exec .preempt s = .next t ∧ if u.isResident then
          Spec.completed (s.setDie die (d.modTask u.desc.tag fun x => { x with preq := true })) t k c 1 seq
          else Spec.completed s t k c 2 seq) ∧
        (∃ t, exec .resume s = .next t ∧ if u.held then
          Spec.completed (s.setDie die (d.modTask u.desc.tag fun x => { x with held := false })) t k c 1 seq
          else Spec.completed s t k c 2 seq) ∧
        (u.isResident = false → (h = 0 ∨ h = 1) → ∃ t v, exec .discard s = .next t ∧ Spec.completed v t k c 1 seq ∧
          v.cores = s.cores ∧ v.die die = { d with
            tasks := d.tasks.filter fun x => x.desc.tag ≠ u.desc.tag
            gone := (d.gone.filter fun x => x.desc.tag ≠ u.desc.tag) ++ [u] } ∧
          (v.pkg k).host = p.host.setBytes u.desc.compl (wordBytes [u.desc.tag, 3, d.phase.extractLsb' 0 32,
            (d.phase.extractLsb' 32 16).zeroExtend 32]))) ∧
      (h < 2 → ∃ t, exec .logread s = .next t ∧ Spec.completed
        ((hostAs (p.host.setBytes (c.addr 4) (wordBytes (d.log.take (c.word 6).toNat).flatten))).setDie die
          { d with log := d.log.drop (c.word 6).toNat }) t k c 1 seq) ∧
      (h < 2 → ∃ t, exec .ckpt s = .next t ∧ (t.die (2 * k)).holdReq = true ∧ (t.die (2 * k + 1)).holdReq = true ∧
        t.pkg k = { p with cmd := some { c with waiting := true } } ∧ t.cores = s.cores) ∧
      (h < 2 → (if h = 0 then p.slot0 else p.slot1) = none → ∃ t, exec .restore s = .next t ∧
        Spec.completed s t k c 2 seq) ∧
      (∀ x, h < 2 → (if h = 0 then p.slot0 else p.slot1) = some x → ∃ t, exec .restore s = .next t ∧
        Spec.completed (s.restoreDevice k x) t k c 1 seq) ∧
      (h < 8 → (c.word 4).toNat ≤ 976562 → ∃ t, exec .bkpool s = .next t ∧
        if (c.word 4).toNat < (p.bramble.taken h).length then Spec.completed s t k c 2 seq
        else Spec.completed (s.setPkg k { p with bramble := { p.bramble with
          pool := sset 0 p.bramble.pool h (c.word 4).toNat } }) t k c 1 seq) ∧
      (h < 4 → ¬ Spec.owner p h → ∃ t, exec .handover s = .next t ∧
        Spec.completed (s.setPkg k { p with handover := some (h, s.fab + 1600000000) }) t k c 1 seq ∧
        ⟨.fabric, s.fab + 1600000000, evK .handoverWindowExpiry k⟩ ∈ t.agenda) ∧
      (∃ t bs, exec .attest s = .next t ∧ Spec.completed (hostAs (p.host.setBytes (c.addr 11) bs)) t k c 1 seq ∧
        bs.length = 116 + 29792 ∧ bs.take 32 = wordBytes ((List.range 8).map fun i => c.word (3 + i))) ∧
      (∀ e g, let a := c.addr 3
        let w (i : Nat) : W := BitVec.ofNat 32 (p.host.nat (a + 4 * i) 4)
        let va := Spec.far (w 0) (w 1)
        let agent : W := 0xFFFFFFF0#32 + BitVec.ofNat 32 c.agent
        va % 64 = 0 → (w 1).toNat < 2 ^ 10 → (w 2).toNat < 2 → w 6 = 0 → w 7 = 0 → s.guardEntry k va = some e →
        s.readGuard k e 0 va = some g →
        (let o := g.acquire ((w 2).getLsbD 0) agent
         ∃ t v, exec .hgacq s = .next t ∧ Spec.completed v t k c 1 seq ∧ v.cores = s.cores ∧
          (v.pkg k).host.nat (a + 12) 4 = o.code * 2 ^ 28 + o.mis.toNat * 2 ^ 27 + Nat.min o.count 0xFFFFFF ∧
          (v.pkg (entPkg e)).hbm = ((if o.guard = g then s else s.writeGuard k e 0 va o.guard).pkg (entPkg e)).hbm) ∧
        (let o := g.release ((w 2).getLsbD 0) agent (c.word 5)
         ∃ t v, exec .hgrel s = .next t ∧ Spec.completed v t k c 1 seq ∧ v.cores = s.cores ∧
          (v.pkg k).host.nat (a + 12) 4 = o.code * 2 ^ 28 + o.mis.toNat * 2 ^ 27 + Nat.min o.count 0xFFFFFF ∧
          (v.pkg (entPkg e)).hbm = ((if o.guard = g then s else s.writeGuard k e 0 va o.guard).pkg (entPkg e)).hbm)) ∧
      (∀ e, c.addr 3 % 64 = 0 → c.addr 3 < 2 ^ 42 → s.guardEntry k (c.addr 3) = some e → entDup e = false →
        ∃ t v, exec .gfree s = .next t ∧ Spec.completed v t k c 1 seq ∧ v.cores = s.cores ∧
          ∀ q, v.pkg q = (s.writeLine k e 0 (c.addr 3) (List.replicate 64 0)).pkg q))

/-- R321, R328, R329, R332: a boot runs the image of slot A, or of slot B where A fails; after its tests the boot that follows
a trip restores the last committed checkpoint, so that its tasks resume; then a command that was pending completes, DISCARD,
LOGREAD, ATTEST and BKPOOL with REFUSED and any other by running; and READY is set when it is over. That the command follows
the restore, and that READY waits for it, are the model's order (logs 38, 40; log 44 for what the test finds). -/
def Sys2Proof.Spec.BootsFinishWhatWasPending : Prop :=
  ∀ s : State, s.canonical →
    let k := s.ev.k
    let p := s.pkg k
    (s.ev.j = 1 → ∃ t, exec .bootComplete s = .next t ∧ Spec.bootEnds s t k) ∧
    (∀ image, (p.fwA = some image ∨ (p.fwA = none ∧ p.fwB = some image)) → s.ev.j ≠ 1 →
      ∃ t v u w, exec .bootComplete s = .next t ∧ Spec.tested s v k image ∧
        ((s.ev.b = false ∨ p.lastSlot = none) → u = v) ∧
        (∀ n x, s.ev.b = true → p.lastSlot = some n → (if n = 0 then p.slot0 else p.slot1) = some x → Spec.deviceRestored v u k x) ∧
        (p.cmd = none → w = u) ∧
        (∀ c, p.cmd = some c → c.op ∈ [0x04, 0x08, 0x0B, 0x0D] → Spec.completed u w k c 2 (c.acceptSeq % 2 ^ 32)) ∧
        (∀ c, p.cmd = some c → c.op ∉ [0x04, 0x08, 0x0B, 0x0D] → exec c.event u = .next w) ∧
        Spec.bootEnds w t k)

/-- R7, R318 to R321, R328 to R332, R337: a reset, at power on, on demand or for heat, puts the package at its reset values
and starts its boot; a boot with a sound image records the measurements, finds the failed cores and ends ready, and without
one ends in recovery, where the management port takes a signed image; a die asked to throttle is marked, and steps its clock
down by 100 MHz at its next boundary; a device checkpoint is copied within R320's time, committed, which clears DIRTY of the
segments in the tier, and let go; a segment that has moved stands in HBM, and the tables of a die that runs supersteps are
rewritten at its next boundary, another's at once; and a pod boots with its clock at zero. What outlives a reset is log 38's;
the events of heat log 40's; POD_BOOT's arguments log 41's; what a checkpoint holds log 42's; the time of a table's rewriting
with no task resident log 34's; the image that boots log 44's. -/
def Sys2Proof.Spec.PackageEventsAct : Prop :=
  ∀ s : State, s.canonical →
    let k := s.ev.k
    let p := s.pkg k
    (∃ t, exec .powerOnReset s = .next t ∧ Spec.packageReset s t k false) ∧
    (∃ t, exec .packageReset s = .next t ∧ Spec.packageReset s t k false) ∧
    (∃ t, exec .thermalTrip s = .next t ∧ Spec.packageReset s t k true) ∧
    exec .thermalThrottle s = .next (s.setDie k { s.die k with slow := true }) ∧
    (let d := s.die k
     ∃ t, exec .boundaryComplete s = .next t ∧ (t.die k).slow = false ∧ (t.die k).clk = d.clk ∧ (t.die k).phi = d.phi ∧
       (t.die k).mhz = (if d.slow then d.mhz - 100 else d.mhz) ∧
       (t.die k).baseClk = (if d.slow then d.clk else d.baseClk) ∧
       (t.die k).baseFab = (if d.slow then s.fab - d.phi else d.baseFab)) ∧
    (∀ n, p.fwA = some n → p.cmd = none → s.ev.b = false → s.ev.j ≠ 1 → ∃ t, exec .bootComplete s = .next t ∧
      (t.pkg k).ready = true ∧ (t.pkg k).recov = false ∧ (t.pkg k).measure0 = n ∧
      (t.pkg k).measure1 = Config.firmwareConfig (s.configBytes k) ∧ (t.pkg k).jrnlSeq = p.jrnlSeq + 1 ∧ (t.pkg k).host = p.host ∧
      ∀ h < 2, ∀ l < 4, ∀ i < 72, (t.core ((2 * k + h) * 512 + l * 128 + i)).retired =
        (decide (4 < onesIn (Config.failingRows s.fresh ((2 * k + h) * 512 + l * 128 + i))) ||
          Config.failingAcc s.fresh ((2 * k + h) * 512 + l * 128 + i) ||
          decide (8 < (Config.failingWires s.fresh ((2 * k + h) * 128 + i)).length)) ∧
        (t.col ((2 * k + h) * 128 + i)).spares = (Config.failingWires s.fresh ((2 * k + h) * 128 + i)).take 8) ∧
    (p.fwA = none → p.fwB = none → s.ev.j ≠ 1 → exec .bootComplete s = .next (s.setPkg k { p with recov := true })) ∧
    (p.recov = true → (s.ev.i = 2 ∨ s.ev.i = 3) → s.ev.b = true →
      exec .firmwareWrite s = .next (s.setPkg k { p with fwB := some (BitVec.ofNat 256 s.ev.w) })) ∧
    (∃ t, exec .deviceCheckpointStart s = .next t ∧
      t.pkg k = { p with copying := some (s.ev.i, s.deviceState k), hold := true } ∧
      (∃ d ∈ t.agenda, d.dom = .fabric ∧ d.ev = evI .deviceCheckpointCommit k s.ev.i ∧ (0 < p.tierPorts → p.tierPorts ≤ 6 →
        d.at_ ≤ s.fab + 640000000 * 6 * (if p.tierFast then 1 else 2) / p.tierPorts)) ∧ t.cores = s.cores ∧
      t.dies = s.dies) ∧
    (∀ slot x, p.copying = some (slot, x) → ∃ t, exec .deviceCheckpointCommit s = .next t ∧ t.cores = s.cores ∧
      t.pkg k = { p with
        copying := none, hold := false, lastSlot := some slot, slot0 := if slot = 0 then some x else p.slot0
        slot1 := if slot = 0 then p.slot1 else some x } ∧
      ∀ h < 2, (t.die (2 * k + h)).holding = false ∧
        (t.die (2 * k + h)).tasks = (s.die (2 * k + h)).tasks.map (fun u => { u with
          table := u.table.map fun x => (x.1, if entTier x.2 then x.2 &&& ~~~(1#64 <<< 61) else x.2) }) ∧
        (∀ u ∈ (s.die (2 * k + h)).residents, ∃ e ∈ t.agenda, e.ev = evI .superstepStart (2 * k + h) u.desc.tag.toNat)) ∧
    (∀ m : Move, let q := s.pkg (k / 2)
      q.moves.find? (fun m => m.id = s.ev.i) = some m →
      let src := s.pkg (entPkg m.old)
      let dst := s.pkg (entPkg m.new)
      let n := entBytes m.old
      let a := entBase m.old * 2 ^ 21
      let b := entStack m.new * 2 ^ 36 + entBase m.new * 2 ^ 21
      ∃ t, exec .segmentMoveComplete s = .next t ∧ t.cores = s.cores ∧
        (t.pkg (k / 2)).moves = q.moves.filter (fun x => x.id ≠ m.id) ∧
        (entTier m.old = true → entTier m.new = false → entDup m.new = false → dst.hbm.wf = true → src.tier.wf = true →
          ∀ x, (t.pkg (entPkg m.new)).hbm.byte x = if b ≤ x ∧ x < b + n then src.tier.byte (a + (x - b)) else dst.hbm.byte x) ∧
        (entTier m.old = false → m.old.getLsbD 61 = false → entDup m.new = false → ∀ p, (t.pkg p).hbm = (s.pkg p).hbm ∧
          (t.pkg p).tier = (s.pkg p).tier) ∧
        ∀ h < 2, let d := s.die (k / 2 * 2 + h)
          let d' := t.die (k / 2 * 2 + h)
          let l := d.rewrites ++ [(m.old, m.new)]
          (d.residents = [] → d'.rewrites = [] ∧ d'.tasks = d.tasks.map fun u => { u with
            table := u.table.map fun x => (x.1, l.foldl (fun e r => if entMark e = entMark r.1 then r.2 else e) x.2) }) ∧
          (d.residents ≠ [] → d'.tasks = d.tasks ∧ d'.rewrites = l)) ∧
    (let boot := exec .podBoot s
     ∃ t, boot = .next t ∧ t.dx = s.ev.i % 32 + 1 ∧ t.dy = s.ev.i / 32 % 16 + 1 ∧ t.dz = s.ev.i / 512 % 16 + 1 ∧
      t.primary = s.ev.j ∧ t.standby = s.ev.w ∧ t.fab = 0 ∧ t.msgs = [] ∧ t.cores = s.cores ∧
      (∀ q ∈ t.pkgs', (t.pkg q).medlar.primary = (q == s.ev.j) ∧ (t.pkg q).medlar.standby = (q == s.ev.w && q != s.ev.j) ∧
        (t.pkg q).medlar.term = 1 ∧
        ∀ h < 2, (t.die (2 * q + h)).clk = 0 ∧ (t.die (2 * q + h)).phi = Config.dieOffset (2 * q + h)) ∧
      ⟨.fabric, 0, evK .heartbeat s.ev.j⟩ ∈ t.agenda ∧ ⟨.fabric, 64000, evK .failover s.ev.w⟩ ∈ t.agenda)

/-! ### Encoding, the step, reset and the whole machine -/

namespace Sys2Proof.Spec

open Sys2Proof Sys2Proof.Machine

/-- An instruction with an encoding: one of an opcode map, or NOP. -/
def encoded (i : Instr) : Prop := i = .nop ∨ ∃ om, opMap i = some om

/-- The forms whose scalar guard does something else than hold them off: SEL, and the compares, whose combining type has an
outcome for a false guard (R88, R90). -/
def guardChooses : Instr → Bool
  | .sel _ | .cmpeq _ | .cmpne _ | .cmplt _ | .cmple _ | .cmpltu _ | .cmpleu _ | .cmpbit _ => true
  | .vfcmpeq _ | .vfcmpne _ | .vfcmplt _ | .vfcmple _ | .vfcmpun _ => true
  | .vicmpeq _ | .vicmpne _ | .vicmplt _ | .vicmple _ | .vicmpltu _ | .vicmpleu _ => true
  | _ => false

/-- The forms that a loop body forbids (R128). -/
def loopForbidden : Instr → Bool
  | .br _ | .bri _ | .call _ | .calli _ | .ret _ | .loop _ | .linc _ | .phase _ | .phaseRg _ | .halt _ => true
  | _ => false

/-- LEXIT. -/
def isLexit : Instr → Bool
  | .lexit _ => true
  | _ => false

/-- An instruction that no check stops whatever its guard: the bank (R107), the superstep (R244), the loop (R128, R129). -/
def reachesItsGuard (s : State) (i : Instr) : Prop :=
  (bank1Form i = true → s.cur.cur = true) ∧ (computeForm i = true → s.compute = true) ∧
  (exchangeForm i = true → s.compute = false) ∧ (loopForbidden i = true → s.cur.bank.loop.act = false) ∧
  (isLexit i = true → s.cur.bank.loop.act = true)

/-- Releases at the end of the reads of this bundle, and nothing else (R64). -/
def onlyReleases (l : List Pend) : Prop := ∀ e ∈ l, e.left = 0 ∧ ∃ file code, e.kind = .release file code

/-- A bank whose registers are those of another; only the loop registers, the sticky lane flags and the lane generators may
differ. -/
def sameFiles (a b : Bank) : Prop := { b with loop := a.loop, flags := a.flags, gen := a.gen } = a

/-- The scratchpad and the instruction memory of every core are in the canonical form. -/
def localMemories (s : State) : Prop := ∀ k, (s.core k).sp.wf = true ∧ (s.core k).imem.wf = true

/-- The words of a bundle as bytes. -/
def bytesOf (ws : List Nat) : List Byte := ws.flatMap fun w => wordBytes (BitVec.ofNat 32 w)

end Sys2Proof.Spec

/-- R83: in every slot opcode 0 with zeros is NOP and opcode 0 with another bit is no instruction, ILLEGAL_SLOT; the slot words
are those of the present slots in ascending order; NOP changes nothing, and a slot that is absent runs nothing. -/
def Obligations.NopStandsInEverySlot : Prop :=
  (∀ k : Slot, decodeSlot k.map 0#32 = .ok .nop) ∧
  (∀ (k : Slot) (w : W), w.extractLsb' 26 6 = 0#6 → w ≠ 0#32 → decodeSlot k.map w = .error .illegalSlot) ∧
  (∀ s, exec .nop s = .next s) ∧ (∀ s0 s : State, s0.runSlots [] s = .next s) ∧
  (∀ (hw : W) (ws : List W) (b : Bundle), decodeBundleWords hw ws = .ok b → b.header.words - 1 ≤ ws.length →
    b.slots.map (·.1) = Slot.all.filter (fun k => hw.getLsbD (24 + k.num)) ∧
    b.slots.Pairwise (fun x y => x.1.num < y.1.num) ∧
    ∀ (n : Nat) (x : Slot × Instr), b.slots[n]? = some x → ∃ w, ws[n]? = some w ∧ decodeSlot x.1.map w = .ok x.2) ∧
  ∀ k : Slot, ∃ b, decodeBundle (oneSlotBundle k 0#32 false) = .ok (b, []) ∧ b.slots = [(k, .nop)]

/-- R67: a base register holds 23 bits, and MFB reads zeros above them; the name b*n* selects physical base register
(n + BRB) mod 8, and p8 to p15 the physical stage predicates 8 + ((n - 8 + PRB) mod 8). -/
def Obligations.BaseAndStageNamesAreRotated : Prop :=
  (∀ (b : Bank) (n : Nat), n < 8 → b.readB n = sget 0 b.b ((n + b.brb.toNat) % 8)) ∧
  (∀ (b : Bank) (n : Nat), 8 ≤ n → n < 16 → b.readP n = b.p.getLsbD (8 + (n - 8 + b.prb.toNat) % 8)) ∧
  (∀ (b : Bank) (n : Nat), 1 ≤ n → n < 8 → b.readP n = b.p.getLsbD n) ∧
  (∀ (f : FmtMfb) (s : State), s.guard f.gn f.g = true → ∃ v : W,
    exec (.mfb f) s = .next (Spec.sent s [(1, .sres f.d v)] []) ∧
    v.extractLsb' 0 23 = sget 0 s.cur.bank.b ((f.n.toNat + s.cur.bank.brb.toNat) % 8) ∧ v.extractLsb' 23 9 = 0#9) ∧
  (∀ (f : FmtMtb) (s : State), s.guard f.gn f.g = true →
    exec (.mtb f) s = .next (Spec.sent s
      [(1, .base ((f.n.toNat + s.cur.bank.brb.toNat) % 8) ((s.rs 0 f.a).extractLsb' 0 23))] [(0, f.la, f.a)]))

/-- R330: with both firmware slots failing, boot sets RECOV; then the management port's agents change nothing, a signed
firmware image for slot B apart, and no task is ready to run; before that the port takes no image.  That the management
channels are agents 2 and 3, that in recovery their other writes, claims and beats have no effect and no command is taken, and
that outside recovery no image is taken are the model's reading (log 39). -/
def Obligations.RecoveryTakesSignedFirmwareOnly : Prop :=
  ∀ s : State,
    let k := s.ev.k
    let p := s.pkg k
    (p.fwA = none → p.fwB = none → s.ev.j ≠ 1 → exec .bootComplete s = .next (s.setPkg k { p with recov := true })) ∧
    (p.recov = true → (s.ev.i = 2 ∨ s.ev.i = 3) →
      exec .registerWrite s = .next s ∧ exec .denyClear s = .next s ∧ exec .ownBeat s = .next s ∧
      (s.ev.b = true → exec .firmwareWrite s = .next (s.setPkg k { p with fwB := some (BitVec.ofNat 256 s.ev.w) })) ∧
      (s.ev.b = false → Spec.completesAs (exec .firmwareWrite s) s)) ∧
    (p.recov = true → s.ev.w % 4 = 0 → Spec.completesAs (exec .ownClaim s) s) ∧
    (p.recov = false → Spec.completesAs (exec .firmwareWrite s) s) ∧
    (p.recov = true → ∀ h < 2, ∀ t : Task, s.taskReady (2 * k + h) t = false) ∧
    (p.recov = true → s.acceptCommand k = s)

/-- R82, R87 to R107: for every instruction with an encoding and legal fields, decoding its word under its opcode map gives it
back; and every word that decodes is the one word of a legal instruction. -/
def Obligations.DecodeAndEncodeAgree : Prop :=
  (∀ (i : Instr) (om : OpMap), i.wf = true → (opMap i = some om ∨ i = .nop) →
    ∃ w, encode i = some w ∧ decodeSlot om w = .ok i) ∧
  (∀ (om : OpMap) (w : W) (i : Instr), decodeSlot om w = .ok i →
    encode i = some w ∧ i.wf = true ∧ (opMap i = some om ∨ i = .nop)) ∧
  ∀ i : Instr, opMap i = none → i ≠ .nop → encode i = none

/-- R82 to R84, R87 to R105: words written in the spec, or built from its formats, and the instructions they stand for. -/
def Obligations.WordsOfTheSpecDecode : Prop :=
  (∃ b, decodeBundle (Spec.bytesOf [0x07880000, 0x0402020D, 0x1D218212, 0x080305F1, 0x3F803F80]) = .ok (b, []) ∧
    b.literal = some 0x3F803F80 ∧ b.header.dwell = 2 ∧ b.header.ckp = false ∧ b.slots =
      [(.s, .iadd { gn := false, g := 0, d := 4, a := 1, b := 1, la := true, lb := false, x := true }),
       (.v0, .vfmaF32 { gs := 9, d := 3, a := 1, b := 2, la := false, lb := true }),
       (.v1, .vaddBf16 { gs := 0, d := 6, a := 2, b := 62, la := false, lb := false })]) ∧
  decodeSlot .s 0x052595C9#32 = .ok (.iadd { gn := false, g := 9, d := 11, a := 10, b := 57, la := false, lb := false, x := true }) ∧
  decodeSlot .b 0x1C00C004#32 = .ok (.linc { gn := false, g := 0, d := 1, k := true, inc := 4 }) ∧
  decodeSlot .b 0x34000014#32 = .ok (.phase { gn := false, g := 0, body := 20 }) ∧
  decodeSlot .v 0xB480C108#32 = .ok (.vbcvt { bt := 1, mode := 0, d := 3, a := 1, b := 2, la := false, lb := false }) ∧
  decodeSlot .m 0x1C0003E0#32 = .ok (.msetp { gn := false, g := 0, t := 0, p := 0xF8, rsc := false }) ∧
  decodeSlot .c0 0x18008040#32 = .ok (.stw { gn := false, g := 0, d := 1, bq := 0, off := 0x40 }) ∧
  decodeSlot .c1 0x50020A30#32 = .ok (.grel { gn := false, g := 0, d := 4, a := 5, b := 6 }) ∧
  decodeSlot .c1 0x58010604#32 = .ok (.nmcmp { gn := false, g := 0, d := 2, a := 3 }) ∧
  decodeSlot .x 0x1404E8E0#32 = .ok (.frecv { gn := false, g := 0, v := 9, un := true, port := 5, fl := 0, nf := 7 })

/-- R82, R83, R86, R126: when the bytes at the pc of a core that issues decode to one well-formed instruction that no check of
the bundle stops, the step is exec of that instruction with the pc past the bundle's words and its dwell cycles loaded; a trap
of it begins the drain with nothing else, and otherwise the end of the bundle follows: releases, cycle count, loop engine and
checkpoint. A bundle of several slots runs them in slot order, each on the state the earlier ones left. An event that is due
is exec of its row; and when nothing is left of a fabric cycle, the next one begins (no fault of the hardware, log 7, being
due). That a cycle is cut into such steps is the model's choice (log 1). -/
def Obligations.AStepRunsTheDecodedInstruction : Prop :=
  (∀ (s : State) (k : Nat) (rest : List Micro) (bs r : List Byte) (b : Bundle) (sl : Slot) (ins : Instr),
    let c := s.core k
    let next := c.pc + BitVec.ofNat 26 b.header.size
    let s0 : State := { ({ s with todo := rest } : State).setCore k { c with pc := next, dwell := b.header.dwell.toNat } with
      ictx := { core := k, slot := sl.num, lit := b.literal.getD 0, pc := c.pc, next := next, trap := none, ckp := false } }
    s.todo = .issue k :: rest → c.run = .issue → c.bundleBytes c.cur c.pc.toNat = some bs → decodeBundle bs = .ok (b, r) →
    decodeTrap c.cur (s.die (dieOf k)).compute b.slots = none → b.slots = [(sl, ins)] → ins ≠ .rft → c.bank.loop.act = false →
    c.debugPend = false →
    ∀ t, exec ins s0 = .next t →
      step s = .next (match t.ictx.trap with
        | some tr => t.beginTrap k tr
        | none => t.endBundle k c b)) ∧
  (∀ (s0 s : State) (x : Slot × Instr) (l : List (Slot × Instr)) (t : State),
    (s0.core s.ictx.core).debugPend = false → exec x.2 { s with ictx := { s.ictx with slot := x.1.num } } = .next t →
    t.ictx.trap = none → (t.core s.ictx.core).task = (s0.core s.ictx.core).task →
    s0.runSlots (x :: l) s = s0.runSlots l t) ∧
  (∀ (s : State) (e : Ev) (rest : List Micro), s.todo = .op e :: rest →
    step s = exec e.event { s with todo := rest, ev := e }) ∧
  ∀ s : State, s.todo = [] → (∀ i ∈ s.inputs, i.at_ ≤ s.fab + 1 → i.mishaps = []) → s.dx ≤ 32 → s.dy ≤ 16 → s.dz ≤ 16 → ∃ t, step s = .next t ∧ t.fab = s.fab + 1 ∧
    t.cores = s.cores ∧ t.columns = s.columns ∧
    ∀ d, (t.die d).clk = (s.die d).clk +
      (if d ∈ s.podDies ∧ (s.die d).fabOf ((s.die d).clk + 1) ≤ s.fab + 1 then 1 else 0)

/-- R60, R77, R223, R243, R257, R265, R323, R329, R338, R348, R359: what the machine holds right after reset; every part is in
the canonical form. That every register of both banks, the predicates among them, is zero as Bank.reset has it, and that no
core runs or holds a task, is the model's choice for pieces to which the spec gives no value at reset (log 2; R60 speaks of a
launch). -/
def Obligations.ResetLeavesTheResetValues : Prop :=
  let s := State.reset
  s.canonical ∧ s.memoriesCanonical ∧ Spec.localMemories s ∧
  (∀ k, let c := s.core k
    c.bank0 = Bank.reset ∧ c.bank1 = Bank.reset ∧ c.run = .idle ∧ c.task = none ∧ c.act = false ∧ c.pfmt0 = 0xF ∧
    c.pfmt1 = 0xF ∧ c.causeCode = 0 ∧ c.trapPc = 0 ∧ c.ckpPc = 0 ∧ c.corr = 0 ∧ c.debugPend = false ∧ c.cpsel = 0 ∧
    c.icycle = 0 ∧ c.bankStatus = 0) ∧
  (∀ n, Bank.reset.readP n = (n == 0)) ∧ Bank.reset.round = 0 ∧ Bank.reset.srSeed = 0 ∧ Bank.reset.brb = 0 ∧
  Bank.reset.prb = 0 ∧ Bank.reset.loop.act = false ∧
  (∀ k, (s.col k).tvmap = 0b11100100 ∧ (s.col k).mcmask = 0 ∧ (s.col k).vbBank = 0 ∧ (s.col k).banks = []) ∧
  (∀ d, (s.die d).phase = 0 ∧ (s.die d).margin = 4 ∧ (s.die d).xsite = 0 ∧ (s.die d).log = [] ∧
    ∀ q < 16, sget 0 (s.die d).qslice q = 0x00400000) ∧
  (∀ k, (s.pkg k).ready = false ∧ (s.pkg k).recov = false ∧ (s.pkg k).ownerValid = false ∧ (s.pkg k).epoch = 0 ∧
    (s.pkg k).deny = 0 ∧ (s.pkg k).cmdBase = 0 ∧ (s.pkg k).cmdHead = 0 ∧ (s.pkg k).cmdTail = 0 ∧ (s.pkg k).tcold = 0 ∧
    (s.pkg k).medlar.term = 1 ∧ (s.pkg k).medlar.nextCsn = 0 ∧ ∀ i, ((s.pkg k).port i).up = false)

/-- Every step keeps the canonical form of the parts of the machine: each core, column, die and package is listed once, in
rising order, and none that equals what an unlisted one reads as, so that equal machines are equal data (log 1). -/
def Obligations.EveryStepKeepsTheCanonicalForm : Prop :=
  ∀ s t : State, s.canonical → step s = .next t → t.canonical

/-- Every step keeps the canonical form of the scratchpad and the instruction memory of every core: addresses strictly rising,
and no entry equal to what an unlisted address reads as (R78, R79; log 3). -/
def Obligations.EveryStepKeepsTheLocalMemoriesCanonical : Prop :=
  ∀ s t : State, Spec.localMemories s → step s = .next t → Spec.localMemories t

/-- R201, R205, R213: ordinary operation never ends the run: every instruction and every event, and so every step, answers a
next state, where a trap is a state too. -/
def Obligations.EveryStepGoesOn : Prop :=
  (∀ (i : Instr) (s : State), goesOn (exec i s)) ∧ ∀ s : State, goesOn (step s)

/-- R87, R139, R162, R179, R255, R343: an instruction whose guard is false writes nothing, sends nothing, takes nothing and
raises no cause; only its last-use bits release their registers (R64). SEL and the compares, whose guard chooses an outcome,
are stated elsewhere; so are the stops that come whatever the guard: a form of bank 1 in bank 0 (R107), a form of the other
superstep (R244), a form that a loop body forbids in a loop (R128), and LEXIT outside one (R129). -/
def Obligations.AFalseGuardDoesNothing : Prop :=
  ∀ (i : Instr) (gn : Bool) (g : BitVec 4) (s : State), guardOf i = some (gn, g) → s.guard gn g = false →
    Spec.guardChooses i = false → Spec.reachesItsGuard s i →
    ∃ l, Spec.onlyReleases l ∧ Spec.completesAs (exec i s) (s.setCore s.ictx.core (Spec.pending s.cur (s.cur.pend ++ l)))

/-- R4, R65, R202: the issue of an instruction changes no register file and no memory by itself: every general, vector,
predicate, base and ring register of both banks, the scratchpads, instruction memories, accumulator tiles, weight planes and
statistics buffers of every core, every weight bank and all far memory are as they were; results and stores become visible in a
later cycle.  Only the loop registers, which the B slot's forms set (R124), the lane flags that VFLG clears (R149) and
the lane generators that MDRAIN advances (R174) may differ. -/
def Obligations.IssueChangesNoFileAndNoMemory : Prop :=
  ∀ (i : Instr) (s t : State), Spec.encoded i → exec i s = .next t →
    (∀ k, Spec.sameFiles (s.core k).bank0 (t.core k).bank0 ∧ Spec.sameFiles (s.core k).bank1 (t.core k).bank1 ∧
      (t.core k).sp = (s.core k).sp ∧ (t.core k).imem = (s.core k).imem ∧ (t.core k).tiles = (s.core k).tiles ∧
      (t.core k).planes = (s.core k).planes ∧ (t.core k).stat = (s.core k).stat) ∧
    (∀ k, (t.col k).banks = (s.col k).banks) ∧
    ∀ k, (t.pkg k).hbm = (s.pkg k).hbm ∧ (t.pkg k).tier = (s.pkg k).tier ∧ (t.pkg k).host = (s.pkg k).host

/-! ### Statements of several parts -/

/-- R117 with R87 and R115: with a true guard each arithmetic, logical and shift instruction sends r of its table, to be visible
after its latency and pushed; with a false guard it sends nothing; in both cases the last-use bits release, and nothing else
of the machine changes. R119: SEL writes a or b by its guard fields, always, and pushes; both last-use bits act. -/
def Obligations.ScalarResultsAreSent : Prop :=
  Sys2Proof.Spec.ScalarArithmeticSendsItsResult ∧ Sys2Proof.Spec.SelAlwaysWrites

/-- R118 with R88 and R67: a compare writes P1 and P2 under its combining type after latency 1, under the guard too where the type
says so, and pushes nothing; the stage predicates are those that the names select at issue. R145 with R88 and R90: a vector
compare writes its two vector predicates after latency 4, in each lane as the truth table says for the guard and the lane's
condition, which holds only when it holds for every sub-element; it pushes nothing and releases nothing. -/
def Obligations.ComparesWriteTheirPredicatesAndNothingElse : Prop :=
  Sys2Proof.Spec.ComparesWriteTheirPredicates ∧ Sys2Proof.Spec.VectorComparesWriteTheirPredicates

/-- R120: the moves that read: MFC a control register, MFP the named predicates with p0 as 1, MFB a base register, MFQ a word of a
ring register, MFTASK (in bank 1) a register of bank 0; each is visible after latency 1 and pushed. R120: the moves that
write: MTC a control register it may write with a value its map allows, MTP the predicates that the mask selects (never p0),
MTB the physical base register the name selects, MTQ a word of a ring register, MTTASK (in bank 1) a register of bank 0; each
is visible after latency 1, and none is pushed. R72, R74 to R77, R79, R124: what each control register reads as, its fields in
their places and every other bit zero; the flags of a unit are those of any of its lanes, and the bus registers read as
written. Bank 1 alone writes the bus registers and those from CAUSE on; and the forbidden values are a rounding mode above 4,
a page select above 59, and a valid page entry whose frame is loading or whose page another valid entry holds. -/
def Obligations.MovesBetweenFilesComplete : Prop :=
  Sys2Proof.Spec.MovesFromSendTheirResult ∧ Sys2Proof.Spec.MovesToSendTheirWrite ∧ Sys2Proof.Spec.ControlRegistersReadTheirMaps

/-- R74, R75, R120, R122, R200: in bank 0, MFTASK, MTTASK, RFT, CPLD and a write of a bank-1 register raise PRIV whatever the
guard: the core begins its drain with the cause recorded and the instruction has no other effect; and a forbidden value raises
CTL_VALUE under a true guard. R121, R122: TRAPI with a true guard in bank 0 raises SWTRAP with its argument in the low five
bits of the code, and with a false guard does nothing; RFT in bank 1 ends the service: the core runs bank 1 out and then
resumes at CKP_PC as the register stands, and nothing else changes. -/
def Obligations.PrivilegedFormsTrapAndSoftwareTraps : Prop :=
  Sys2Proof.Spec.PrivilegedFormsTrapInBankZero ∧ Sys2Proof.Spec.TrapiAndRft

/-- R123, R115: outside a loop, a taken transfer sends the next issue to its target: BR and CALL to the bundle's offset plus four
times the signed field, BRI and CALLI to bits [25:2] of their register, RET to those of s47; the calls write the offset of the
next bundle to s47 after latency 1, and nothing else changes; a transfer that is not taken changes nothing. (That the target
of BR and CALL is taken modulo 2^26 is the model's choice, log 11.) R245, R246, R137: PHASE in bank 0 declares its budget (64
times its field, or its register rounded up to a multiple of 64, at most 64 times 1,048,575), commits a checkpoint and arrives
after its dwell; HALT in bank 0 ends issue once the core's outstanding work is done; PHASE in bank 1 does nothing. -/
def Obligations.TransfersPhaseAndHaltSetTheNextIssue : Prop :=
  Sys2Proof.Spec.TransfersGoToTheirTarget ∧ Sys2Proof.Spec.PhaseAndHaltEndTheSuperstep

/-- R126: LOOP with a true guard arms the engine with its register's trip count and its fields, sets p8 and clears p9 to p15 by
name after latency 1, resumes a drained loop at its own offset with LREM and LRES (after which no drain is pending and LRES
reads 0, R132), and with a trip count of 0 clears the LINC entries and continues at the first bundle after the body, which the
LOOP finds from the headers of the bundles between (R129). R125, R129, R130: LINC fills the lowest invalid entry with V, K, D
and INC, LEXIT disarms the loop, clears the entries and continues at the first bundle after the body, which its LOOP found (a
loop that no LOOP armed finds it from the headers: log 11), and ROT lowers the bases it names by one, modulo 8, after latency
1. R125, R126, R128, R129: what the loop engine forbids raises LOOP_FORM: a transfer, LOOP, LINC, PHASE or HALT while a loop
is armed, whatever the guard, a LINC with eight valid entries, and a LEXIT while none is armed. -/
def Obligations.LoopFormsArmFillAndTrap : Prop :=
  Sys2Proof.Spec.LoopArmsTheEngine ∧ Sys2Proof.Spec.LincLexitRot ∧ Sys2Proof.Spec.LoopFormTraps

/-- R134: an arrival that PART allows sets the core's own bit in its own copy and in the other copies three cycles later; when
every layer of PART has then arrived, the barrier completes in that cycle. R136: an arrival of an interval that runs again is
not made again: it is checked against the next entry of the log, an equal one passes (and a BSYNC then waits only while the
generation of the logged arrival has not completed: no later entry names the barrier and the core's own bit stands), and a
different one is a disagreement of the rerun, or outside a rerun retires the core. R134, R208: an arrival in bank 0 raises
BAR_MISMATCH where PART leaves out the core's own layer or is not the same in every layer it names, BAR_REARRIVE where the
core has arrived already, and CKP_BUDGET where the interval holds 32 arrivals (that an arrival which is both raises
BAR_REARRIVE is the model's choice, log 22); BSYNC traps as BARR does. R135, R136: BWAIT waits while the core's own arrival
has not completed (that of an interval that runs again, while the generation of the logged arrival has not), and otherwise
does nothing. R134: an arrival reaches all four copies of the column, and completion clears ARR and toggles GEN in all four;
PART, the other barriers and every other core stay as they are. -/
def Obligations.BarriersGatherTheirLayers : Prop :=
  Sys2Proof.Spec.BarrierArrival ∧ Sys2Proof.Spec.LoggedArrivalsAreCheckedAndNotMadeAgain ∧ Sys2Proof.Spec.BarrierTraps ∧ Sys2Proof.Spec.BwaitWaitsForTheOwnArrival ∧ Sys2Proof.Spec.BarrierEventsReachEveryCopy

/-- R89, R138, R140 to R142, R144, R147, R148: a vector arithmetic form reads its sources at issue and sends its operation with
the active lanes and ROUND's mode, to be visible after its latency; where the whole-instruction guard is false it sends
nothing; the last-use bits release in either case, and nothing else changes. R92, R140, R141, R150, R152, R154 to R158: the
conversions take latency 3 with their own mode and the tensor exponents of the literal, VBMAX 6, VDQ 3, VQDUAL 8 with four
consecutive source registers, and VBCVT reads its second source after three more issue cycles; all lanes are active, and the
last-use bits release. -/
def Obligations.VectorOperationsAndConversionsIssue : Prop :=
  Sys2Proof.Spec.VectorArithmeticIssues ∧ Sys2Proof.Spec.ConversionsAndBlocksIssue

/-- R144, R146: the logical and shift forms, VPERM, VBCST, VSEL and VMOV send, for an instruction that runs, a register whose
every lane is what their tables say of the lanes of the sources (and of vpN and of D for VSEL), all read at issue. R149, R159,
R208: VFLG samples the five flags of each active lane of its unit and clears the masked ones, VSTR reads 64 consecutive
entries' word W of the statistics buffer modulo 4,096 entries, and VSTW writes them after two issue cycles and counts 256 undo
bytes, or raises CKP_BUDGET where they exceed the interval's 65,536. -/
def Obligations.VectorLaneFormsAndFlagFormsIssue : Prop :=
  Sys2Proof.Spec.VectorLaneFormsSendTheirLanes ∧ Sys2Proof.Spec.FlagAndStatisticsForms

/-- R144, R139, R56: when an integer result is formed, each element of an active lane is the low n bits of the exact result,
saturated under .S, masked lanes are zero, OVF is set in the lanes where a saturation changed a value, and no other flag,
register or generator of the bank changes. R29, R31 to R33: a value known exactly is encoded once: in a linear format to the
code below or above it as the mode says, beyond the largest to that one or an infinity, in an integer rounded and saturated,
in a log format by its 1.15 mantissa against thresholds or grid points, each with its flags (RSX at overflow, and infinite
sources: log 9). R55, R56, R142, R143, R27: each element of an active lane of a float result is its exact result rounded once
under its mode, and a masked lane is zero; VFMA adds its third operand to the exact product; under RSX each rounding draws
once from its lane's generator (VMIN and VMAX never draw), and the lane's flags are those of its roundings. R147, R148, R27,
R56: a reduction puts one value into every active lane and zero into the others: the exact sum rounded once (under RSX with a
draw of the lowest active lane's generator), the greatest or least value, NaN where an element is one, or the signed sum
saturated, the signed maximum or minimum; the value's flags go to every active lane. A function result is the exact value
rounded once in each active lane. R150 to R158, R27: a conversion re-encodes as many elements as both formats fit (a copy in
one format keeps its code, log 49) and zeroes the rest; VBMAX gives each block the word that its scale selects; VBCVT encodes
its lanes under the block words of its second source, VDQ decodes packed codes under theirs; VQDUAL encodes a 16 by 16 region
twice, by rows and by columns, with the 32 block words in the second register. Each lane gets the flags of what it rounded or
of the blocks it holds, and under RSX draws once for each element rounded (a copy draws too, log 49; VBMAX and VDQ draw
nothing). -/
def Obligations.ElementsRoundOnceWrapOrSaturate : Prop :=
  Sys2Proof.Spec.IntegerElementsWrapOrSaturate ∧ Sys2Proof.Spec.ValuesAreEncodedOnce ∧ Sys2Proof.Spec.FloatElementsRoundOnce ∧ Sys2Proof.Spec.ReductionsAndFunctions ∧ Sys2Proof.Spec.ConversionsAndBlocksEncode

/-- R61 to R64: a scalar result visible alone enters the register its code names (the main file, whose register becomes live, or
the operand file; a code from 56 on discards it), an S result sn0 too; the rest of the bank stays. R66, R67, R70, R76, R80:
predicate writes reach the predicates they name and never p0, a base register write one base register, a ring word write one
word with its reserved bits zero, ring pointer writes the pointer and its wrap bit, a rotation both bases, a loop-back's write
PASS, PASS32 and IDX (R127); nothing else of the bank changes. R61 to R64, R66, R89, R139: a vector result writes the active
lanes of the register its code names, of its unit's file, which becomes live, or of the operand file both units share, or none
from 56 on; masked lanes keep their values, but those of a released register, which has none (log 48). The result enters vn0,
zero in masked lanes, whatever its code; a loaded register enters nothing; VQDUAL writes the next register too; a vector
predicate write changes the lanes of its mask, never vp0. R62, R65, R56, R76: of two results visible at a core in one cycle,
the later-issued remains in a scalar register, base register or predicate, and both enter sn in issue order; of V0 and V1
results for one operand file register, V1's remains whichever issued first (the model's reading of R62 beside R65, log 48); a
write of FLAGS clears before the results of its cycle set. R74 to R77, R124: a control register's write, when visible, clears
the lane flags its value names (FLAGS), seeds every generator, sets the rounding mode, MCMASK at once and the bus slots and
bank bits at the next slot 0, CAUSE, TRAP_PC, CKP_PC, CORR_CNT, DEBUG, CPSEL, the page entry selected, or a loop register;
nothing else changes. R159, R209, R191: a statistics-buffer write, when visible, puts its words into the buffer, and one of
the task holds each old word for rollback unless the interval holds one; a staged descriptor stands in the staging register. -/
def Obligations.ResultsBecomeVisible : Prop :=
  Sys2Proof.Spec.ScalarResultsBecomeVisible ∧ Sys2Proof.Spec.OtherRegistersBecomeVisible ∧ Sys2Proof.Spec.VectorResultsBecomeVisible ∧ Sys2Proof.Spec.ResultsOfOneCycleAreOrdered ∧ Sys2Proof.Spec.ControlWritesBecomeVisible ∧ Sys2Proof.Spec.StatisticsAndStagingBecomeVisible

/-- R178, R181, R186, R208, R209: when its time comes alone, a C0 write of the task puts its bytes into the scratchpad and holds
each byte's old value for rollback unless the interval already holds one; an atomic reads its word, stores the sum, the
greater or the new value, and sends the old word to its register four issue cycles later; the cleared status word of a far
form (R271) reaches the scratchpad with nothing held of it; every other byte reads as before. R156, R187, R204, R231: VBCVT
reads its second source when three issue cycles have passed, as it stands then, and its result is three more away; a multicast
store lands its bytes in the scratchpad of each layer of its mask, voiding what the interval held of them, and every other
core and byte stays as it is. -/
def Obligations.LateWritesReachTheScratchpad : Prop :=
  Sys2Proof.Spec.C0WritesAreApplied ∧ Sys2Proof.Spec.LateReadsAndMulticastStores

/-- R163, R164: MLDW with a true guard, a good descriptor of a loadable format and a slot that is not empty, starts the load of
the shadow plane from the head slot: its rows are read from the third cycle on, HEAD advances after latency 1, and one plane
load is counted. R165, R166, R226: MLDWB places its bus request in its issue cycle for the physical bank tile of its version
select, and its first beat comes twenty cycles later; MSWAP exchanges active and shadow plane at once and changes nothing
else. R15, R19, R21, R22, R38, R39, R164, R167: what an operand of the cell is: its scale is TE, with E − 31 (and −μ in B4) of
its block word; a zero code, or a code of value zero outside a NaN block, is zero; NAL, a NaN code and every element of a NaN
block are NaN; a log code is its sign and its Λ, any other the number of its code under its scale. A plane entry holds one
operand, in a pair class two, in the fields of its word, and a loaded row the entries of its codes. -/
def Obligations.WeightLoadsStartAndPlanesSwap : Prop :=
  Sys2Proof.Spec.MldwStartsALoad ∧ Sys2Proof.Spec.MldwbAndMswap ∧ Sys2Proof.Spec.OperandsCarryTheirScale

/-- R167, R168, R172: MSTREAM and MSTREAMB with a true guard in a compute superstep take the head slot of a ring whose format
their mode accepts, against an active plane whose class their mode accepts, with room for their vectors, and append a stream;
HEAD advances after latency 1, the tile counts among the accumulated ones, and when no stream feeds, the first vector begins
when the array allows it, four cycles after issue at the earliest. R173, R174: MDRAIN with a true guard in a compute superstep
takes the tail slot of a ring with room for its rows, converts its first row from the ninth cycle on, and advances TAIL after
latency 1; under RSX the bank's first 128 generators advance once for each row at issue. R19, R24, R35, R36, R173, R174: what
a drain and the block forms encode: an accumulator element is A·2^P, −2^63 read as −(2^63 − 1); a row becomes the codes of its
format, densely packed, in a block format under the block words that its runs select: E from the exponent of the greatest
magnitude, clamped to 0 to 62 with OVF above, a micro bit for each smaller pair, a NaN block where an element is NaN or
infinite. An element is divided by its scale and encoded by its type; beyond the largest code it takes that one with INX
alone, and a zero from a non-zero element sets UNF and INX. That TE does not scale a linear or integer destination is the
model's reading (log 49). -/
def Obligations.StreamsAndDrainsStart : Prop :=
  Sys2Proof.Spec.StreamsStart ∧ Sys2Proof.Spec.MdrainStarts ∧ Sys2Proof.Spec.BlocksAndRowsAreEncoded

/-- R170 to R172: MCLR, and MSETP with rescaling, occupy their tile for 32 cycles; MSETP sets P at once; MFLG sends the tile's
control word after latency 2, and MCLRF clears the flags it names. R244, R107: outside a compute superstep the matrix forms
that need one raise PHASE_ILLEGAL whatever their guard, and in a compute superstep so do the far, mesh, fabric and collective
forms; the core begins its drain and nothing else happens. -/
def Obligations.TileFormsCompleteAndPhaseIllegalFormsTrap : Prop :=
  Sys2Proof.Spec.TileControlForms ∧ Sys2Proof.Spec.PhaseIllegalForms

/-- R164, R165, R168 to R171, R210: the events of weight loads and streams: a row of a load, read from its slot or come with its
beat, enters its plane, and a load from a slot reads the next row in the next cycle; a completed load makes its plane the
shadow and records its class; a vector is read from its slot as it begins, its line sums are added 261 cycles after the array
has taken it, and the next vector begins when the array allows it; the sums join the tile row with their flags; a retired
stream keeps its record only until its sums are in; a tile operation ends with the tile cleared, or every element rescaled.
R41 to R47, R49: what the cells and lines form: a zero operand gives 0 whatever the other, a NaN else gives 0 and NAN; two log
operands give the power of the sum of their Λ, any others the exact product, in units of 2^P to the nearest, ties to even, INX
where that is not exact, clipped at 2^40 − 1 with OVF; a pair adds its two products and clips again. A line sum is the exact
sum over the 128 rows of its column, or the 128 columns of its row for a backward stream, and joins its accumulator element
saturating at 2^63 − 1 with OVF. R173 to R175: a drain's row is converted under the drain's exponent, mode and generators and
written to its slot after its block words have gone to their place; the row is cleared where the drain clears; the generators
of a row stand for the next one, which follows in the next cycle, and the flags of the conversions gather in the drain; after
the last row they join the tile's and the drain ends. -/
def Obligations.MatrixPipelinesAdvance : Prop :=
  Sys2Proof.Spec.MatrixEventsHaveTheirEffect ∧ Sys2Proof.Spec.CellsMultiplyAndLinesAdd ∧ Sys2Proof.Spec.DrainEventsHaveTheirEffect

/-- R178, R180, R181: a scalar load with a true guard at an aligned readable address samples its bytes at issue, little-endian,
and sends the value, extended as its form says, to be visible six issue cycles later; it pushes nothing and changes nothing
else. R178, R180, R181, R188, R208: a scalar store with a true guard at an aligned address of the private part or the window
counts its bytes and sends them, little-endian from EA, to be applied two issue cycles later; nothing else changes, and the
scratchpad itself not before then. R178, R180, R181, R188: a vector load samples 64 words from a word-aligned address, and a
vector store sends the words of its lanes and counts 256 undo bytes. -/
def Obligations.LoadsAndStoresComplete : Prop :=
  Sys2Proof.Spec.ScalarLoadsSampleAtIssue ∧ Sys2Proof.Spec.ScalarStoresSendTheirBytes ∧ Sys2Proof.Spec.VectorLoadsAndStores

/-- R183, R188: with every lane's address readable and word-aligned, a gather sends the words at its 64 addresses, and a scatter
sends the words of its lanes, a later lane's after an earlier one's, and counts four undo bytes for each lane. R186, R188: a
local atomic at a readable aligned word counts four undo bytes and comes to its indivisible step two issue cycles later, with
the operand read at issue. -/
def Obligations.GathersScattersAndLocalAtomicsComplete : Prop :=
  Sys2Proof.Spec.GathersAndScatters ∧ Sys2Proof.Spec.LocalAtomicsIssue

/-- R189 to R193, R196: CPYLD in bank 0 stages the 64 bytes at its aligned address when the descriptor is legal, and raises ALIGN,
SP_RANGE or COPY_DESC when it is not (that ALIGN counts before SP_RANGE is log 20's choice); CPYGO starts the staged copy
under the next ticket when the queue has room and returns the ticket, returns 0 when it is full or in bank 1, and raises
COPY_DESC with nothing staged; a copy into a ring takes the TAIL slot, advances TAIL, and raises RING_DESC, RING_FULL, or
COPY_DESC where its bytes leave the slot or meet its source; CPYSTAT returns the queue's length above the last completed
ticket. R193 to R196: a local copy starts and reads its first beat at once; a beat read in one cycle is written two cycles
later, and the next is read in the next; a written beat puts its bytes in place; a completed copy leaves the queue and its
ticket is the last done; and after a rollback bank 0's next issue cycle lets the recorded copies start again four cycles
later. -/
def Obligations.CopiesAreStagedStartedAndMoved : Prop :=
  Sys2Proof.Spec.CopyForms ∧ Sys2Proof.Spec.CopyEventsHaveTheirEffect

/-- R228, R233 to R236, R238: VBCPY enters the sequencer's queue under the next ticket and returns it, and from a bank into a ring
takes the ring's TAIL slot and moves TAIL; with four copies queued it returns 0 and starts nothing, and in bank 1 too (after
its checks: log 13); WBZERO, WBCOPY, WBCMP and LUPD with fewer than four operations accepted enter the column's queue two
cycles later and return 1, and otherwise return 0; WBTAG returns the version map and changes the masked entries three cycles
later; WBFENCE returns the bank status at once when nothing is accepted, and otherwise the core waits for what is, whatever
else its bundle does. R228, R232 to R236: what the column's forms refuse in bank 0. VBCPY raises ALIGN, SP_RANGE, for a ring
RING_DESC or RING_FULL, and COPY_DESC, where its descriptor is out of place, its ring is unusable or full, or a field, a range
or the target word is not allowed; a tile select word with a reserved bit raises OPFMT, as do LUPD's own fields after ALIGN
and then SP_RANGE of its descriptor, of which the order is the model's choice (log 20), and WBTAG's reserved bits. -/
def Obligations.BusAndBankForms : Prop :=
  Sys2Proof.Spec.BusAndBankFormsAct ∧ Sys2Proof.Spec.ColumnFormsTrap

/-- R223, R225, R227, R229, R233, R240, R242: the events of the vertical bus: a bus copy places its request in a slot of its layer
when the port is free, and its first beat comes twenty cycles later or in the next slot of the layer after that; a beat of
MLDWB in an owned slot reads one bank row of 128 bytes, which enters its plane in the next cycle; slot tables written take
effect together; a map update changes the masked entries; a failed wire takes one of eight spares and waits for its repair, or
without a spare the column and its cores are retired; a repair holds the bus for 32 cycles, and then the bus is free. R194,
R195, R228 to R230, R241: a beat of a copy stands for one 128-byte block of the destination that a run touches, in the order
of the runs. In a slot of its layer a bus copy reads its beat, a marked bank word as NAL, and the write follows a cycle later,
to its own scratchpad, its target layer's or the bank tile; after its last beat the port is free, and the copy is complete
with its last write. A beat that a failure or repair holds back is a data error of its core. -/
def Obligations.BusEventsHaveTheirEffect : Prop :=
  Sys2Proof.Spec.BusTransfersAndTheirRepair ∧ Sys2Proof.Spec.BusCopiesMoveTheirBeats

/-- R234 to R238, R241: the events of the bank engine, for the operation at the head of a column's queue: a row of WBZERO or
WBCOPY is written; LUPD takes one 128-byte gradient beat in a slot of the engine, then reads a row and writes its update a
cycle later (a gradient that a failure or repair delays begins again, after one data error of its owner for each failure: the
model's choice, log 19); the end of an operation leaves the queue, replaces the status of the core of a WBCMP or LUPD, lets
the next begin a cycle later, and releases a fence that waited for it alone; and a released fence sends the status. R234,
R235: the row steps of a bank operation. It begins in its own cycle or when the engine is free, and then takes one row a
cycle: WBZERO writes the row at the end of it, WBCOPY reads it and writes it a cycle later, WBCMP reads a row of both tiles
and counts the bytes that differ and the place of the first; an LUPD lets its gradient beats begin twenty cycles later. R237:
a row of a log update, element by element: zero and NAL, and an element whose gradient is a NaN, or infinite under κ of zero,
stay, and the latter two set NANSEEN; any other keeps its sign and its magnitude falls by d, the nearest integer to κ times
the gradient with the sign of the code, limited to DMAX, and is held to 1 to 127; those so held are counted, and the first of
them is recorded. -/
def Obligations.BankEngineEventsHaveTheirEffect : Prop :=
  Sys2Proof.Spec.BankOperationsMoveTheirRows ∧ Sys2Proof.Spec.BankOperationsTakeARowACycle ∧ Sys2Proof.Spec.LogUpdatesFollowTheirRule

/-- R201 to R205: at the end of the drain of a trap, outside a rerun, the last checkpoint is restored, and after the cycles that
rollback takes (a flit taken counted as 32 bytes of U and a statistics word as 4, the model's choice, log 16) the handler is
entered; entering it writes CAUSE, TRAP_PC and CKP_PC and starts bank 1 at offset 0 with no dwell, and leaves every other
register. R122, R206: bank 0 resumes after RFT with the checkpoint's remaining dwell, its pending entries, and the wait for a
barrier or for a fence that it was in (a barrier's wait is over where the barrier has completed meanwhile), at the offset RFT
found in CKP_PC; that bits [25:2] of it give the offset, and that a waiting fence is resumed, are the model's choice (log 15);
bank 1's registers stay. R200, R205, R250: a trap in bank 1, and a HALT there, stop the core, leave a record in the die's log,
and abort its task: the task goes back to its queue, held, with the exchange state and the budget of its image, and its cores
lose it and what they had under way, in the cycle of the cause (log 23); the handler fault's record has the slot and cause
HANDLER_FAULT, the offset of the bundle and CKP_PC, the HALT's the registers that the trap wrote. -/
def Obligations.TrapsRollBackAndBankZeroResumes : Prop :=
  Sys2Proof.Spec.TrapsRollBackAndEnterTheHandler ∧ Sys2Proof.Spec.BankZeroResumesFromItsCheckpoint ∧ Sys2Proof.Spec.BankOneFaultsAbortTheTask

/-- R201, R205, R213: a data error in bank 0 outside a rerun starts a drain for the double rerun, discarding a trap that drains or
rolls back (its handler is then not entered, and bank 0 resumes); one in a run of a rerun keeps its runs from committing, and
one before or between them changes nothing; one in a result of bank 1 retires the core, but one of a transfer of bank 0 that
comes in while bank 1 runs starts the drain at once (log 17's choices: this, that a trap raised before is discarded, and that
an error before or between the runs counts for nothing; log 16's: what the time of a rollback counts beside R204's bytes and
rows). R204, R213, R214: the drain of a data error ends in the checkpoint's state, from which bank 0 runs the interval again
with cycles and signature at 0, and so does that of run A's end; a run ends at the checkpoint bundle, or in a trap, with its
cycles and its signature over the words of a run's end, and run B's end brings the comparison; bank 0 resumes from the
checkpoint unless the column's bus is blocked, when it waits (log 17's choices: the drain after run A, the signature begun
again at run B's rollback, the wait; log 16's: the time of a rollback). R213, R216: two runs that end alike at the checkpoint
bundle, with no disagreement, commit the interval; two that end in the same trap alike take that trap once the roll back is
over; two that differ, or that a data error or a disagreement has marked, retire the core. R216, R250, R261, R265: a core that
retires is marked and runs no more, leaves a retirement record with its task and cause DATA_ERR in its die's log and takes its
site column out of the grid; without a task every other core and column stays as it is; with one, that task goes back to its
queue, not held, with its image's exchange state and budget, and its cores lose it in the cycle of the retirement (that cycle
is the model's choice, log 23). -/
def Obligations.DataErrorsRunTwiceAndMayRetireTheCore : Prop :=
  Sys2Proof.Spec.DataErrorsRunTheIntervalTwice ∧ Sys2Proof.Spec.RerunsStartAndEnd ∧ Sys2Proof.Spec.RerunsAreCompared ∧ Sys2Proof.Spec.RetirementIsReported

/-- R243, R246 to R249, R259: the events of a superstep's end and start. An arrival is recorded; a boundary that completes, with
tasks or with none resident, sets the counter's next value, which the counter takes in the next cycle, when every mesh FIFO of
a resident task is emptied, and each that held flits, those of tasks that left their cores at the boundary first, has a record
MESH_RESIDUE with its core, port and task; a task that starts is marked, finds its entries of moved segments rewritten (R318;
log 34), its cores issue again and hold a checkpoint (of a launched core: log 15), and its deadline falls D(b) cycles after
its start; a task that has not arrived then is stopped at once, and 64 cycles later its stop is complete, while its record and
abort follow at the boundary (the stop in the deadline's own cycle is log 23's choice). R217 to R219: an image of a core holds
bank 0, the barriers, the copy registers, both planes, the statistics, the tiles and the core's ranges at the places of the
layout, under its header, and elsewhere zero. An image is refused for a wrong header, a reserved field that is set, or ranges
out of bounds, misaligned or overlapping (an empty one inside another: log 15). Loading one gives the core all it holds, the
rest of the scratchpad as zero, and nothing else. R217, R219, R258 to R262: the task controller at a boundary. A task whose
cores have all halted retires, its cores are free and its completion record is written; at a device checkpoint any other is
imaged, its slice is charged, and one pre-empted or whose slice cannot hold its next superstep goes back to its queue. A
queued task is ready when its predecessors have retired, its inputs are in HBM, it is not held and its queue has a slice; of
its kind it is placed at the lowest free origin, by y and then x, its cores are launched from their images or fresh, and its
superstep starts 16 cycles later at the earliest. -/
def Obligations.SuperstepEventsHaveTheirEffect : Prop :=
  Sys2Proof.Spec.SuperstepsEndAndStart ∧ Sys2Proof.Spec.ImagesHoldAndRestoreTheCore ∧ Sys2Proof.Spec.BoundariesRetireImageAndPlace

/-- R253, R255, R256: in an exchange superstep, with a true guard and no interlock, XSEND sends its flits out of a port that leads
to a neighbour, one a cycle, and out of a null port sends none; XRECV takes the oldest flits of its port into a register,
visible two cycles later, counts 32 undo bytes for each, and from a null port takes none; XFWD takes flits and sends the same.
That XRECV from a null port writes no register, and that XFWD from one sends nothing and to one drops what it took, is the
model's choice (log 24). R341, R343, R344: in an exchange superstep, with a true guard and no interlock, FSEND spends a credit
for each of its flits and puts them in its port's queue, by the cycle they were handed over in and then by core; FRECV takes
the oldest flits of its port into a register, visible two cycles later, and their senders' credits return one hop and two
cycles later, counted from the fabric cycle of the step that takes them (log 25); a null port takes and gives nothing. -/
def Obligations.MeshAndFabricFormsMoveFlits : Prop :=
  Sys2Proof.Spec.MeshFormsMoveFlits ∧ Sys2Proof.Spec.FabricFormsMoveFlits

/-- R244, R266 to R273, R277, R281, R284: a tile load or store, a guard form or a far atomic whose descriptor its map allows and
whose ranges are mapped with the permissions they need is accepted; a load into a ring takes the tail slot, and a store or an
atomic marks its segment dirty. R300 to R302, R306, R308, R309, R315: the near-memory commands, the fence, the block forms and
TLOADZ are accepted in the same way, with the placement their rules ask for; the fence waits for the commands of its core that
are held. -/
def Obligations.FarFormsAreAccepted : Prop :=
  Sys2Proof.Spec.TileGuardAndAtomicFormsAreAccepted ∧ Sys2Proof.Spec.PackageMemoryFormsAreAccepted

/-- R268, R270, R272, R283: with 768 entries held a tile load answers sD = 0 and does nothing else; FSTAT gives the entries held;
and a tile load's descriptor out of place, with a field its map forbids, or with a range not mapped, not within its segment or
without its permission raises the cause of that check, in this order, and does nothing else. R268: in an exchange superstep
every far form raises ALIGN where its descriptor is misaligned, and SP_RANGE where it leaves the scratchpad; a load into a
ring raises RING_DESC or RING_FULL next. R268, R272, R277, R281, R288: with its descriptor in place, a tile store, a guard
form or a far atomic raises FAR_DESC for a field its map forbids, then the cause of its ranges, then DUP_UNGUARDED for a
duplicated segment it may not write so. R300 to R302, R308, R309, R315, R351, R352, R358: with its descriptor in place and a
ring it loads into ready, a near-memory command, a block form, TLOADZ or a collective form raises FAR_DESC for a field its map
forbids; then the first two the cause of their ranges and NM_PLACE, the block forms BK_DENIED for a task without blocks,
TLOADZ the cause of its ranges, and the collectives and CCANCEL COLL_GROUP for a group that is not one. R270: a form that
would be accepted, but for its 768 entries all held, answers sD = 0 and does nothing else; an outbound one has its place in
the log. R78, R266, R272, R273, R277, R300 to R302, R308, R315, R346, R351, R352: the fields of the far descriptors, and what
each form's map forbids: a reserved or must-be-zero field, a value out of range or off its alignment, scratchpad bytes outside
the private part and the window or outside the ring's slot, ranges that overlap, and a store to an encrypted segment of less
than whole lines. The ranges of a near-memory command have its permissions and lie in HBM on one stack; a group fits the torus
and holds the package. -/
def Obligations.FarFormsRefuseAndTrap : Prop :=
  Sys2Proof.Spec.TileLoadsRefuseAndTrap ∧ Sys2Proof.Spec.FarDescriptorsAreInPlace ∧ Sys2Proof.Spec.TileGuardAndAtomicFormsTrap ∧ Sys2Proof.Spec.PackageMemoryAndCollectiveFormsTrap ∧ Sys2Proof.Spec.FarFormsWithoutAnEntryAreRefused ∧ Sys2Proof.Spec.DescriptorFieldsAreChecked

/-- R290, R299, R346: a line written in the clear reads back as written, in HBM and in the second tier, and every other line of
its segment reads as before; a line of an encrypted segment holds its ciphertext and its tag; a poisoned line reads as none,
and a partial write to it fails and leaves it, while a write of all of its bytes clears it; a line beyond the memory that R2,
R299 and R317 give reads as none and takes no write (log 29). R278, R279: GACQ takes a free guard, and in shared mode a shared
one, and is BUSY otherwise; an exclusive grant records the owner and starts the counts again, and reports POISONED where the
guard has counted poison; GREL ends the holder's own grant, with the count of arrivals compared and the epoch advanced for an
exclusive one, and is LOST otherwise; a tagged store counts one arrival, its failing lines, and the first of them. -/
def Obligations.FarLinesReadBackAndGuardsAreTaken : Prop :=
  Sys2Proof.Spec.FarLinesReadBack ∧ Sys2Proof.Spec.GuardsAreTakenAndReleased

/-- R307 to R311: a Bramble form at the directory waits for the core's earlier forms to have been there, and a copy on write for
its earlier stores to the block; BKALLOC maps its key to a free block of zeros, or answers EXISTS or FULL; BKXLAT, BKSHARE and
BKFREE look the key up, share its block, take it away, or answer NOKEY, EXISTS or FULL; BKLOAD and BKSTORE are translated to
the key's block, and a BKSTORE to a shared block to a copy of it on the same stack, or answers FULL; NOKEY leaves a load zeros
(log 32's choices: which free block is taken, FULL at 4,194,304 keys for BKALLOC and BKSHARE, and the wait of a copy on write
for the core's earlier stores). R275, R308, R309, R311: a block access reads each line of a store's source at one time, moves
its lines, each after those of the core's earlier forms on the block, and writes what a load brings to the scratchpad, zeros
for a poisoned line; after the last it completes, OK or POISONED with its failing lines, with OUTCOME, REFS and the block; and
a block without references and accesses is free again. R307: the directory, the lines and the pools keep the block store's
maps canonical (log 1) and its pools within 976,562 blocks. R285, R312, R314, R316, R345: TLOADZ reads the line of its
directory entry and then, line by line, the bytes of the tile that the entry names, each after the core's earlier forms on
that line; once all have come it brings the tile, or zeros with its reason, and completes: a ZERO tile reads no byte, a RAW
tile comes as stored, and a bad or poisoned entry, or a line that fails, has its reason (log 33). R313, R314: a row whose bits
are the canonical codes of 128 symbols and up to 7 bits more decodes to them; with more left it is TAIL, cut off within a code
SHORT; a tile has the first reason of its header in the order of R314 (a short tile is LENGTH: log 33), and the rows of a
sound one follow in turn. -/
def Obligations.BlockAndSloeEventsHaveTheirEffect : Prop :=
  Sys2Proof.Spec.BlockDirectoryAnswers ∧ Sys2Proof.Spec.BlockAccessesMoveTheirLines ∧ Sys2Proof.Spec.BlockStoreStaysCanonical ∧ Sys2Proof.Spec.TloadzEventsHaveTheirEffect ∧ Sys2Proof.Spec.SloeTilesDecodeTheirCanonicalCodes

/-- R349, R350, R353, R354, R356 to R358, R360: a request leaves its package for the primary; a first request for an identity
makes a record there; a grant of a term not passed is kept, starts at START, and is late when START has passed, and a void one
ends what an earlier one had scheduled; a collective that starts reads its input flit by flit in its window, lacks the flits
of links that are down, writes OUT by the window's end and completes in the next die cycle; completion writes FLAGS, OUTCOME
and the grant, then STATUS; a late participant ends POISONED, and a void collective LOST with its outcome. The cycles of the
reads, the cycle of OUT within the rules' bounds, the COUNT of a late participant, and what a late or void one writes to words
10 to 13 are log 26's. R351, R353: the package at offset (i, j, k) of the box, wrapping, has rank i + NX·(j + NY·k), and the
participants stand in rank order. R355, R356: a wire word given as input is clipped to ±(2^49 − 1) with OVF, NANW kept; an
output word is stored whole, or is the exact W·2^S converted to OFMT, NANW the outcome of a NaN with NAN and NFIN. R353, R355,
R356, R360: OUT of a participant: an element of AR or RS is delivered from the sum over the ranks of its wire words (NANW
where one is), a byte of AG or BC is its source's; an element or byte of a poisoned flit keeps its old bits, and COUNT is the
number of flits with one. R360: which flits are poisoned. None where every participant runs and none is lost; a flit lost on
the way to the origin, or a participant that does not run, poisons a reduction at every rank, a broadcast where it lies on the
root's way, and a gather's bytes that came that way at every rank but their own; one lost on the return path poisons it where
it was due and onward. -/
def Obligations.CollectiveEventsHaveTheirEffect : Prop :=
  Sys2Proof.Spec.CollectiveEventsAct ∧ Sys2Proof.Spec.RanksHaveTheirPlaces ∧ Sys2Proof.Spec.WireWordsAreConverted ∧ Sys2Proof.Spec.CollectivesDeliverTheirResults ∧ Sys2Proof.Spec.LostFlitsPoisonWhatTheyCarried

/-- R7, R318 to R321, R328 to R332, R337: a reset, at power on, on demand or for heat, puts the package at its reset values and
starts its boot; a boot with a sound image records the measurements, finds the failed cores and ends ready, and without one
ends in recovery, where the management port takes a signed image; a die asked to throttle is marked, and steps its clock down
by 100 MHz at its next boundary; a device checkpoint is copied within R320's time, committed, which clears DIRTY of the
segments in the tier, and let go; a segment that has moved stands in HBM, and the tables of a die that runs supersteps are
rewritten at its next boundary, another's at once; and a pod boots with its clock at zero. What outlives a reset is log 38's;
the events of heat log 40's; POD_BOOT's arguments log 41's; what a checkpoint holds log 42's; the time of a table's rewriting
with no task resident log 34's; the image that boots log 44's. R321, R328, R329, R332: a boot runs the image of slot A, or of
slot B where A fails; after its tests the boot that follows a trip restores the last committed checkpoint, so that its tasks
resume; then a command that was pending completes, DISCARD, LOGREAD, ATTEST and BKPOOL with REFUSED and any other by running;
and READY is set when it is over. That the command follows the restore, and that READY waits for it, are the model's order
(logs 38, 40; log 44 for what the test finds). -/
def Obligations.PackageEventsHaveTheirEffect : Prop :=
  Sys2Proof.Spec.PackageEventsAct ∧ Sys2Proof.Spec.BootsFinishWhatWasPending
end

