-- ==== Sys2Proof/Laws/Sparse.lean ====
section
/-! SUPPORT. The laws of the sparse map and of the byte memory: a read after a write, and the canonical form that
every operation keeps. -/

namespace Sys2Proof.Machine

theorem sget_cons_lt {α : Type} (d : α) {a j : Nat} (v : α) (r : SMap α) (h : j < a) : sget d ((a, v) :: r) j = d := by
  simp [sget, h, Nat.ne_of_gt h]
theorem sget_cons_eq {α : Type} (d : α) (a : Nat) (v : α) (r : SMap α) : sget d ((a, v) :: r) a = v := by
  simp [sget]
theorem sget_cons_gt {α : Type} (d : α) {a j : Nat} (v : α) (r : SMap α) (h : a < j) :
    sget d ((a, v) :: r) j = sget d r j := by
  simp [sget, Nat.ne_of_lt h, Nat.not_lt_of_gt h]

theorem sget_dropWhile {α : Type} (d : α) (m : SMap α) (k j : Nat) :
    sget d (m.dropWhile fun x => decide (x.1 ≤ k)) j = if j ≤ k then d else sget d m j := by
  induction m with
  | nil => simp [sget]
  | cons x r ih =>
    obtain ⟨a, v⟩ := x
    by_cases h : a ≤ k
    · rw [List.dropWhile_cons_of_pos (by simpa using h), ih]
      split
      · rfl
      · rw [sget_cons_gt d v r (by omega)]
    · rw [List.dropWhile_cons_of_neg (by simpa using h)]
      split
      · rw [sget_cons_lt d v r (by omega)]
      · rfl

theorem sget_sset {α : Type} [DecidableEq α] (d : α) (m : SMap α) (k j : Nat) (v : α) :
    sget d (sset d m k v) j = if j = k then v else sget d m j := by
  induction m with
  | nil =>
    by_cases h : v = d
    · simp [sset, sget, h]
    · rcases Nat.lt_trichotomy j k with hj | hj | hj
      · simp [sset, h, sget, hj, Nat.ne_of_lt hj, Nat.ne_of_gt hj]
      · subst hj; simp [sset, h, sget]
      · simp [sset, h, sget, Nat.ne_of_lt hj, Nat.ne_of_gt hj]
  | cons x r ih =>
    obtain ⟨a, w⟩ := x
    rcases Nat.lt_trichotomy a k with ha | ha | ha
    · rw [show sset d ((a, w) :: r) k v = (a, w) :: sset d r k v by simp [sset, ha]]
      rcases Nat.lt_trichotomy j a with hj | hj | hj
      · rw [sget_cons_lt _ _ _ hj, sget_cons_lt _ _ _ hj, if_neg (by omega)]
      · subst hj; rw [sget_cons_eq, sget_cons_eq, if_neg (by omega)]
      · rw [sget_cons_gt _ _ _ hj, sget_cons_gt _ _ _ hj, ih]
    · subst ha
      rw [show sset d ((a, w) :: r) a v = if v = d then r.dropWhile (fun x => decide (x.1 ≤ a)) else (a, v) :: r by
        simp [sset]]
      by_cases h : v = d
      · rw [if_pos h, sget_dropWhile]
        rcases Nat.lt_trichotomy j a with hj | hj | hj
        · rw [if_pos (by omega), if_neg (by omega), sget_cons_lt _ _ _ hj]
        · rw [if_pos (by omega), if_pos hj, h]
        · rw [if_neg (by omega), if_neg (by omega), sget_cons_gt _ _ _ hj]
      · rw [if_neg h]
        rcases Nat.lt_trichotomy j a with hj | hj | hj
        · rw [sget_cons_lt _ _ _ hj, sget_cons_lt _ _ _ hj, if_neg (by omega)]
        · subst hj; rw [sget_cons_eq, if_pos rfl]
        · rw [sget_cons_gt _ _ _ hj, sget_cons_gt _ _ _ hj, if_neg (by omega)]
    · rw [show sset d ((a, w) :: r) k v = if v = d then (a, w) :: r else (k, v) :: (a, w) :: r by
        simp [sset, Nat.not_lt_of_gt ha, Nat.ne_of_gt ha]]
      by_cases h : v = d
      · rw [if_pos h]
        split
        · rw [sget_cons_lt _ _ _ (by omega), h]
        · rfl
      · rw [if_neg h]
        rcases Nat.lt_trichotomy j k with hj | hj | hj
        · rw [sget_cons_lt _ _ _ hj, sget_cons_lt _ _ _ (by omega), if_neg (by omega)]
        · subst hj; rw [sget_cons_eq, if_pos rfl]
        · rw [sget_cons_gt _ _ _ hj, if_neg (by omega)]

theorem sget_sset_self {α : Type} [DecidableEq α] (d : α) (m : SMap α) (k : Nat) (v : α) :
    sget d (sset d m k v) k = v := by rw [sget_sset, if_pos rfl]

theorem sget_sset_other {α : Type} [DecidableEq α] (d : α) (m : SMap α) {k j : Nat} (v : α) (h : j ≠ k) :
    sget d (sset d m k v) j = sget d m j := by rw [sget_sset, if_neg h]

theorem sget_smod {α : Type} [DecidableEq α] (d : α) (m : SMap α) (k j : Nat) (f : α → α) :
    sget d (smod d m k f) j = if j = k then f (sget d m j) else sget d m j := by
  rw [smod, sget_sset]; split
  · subst_vars; rfl
  · rfl

/-- The keys of a canonical map below which nothing is listed. -/
theorem swf_tail {α : Type} [DecidableEq α] {d : α} {x : Nat × α} {r : SMap α} (h : swf d (x :: r) = true) :
    swf d r = true := by
  cases r with
  | nil => rfl
  | cons y t => simp only [swf, Bool.and_eq_true] at h; exact h.2

theorem swf_cons {α : Type} [DecidableEq α] {d : α} {k : Nat} {v : α} {r : SMap α} (hv : v ≠ d)
    (hr : swf d r = true) (hk : ∀ x ∈ r.head?, k < x.1) : swf d ((k, v) :: r) = true := by
  cases r with
  | nil => simp [swf, hv]
  | cons y t => obtain ⟨a, w⟩ := y; simp [swf, hv, hr, hk (a, w) (by simp)]

theorem swf_head {α : Type} [DecidableEq α] {d : α} {k : Nat} {v : α} {r : SMap α}
    (h : swf d ((k, v) :: r) = true) : v ≠ d ∧ ∀ x ∈ r.head?, k < x.1 := by
  cases r with
  | nil => simpa [swf] using h
  | cons y t => obtain ⟨a, w⟩ := y; simp [swf] at h; simp [h]

theorem swf_dropWhile {α : Type} [DecidableEq α] {d : α} (p : Nat × α → Bool) (m : SMap α) (h : swf d m = true) :
    swf d (m.dropWhile p) = true := by
  induction m with
  | nil => rfl
  | cons x r ih =>
    by_cases hp : p x = true
    · rw [List.dropWhile_cons_of_pos hp]; exact ih (swf_tail h)
    · rw [List.dropWhile_cons_of_neg hp]; exact h

theorem head_sset {α : Type} [DecidableEq α] (d : α) (m : SMap α) (k : Nat) (v : α) (b : Nat) (hb : b < k)
    (h : swf d m = true) (hm : ∀ x ∈ m.head?, b < x.1) : ∀ x ∈ (sset d m k v).head?, b < x.1 := by
  cases m with
  | nil => by_cases hv : v = d <;> simp [sset, hv, hb]
  | cons y r =>
    obtain ⟨a, w⟩ := y
    have ha : b < a := hm (a, w) (by simp)
    simp only [sset]
    split
    · simpa using ha
    · split
      · split
        · cases r with
          | nil => simp
          | cons z t =>
            obtain ⟨c, u⟩ := z
            have := (swf_head h).2 (c, u) (by simp)
            rw [List.dropWhile_cons_of_neg (by simp; omega)]
            simp; omega
        · simpa using hb
      · split
        · simpa using ha
        · simpa using hb

/-- A write keeps the canonical form. -/
theorem swf_sset {α : Type} [DecidableEq α] (d : α) (m : SMap α) (k : Nat) (v : α) (h : swf d m = true) :
    swf d (sset d m k v) = true := by
  induction m with
  | nil => by_cases hv : v = d <;> simp [sset, swf, hv]
  | cons y r ih =>
    obtain ⟨a, w⟩ := y
    simp only [sset]
    split
    · exact swf_cons (swf_head h).1 (ih (swf_tail h)) (head_sset d r k v a (by assumption) (swf_tail h) (swf_head h).2)
    · split
      · subst_vars
        split
        · exact swf_dropWhile _ _ (swf_tail h)
        · exact swf_cons (by assumption) (swf_tail h) (swf_head h).2
      · split
        · exact h
        · exact swf_cons (by assumption) h (by simp; omega)

theorem swf_smod {α : Type} [DecidableEq α] (d : α) (m : SMap α) (k : Nat) (f : α → α) (h : swf d m = true) :
    swf d (smod d m k f) = true := swf_sset d m k _ h

theorem swf_ssetAll {α : Type} [DecidableEq α] (d : α) (l : List (Nat × α)) (m : SMap α) (h : swf d m = true) :
    swf d (ssetAll d m l) = true := by
  induction l generalizing m with
  | nil => exact h
  | cons x r ih => exact ih _ (swf_sset d m x.1 x.2 h)

theorem swf_iff_pairwise {α : Type} [DecidableEq α] (d : α) (m : SMap α) :
    swf d m = true ↔ (∀ x ∈ m, x.2 ≠ d) ∧ m.Pairwise fun x y => x.1 < y.1 := by
  induction m with
  | nil => simp [swf]
  | cons y r ih =>
    obtain ⟨a, w⟩ := y
    constructor
    · intro h
      have ⟨h1, h2⟩ := ih.1 (swf_tail h)
      have ⟨h3, h4⟩ := swf_head h
      refine ⟨by simpa using ⟨h3, fun k v hx => h1 (k, v) hx⟩, List.pairwise_cons.2 ⟨?_, h2⟩⟩
      cases r with
      | nil => simp
      | cons z t =>
        have hz := h4 z (by simp)
        intro x hx
        rcases List.mem_cons.1 hx with rfl | hx
        · exact hz
        · exact Nat.lt_trans hz ((List.pairwise_cons.1 h2).1 x hx)
    · rintro ⟨h1, h2⟩
      have h2 := List.pairwise_cons.1 h2
      refine swf_cons (h1 (a, w) (by simp)) (ih.2 ⟨fun x hx => h1 x (by simp [hx]), h2.2⟩) fun x hx => h2.1 x ?_
      cases r <;> simp_all

theorem swf_filter {α : Type} [DecidableEq α] (d : α) (m : SMap α) (p : Nat × α → Bool) (h : swf d m = true) :
    swf d (m.filter p) = true := by
  rw [swf_iff_pairwise] at h ⊢
  exact ⟨fun x hx => h.1 x (List.mem_filter.1 hx).1, h.2.filter p⟩

theorem swf_sclear {α : Type} [DecidableEq α] (d : α) (m : SMap α) (lo hi : Nat) (h : swf d m = true) :
    swf d (sclear m lo hi) = true := swf_filter d m _ h

theorem swf_srange {α : Type} [DecidableEq α] (d : α) (m : SMap α) (lo hi : Nat) (h : swf d m = true) :
    swf d (srange m lo hi) = true := swf_filter d m _ h

/-! ### Byte memories -/

theorem byte_setByte (m : Memory) (a j : Nat) (b : Byte) :
    (m.setByte a b).byte j = if j = a then b else m.byte j := sget_sset 0#8 m a j b

theorem setBytes_cons (m : Memory) (a : Nat) (b : Byte) (bs : List Byte) :
    m.setBytes a (b :: bs) = (m.setByte a b).setBytes (a + 1) bs := rfl

/-- A byte after a write of bytes: the byte written there, or the byte before. -/
theorem byte_setBytes (m : Memory) (a j : Nat) (bs : List Byte) :
    (m.setBytes a bs).byte j = if a ≤ j ∧ j < a + bs.length then bs.getD (j - a) 0 else m.byte j := by
  induction bs generalizing m a with
  | nil => rw [if_neg (by simp only [List.length_nil]; omega)]; rfl
  | cons b r ih =>
    rw [setBytes_cons, ih, byte_setByte]
    by_cases h : j = a
    · subst h; simp
    · by_cases h2 : a + 1 ≤ j ∧ j < a + 1 + r.length
      · rw [if_pos h2, if_pos (by simp; omega), show j - a = (j - (a + 1)) + 1 by omega]; simp
      · rw [if_neg h2, if_neg h, if_neg (by simp; omega)]

theorem byte_setBytes_outside (m : Memory) (a j : Nat) (bs : List Byte) (h : j < a ∨ a + bs.length ≤ j) :
    (m.setBytes a bs).byte j = m.byte j := by rw [byte_setBytes, if_neg (by omega)]

theorem length_bytesOfNat (n v : Nat) : (bytesOfNat n v).length = n := by
  induction n generalizing v with
  | zero => rfl
  | succ n ih => simp [bytesOfNat, ih]

theorem length_bytes (m : Memory) (a n : Nat) : (m.bytes a n).length = n := by simp [Memory.bytes]

/-- The bytes of a number make the number again. -/
theorem natOfBytes_bytesOfNat (n v : Nat) : natOfBytes (bytesOfNat n v) = v % 256 ^ n := by
  induction n generalizing v with
  | zero => simp [bytesOfNat, natOfBytes, Nat.mod_one]
  | succ n ih =>
    simp only [bytesOfNat, natOfBytes, ih, BitVec.toNat_ofNat]
    rw [show (256 : Nat) ^ (n + 1) = 256 * 256 ^ n by rw [Nat.pow_succ, Nat.mul_comm], Nat.mod_mul]

theorem bytes_setBytes_self (m : Memory) (a : Nat) (bs : List Byte) :
    (m.setBytes a bs).bytes a bs.length = bs := by
  apply List.ext_getElem
  · simp [Memory.bytes]
  · intro i h1 h2
    simp only [Memory.bytes, List.getElem_map, List.getElem_range, byte_setBytes]
    rw [if_pos (by omega)]
    simp [List.getD, h2]

/-- Reading back a number just written. -/
theorem nat_setNat_self (m : Memory) (a n v : Nat) : (m.setNat a n v).nat a n = v % 256 ^ n := by
  have h := bytes_setBytes_self m a (bytesOfNat n v)
  rw [length_bytesOfNat] at h
  simp only [Memory.nat, Memory.setNat, h, natOfBytes_bytesOfNat]

theorem wf_setByte (m : Memory) (a : Nat) (b : Byte) (h : m.wf = true) : (m.setByte a b).wf = true :=
  swf_sset 0#8 m a b h

theorem wf_setBytes (m : Memory) (a : Nat) (bs : List Byte) (h : m.wf = true) : (m.setBytes a bs).wf = true := by
  induction bs generalizing m a with
  | nil => exact h
  | cons b r ih => exact ih _ _ (wf_setByte m a b h)

theorem wf_setNat (m : Memory) (a n v : Nat) (h : m.wf = true) : (m.setNat a n v).wf = true := wf_setBytes m a _ h

/-- Writes of bytes one by one, as the host's writes to its memory and the arrivals of a core are made. -/
theorem wf_foldl_setByte {α : Type} (l : List α) (f : α → Nat × Byte) (m : Memory) (h : m.wf = true) :
    (l.foldl (fun m x => m.setByte (f x).1 (f x).2) m).wf = true := by
  induction l generalizing m with
  | nil => exact h
  | cons x r ih => exact ih _ (wf_setByte m _ _ h)

theorem wf_nil : Memory.wf [] = true := rfl

end Sys2Proof.Machine
end

