-- ==== Sys2Proof/Laws/State.lean ====
section
/-! SUPPORT. What each update of the state leaves alone: one lemma for each field and update, and the reading of a core,
column, die or package after it was written. -/

namespace Sys2Proof.Machine

/-! ### The state -/

@[simp] theorem setCore_columns (s : State) (k : Nat) (c : Core) :
    (s.setCore k c).columns = s.columns := rfl

@[simp] theorem setCore_dies (s : State) (k : Nat) (c : Core) :
    (s.setCore k c).dies = s.dies := rfl

@[simp] theorem setCore_pkgs (s : State) (k : Nat) (c : Core) :
    (s.setCore k c).pkgs = s.pkgs := rfl

@[simp] theorem setCore_fab (s : State) (k : Nat) (c : Core) :
    (s.setCore k c).fab = s.fab := rfl

@[simp] theorem setCore_dx (s : State) (k : Nat) (c : Core) :
    (s.setCore k c).dx = s.dx := rfl

@[simp] theorem setCore_dy (s : State) (k : Nat) (c : Core) :
    (s.setCore k c).dy = s.dy := rfl

@[simp] theorem setCore_dz (s : State) (k : Nat) (c : Core) :
    (s.setCore k c).dz = s.dz := rfl

@[simp] theorem setCore_primary (s : State) (k : Nat) (c : Core) :
    (s.setCore k c).primary = s.primary := rfl

@[simp] theorem setCore_standby (s : State) (k : Nat) (c : Core) :
    (s.setCore k c).standby = s.standby := rfl

@[simp] theorem setCore_msgs (s : State) (k : Nat) (c : Core) :
    (s.setCore k c).msgs = s.msgs := rfl

@[simp] theorem setCore_msgId (s : State) (k : Nat) (c : Core) :
    (s.setCore k c).msgId = s.msgId := rfl

@[simp] theorem setCore_ictx (s : State) (k : Nat) (c : Core) :
    (s.setCore k c).ictx = s.ictx := rfl

@[simp] theorem setCore_ev (s : State) (k : Nat) (c : Core) :
    (s.setCore k c).ev = s.ev := rfl

@[simp] theorem setCore_todo (s : State) (k : Nat) (c : Core) :
    (s.setCore k c).todo = s.todo := rfl

@[simp] theorem setCore_agenda (s : State) (k : Nat) (c : Core) :
    (s.setCore k c).agenda = s.agenda := rfl

@[simp] theorem setCore_inputs (s : State) (k : Nat) (c : Core) :
    (s.setCore k c).inputs = s.inputs := rfl

@[simp] theorem setCore_fresh (s : State) (k : Nat) (c : Core) :
    (s.setCore k c).fresh = s.fresh := rfl

@[simp] theorem setCol_cores (s : State) (k : Nat) (c : Column) :
    (s.setCol k c).cores = s.cores := rfl

@[simp] theorem setCol_dies (s : State) (k : Nat) (c : Column) :
    (s.setCol k c).dies = s.dies := rfl

@[simp] theorem setCol_pkgs (s : State) (k : Nat) (c : Column) :
    (s.setCol k c).pkgs = s.pkgs := rfl

@[simp] theorem setCol_fab (s : State) (k : Nat) (c : Column) :
    (s.setCol k c).fab = s.fab := rfl

@[simp] theorem setCol_dx (s : State) (k : Nat) (c : Column) :
    (s.setCol k c).dx = s.dx := rfl

@[simp] theorem setCol_dy (s : State) (k : Nat) (c : Column) :
    (s.setCol k c).dy = s.dy := rfl

@[simp] theorem setCol_dz (s : State) (k : Nat) (c : Column) :
    (s.setCol k c).dz = s.dz := rfl

@[simp] theorem setCol_primary (s : State) (k : Nat) (c : Column) :
    (s.setCol k c).primary = s.primary := rfl

@[simp] theorem setCol_standby (s : State) (k : Nat) (c : Column) :
    (s.setCol k c).standby = s.standby := rfl

@[simp] theorem setCol_msgs (s : State) (k : Nat) (c : Column) :
    (s.setCol k c).msgs = s.msgs := rfl

@[simp] theorem setCol_msgId (s : State) (k : Nat) (c : Column) :
    (s.setCol k c).msgId = s.msgId := rfl

@[simp] theorem setCol_ictx (s : State) (k : Nat) (c : Column) :
    (s.setCol k c).ictx = s.ictx := rfl

@[simp] theorem setCol_ev (s : State) (k : Nat) (c : Column) :
    (s.setCol k c).ev = s.ev := rfl

@[simp] theorem setCol_todo (s : State) (k : Nat) (c : Column) :
    (s.setCol k c).todo = s.todo := rfl

@[simp] theorem setCol_agenda (s : State) (k : Nat) (c : Column) :
    (s.setCol k c).agenda = s.agenda := rfl

@[simp] theorem setCol_inputs (s : State) (k : Nat) (c : Column) :
    (s.setCol k c).inputs = s.inputs := rfl

@[simp] theorem setCol_fresh (s : State) (k : Nat) (c : Column) :
    (s.setCol k c).fresh = s.fresh := rfl

@[simp] theorem setDie_cores (s : State) (k : Nat) (d : Die) :
    (s.setDie k d).cores = s.cores := rfl

@[simp] theorem setDie_columns (s : State) (k : Nat) (d : Die) :
    (s.setDie k d).columns = s.columns := rfl

@[simp] theorem setDie_pkgs (s : State) (k : Nat) (d : Die) :
    (s.setDie k d).pkgs = s.pkgs := rfl

@[simp] theorem setDie_fab (s : State) (k : Nat) (d : Die) :
    (s.setDie k d).fab = s.fab := rfl

@[simp] theorem setDie_dx (s : State) (k : Nat) (d : Die) :
    (s.setDie k d).dx = s.dx := rfl

@[simp] theorem setDie_dy (s : State) (k : Nat) (d : Die) :
    (s.setDie k d).dy = s.dy := rfl

@[simp] theorem setDie_dz (s : State) (k : Nat) (d : Die) :
    (s.setDie k d).dz = s.dz := rfl

@[simp] theorem setDie_primary (s : State) (k : Nat) (d : Die) :
    (s.setDie k d).primary = s.primary := rfl

@[simp] theorem setDie_standby (s : State) (k : Nat) (d : Die) :
    (s.setDie k d).standby = s.standby := rfl

@[simp] theorem setDie_msgs (s : State) (k : Nat) (d : Die) :
    (s.setDie k d).msgs = s.msgs := rfl

@[simp] theorem setDie_msgId (s : State) (k : Nat) (d : Die) :
    (s.setDie k d).msgId = s.msgId := rfl

@[simp] theorem setDie_ictx (s : State) (k : Nat) (d : Die) :
    (s.setDie k d).ictx = s.ictx := rfl

@[simp] theorem setDie_ev (s : State) (k : Nat) (d : Die) :
    (s.setDie k d).ev = s.ev := rfl

@[simp] theorem setDie_todo (s : State) (k : Nat) (d : Die) :
    (s.setDie k d).todo = s.todo := rfl

@[simp] theorem setDie_agenda (s : State) (k : Nat) (d : Die) :
    (s.setDie k d).agenda = s.agenda := rfl

@[simp] theorem setDie_inputs (s : State) (k : Nat) (d : Die) :
    (s.setDie k d).inputs = s.inputs := rfl

@[simp] theorem setDie_fresh (s : State) (k : Nat) (d : Die) :
    (s.setDie k d).fresh = s.fresh := rfl

@[simp] theorem setPkg_cores (s : State) (k : Nat) (p : Pkg) :
    (s.setPkg k p).cores = s.cores := rfl

@[simp] theorem setPkg_columns (s : State) (k : Nat) (p : Pkg) :
    (s.setPkg k p).columns = s.columns := rfl

@[simp] theorem setPkg_dies (s : State) (k : Nat) (p : Pkg) :
    (s.setPkg k p).dies = s.dies := rfl

@[simp] theorem setPkg_fab (s : State) (k : Nat) (p : Pkg) :
    (s.setPkg k p).fab = s.fab := rfl

@[simp] theorem setPkg_dx (s : State) (k : Nat) (p : Pkg) :
    (s.setPkg k p).dx = s.dx := rfl

@[simp] theorem setPkg_dy (s : State) (k : Nat) (p : Pkg) :
    (s.setPkg k p).dy = s.dy := rfl

@[simp] theorem setPkg_dz (s : State) (k : Nat) (p : Pkg) :
    (s.setPkg k p).dz = s.dz := rfl

@[simp] theorem setPkg_primary (s : State) (k : Nat) (p : Pkg) :
    (s.setPkg k p).primary = s.primary := rfl

@[simp] theorem setPkg_standby (s : State) (k : Nat) (p : Pkg) :
    (s.setPkg k p).standby = s.standby := rfl

@[simp] theorem setPkg_msgs (s : State) (k : Nat) (p : Pkg) :
    (s.setPkg k p).msgs = s.msgs := rfl

@[simp] theorem setPkg_msgId (s : State) (k : Nat) (p : Pkg) :
    (s.setPkg k p).msgId = s.msgId := rfl

@[simp] theorem setPkg_ictx (s : State) (k : Nat) (p : Pkg) :
    (s.setPkg k p).ictx = s.ictx := rfl

@[simp] theorem setPkg_ev (s : State) (k : Nat) (p : Pkg) :
    (s.setPkg k p).ev = s.ev := rfl

@[simp] theorem setPkg_todo (s : State) (k : Nat) (p : Pkg) :
    (s.setPkg k p).todo = s.todo := rfl

@[simp] theorem setPkg_agenda (s : State) (k : Nat) (p : Pkg) :
    (s.setPkg k p).agenda = s.agenda := rfl

@[simp] theorem setPkg_inputs (s : State) (k : Nat) (p : Pkg) :
    (s.setPkg k p).inputs = s.inputs := rfl

@[simp] theorem setPkg_fresh (s : State) (k : Nat) (p : Pkg) :
    (s.setPkg k p).fresh = s.fresh := rfl

@[simp] theorem modCore_columns (s : State) (k : Nat) (f : Core → Core) :
    (s.modCore k f).columns = s.columns := rfl

@[simp] theorem modCore_dies (s : State) (k : Nat) (f : Core → Core) :
    (s.modCore k f).dies = s.dies := rfl

@[simp] theorem modCore_pkgs (s : State) (k : Nat) (f : Core → Core) :
    (s.modCore k f).pkgs = s.pkgs := rfl

@[simp] theorem modCore_fab (s : State) (k : Nat) (f : Core → Core) :
    (s.modCore k f).fab = s.fab := rfl

@[simp] theorem modCore_dx (s : State) (k : Nat) (f : Core → Core) :
    (s.modCore k f).dx = s.dx := rfl

@[simp] theorem modCore_dy (s : State) (k : Nat) (f : Core → Core) :
    (s.modCore k f).dy = s.dy := rfl

@[simp] theorem modCore_dz (s : State) (k : Nat) (f : Core → Core) :
    (s.modCore k f).dz = s.dz := rfl

@[simp] theorem modCore_primary (s : State) (k : Nat) (f : Core → Core) :
    (s.modCore k f).primary = s.primary := rfl

@[simp] theorem modCore_standby (s : State) (k : Nat) (f : Core → Core) :
    (s.modCore k f).standby = s.standby := rfl

@[simp] theorem modCore_msgs (s : State) (k : Nat) (f : Core → Core) :
    (s.modCore k f).msgs = s.msgs := rfl

@[simp] theorem modCore_msgId (s : State) (k : Nat) (f : Core → Core) :
    (s.modCore k f).msgId = s.msgId := rfl

@[simp] theorem modCore_ictx (s : State) (k : Nat) (f : Core → Core) :
    (s.modCore k f).ictx = s.ictx := rfl

@[simp] theorem modCore_ev (s : State) (k : Nat) (f : Core → Core) :
    (s.modCore k f).ev = s.ev := rfl

@[simp] theorem modCore_todo (s : State) (k : Nat) (f : Core → Core) :
    (s.modCore k f).todo = s.todo := rfl

@[simp] theorem modCore_agenda (s : State) (k : Nat) (f : Core → Core) :
    (s.modCore k f).agenda = s.agenda := rfl

@[simp] theorem modCore_inputs (s : State) (k : Nat) (f : Core → Core) :
    (s.modCore k f).inputs = s.inputs := rfl

@[simp] theorem modCore_fresh (s : State) (k : Nat) (f : Core → Core) :
    (s.modCore k f).fresh = s.fresh := rfl

@[simp] theorem modCol_cores (s : State) (k : Nat) (f : Column → Column) :
    (s.modCol k f).cores = s.cores := rfl

@[simp] theorem modCol_dies (s : State) (k : Nat) (f : Column → Column) :
    (s.modCol k f).dies = s.dies := rfl

@[simp] theorem modCol_pkgs (s : State) (k : Nat) (f : Column → Column) :
    (s.modCol k f).pkgs = s.pkgs := rfl

@[simp] theorem modCol_fab (s : State) (k : Nat) (f : Column → Column) :
    (s.modCol k f).fab = s.fab := rfl

@[simp] theorem modCol_dx (s : State) (k : Nat) (f : Column → Column) :
    (s.modCol k f).dx = s.dx := rfl

@[simp] theorem modCol_dy (s : State) (k : Nat) (f : Column → Column) :
    (s.modCol k f).dy = s.dy := rfl

@[simp] theorem modCol_dz (s : State) (k : Nat) (f : Column → Column) :
    (s.modCol k f).dz = s.dz := rfl

@[simp] theorem modCol_primary (s : State) (k : Nat) (f : Column → Column) :
    (s.modCol k f).primary = s.primary := rfl

@[simp] theorem modCol_standby (s : State) (k : Nat) (f : Column → Column) :
    (s.modCol k f).standby = s.standby := rfl

@[simp] theorem modCol_msgs (s : State) (k : Nat) (f : Column → Column) :
    (s.modCol k f).msgs = s.msgs := rfl

@[simp] theorem modCol_msgId (s : State) (k : Nat) (f : Column → Column) :
    (s.modCol k f).msgId = s.msgId := rfl

@[simp] theorem modCol_ictx (s : State) (k : Nat) (f : Column → Column) :
    (s.modCol k f).ictx = s.ictx := rfl

@[simp] theorem modCol_ev (s : State) (k : Nat) (f : Column → Column) :
    (s.modCol k f).ev = s.ev := rfl

@[simp] theorem modCol_todo (s : State) (k : Nat) (f : Column → Column) :
    (s.modCol k f).todo = s.todo := rfl

@[simp] theorem modCol_agenda (s : State) (k : Nat) (f : Column → Column) :
    (s.modCol k f).agenda = s.agenda := rfl

@[simp] theorem modCol_inputs (s : State) (k : Nat) (f : Column → Column) :
    (s.modCol k f).inputs = s.inputs := rfl

@[simp] theorem modCol_fresh (s : State) (k : Nat) (f : Column → Column) :
    (s.modCol k f).fresh = s.fresh := rfl

@[simp] theorem modDie_cores (s : State) (k : Nat) (f : Die → Die) :
    (s.modDie k f).cores = s.cores := rfl

@[simp] theorem modDie_columns (s : State) (k : Nat) (f : Die → Die) :
    (s.modDie k f).columns = s.columns := rfl

@[simp] theorem modDie_pkgs (s : State) (k : Nat) (f : Die → Die) :
    (s.modDie k f).pkgs = s.pkgs := rfl

@[simp] theorem modDie_fab (s : State) (k : Nat) (f : Die → Die) :
    (s.modDie k f).fab = s.fab := rfl

@[simp] theorem modDie_dx (s : State) (k : Nat) (f : Die → Die) :
    (s.modDie k f).dx = s.dx := rfl

@[simp] theorem modDie_dy (s : State) (k : Nat) (f : Die → Die) :
    (s.modDie k f).dy = s.dy := rfl

@[simp] theorem modDie_dz (s : State) (k : Nat) (f : Die → Die) :
    (s.modDie k f).dz = s.dz := rfl

@[simp] theorem modDie_primary (s : State) (k : Nat) (f : Die → Die) :
    (s.modDie k f).primary = s.primary := rfl

@[simp] theorem modDie_standby (s : State) (k : Nat) (f : Die → Die) :
    (s.modDie k f).standby = s.standby := rfl

@[simp] theorem modDie_msgs (s : State) (k : Nat) (f : Die → Die) :
    (s.modDie k f).msgs = s.msgs := rfl

@[simp] theorem modDie_msgId (s : State) (k : Nat) (f : Die → Die) :
    (s.modDie k f).msgId = s.msgId := rfl

@[simp] theorem modDie_ictx (s : State) (k : Nat) (f : Die → Die) :
    (s.modDie k f).ictx = s.ictx := rfl

@[simp] theorem modDie_ev (s : State) (k : Nat) (f : Die → Die) :
    (s.modDie k f).ev = s.ev := rfl

@[simp] theorem modDie_todo (s : State) (k : Nat) (f : Die → Die) :
    (s.modDie k f).todo = s.todo := rfl

@[simp] theorem modDie_agenda (s : State) (k : Nat) (f : Die → Die) :
    (s.modDie k f).agenda = s.agenda := rfl

@[simp] theorem modDie_inputs (s : State) (k : Nat) (f : Die → Die) :
    (s.modDie k f).inputs = s.inputs := rfl

@[simp] theorem modDie_fresh (s : State) (k : Nat) (f : Die → Die) :
    (s.modDie k f).fresh = s.fresh := rfl

@[simp] theorem modPkg_cores (s : State) (k : Nat) (f : Pkg → Pkg) :
    (s.modPkg k f).cores = s.cores := rfl

@[simp] theorem modPkg_columns (s : State) (k : Nat) (f : Pkg → Pkg) :
    (s.modPkg k f).columns = s.columns := rfl

@[simp] theorem modPkg_dies (s : State) (k : Nat) (f : Pkg → Pkg) :
    (s.modPkg k f).dies = s.dies := rfl

@[simp] theorem modPkg_fab (s : State) (k : Nat) (f : Pkg → Pkg) :
    (s.modPkg k f).fab = s.fab := rfl

@[simp] theorem modPkg_dx (s : State) (k : Nat) (f : Pkg → Pkg) :
    (s.modPkg k f).dx = s.dx := rfl

@[simp] theorem modPkg_dy (s : State) (k : Nat) (f : Pkg → Pkg) :
    (s.modPkg k f).dy = s.dy := rfl

@[simp] theorem modPkg_dz (s : State) (k : Nat) (f : Pkg → Pkg) :
    (s.modPkg k f).dz = s.dz := rfl

@[simp] theorem modPkg_primary (s : State) (k : Nat) (f : Pkg → Pkg) :
    (s.modPkg k f).primary = s.primary := rfl

@[simp] theorem modPkg_standby (s : State) (k : Nat) (f : Pkg → Pkg) :
    (s.modPkg k f).standby = s.standby := rfl

@[simp] theorem modPkg_msgs (s : State) (k : Nat) (f : Pkg → Pkg) :
    (s.modPkg k f).msgs = s.msgs := rfl

@[simp] theorem modPkg_msgId (s : State) (k : Nat) (f : Pkg → Pkg) :
    (s.modPkg k f).msgId = s.msgId := rfl

@[simp] theorem modPkg_ictx (s : State) (k : Nat) (f : Pkg → Pkg) :
    (s.modPkg k f).ictx = s.ictx := rfl

@[simp] theorem modPkg_ev (s : State) (k : Nat) (f : Pkg → Pkg) :
    (s.modPkg k f).ev = s.ev := rfl

@[simp] theorem modPkg_todo (s : State) (k : Nat) (f : Pkg → Pkg) :
    (s.modPkg k f).todo = s.todo := rfl

@[simp] theorem modPkg_agenda (s : State) (k : Nat) (f : Pkg → Pkg) :
    (s.modPkg k f).agenda = s.agenda := rfl

@[simp] theorem modPkg_inputs (s : State) (k : Nat) (f : Pkg → Pkg) :
    (s.modPkg k f).inputs = s.inputs := rfl

@[simp] theorem modPkg_fresh (s : State) (k : Nat) (f : Pkg → Pkg) :
    (s.modPkg k f).fresh = s.fresh := rfl

@[simp] theorem upd_columns (s : State) (f : Core → Core) :
    (s.upd f).columns = s.columns := rfl

@[simp] theorem upd_dies (s : State) (f : Core → Core) :
    (s.upd f).dies = s.dies := rfl

@[simp] theorem upd_pkgs (s : State) (f : Core → Core) :
    (s.upd f).pkgs = s.pkgs := rfl

@[simp] theorem upd_fab (s : State) (f : Core → Core) :
    (s.upd f).fab = s.fab := rfl

@[simp] theorem upd_dx (s : State) (f : Core → Core) :
    (s.upd f).dx = s.dx := rfl

@[simp] theorem upd_dy (s : State) (f : Core → Core) :
    (s.upd f).dy = s.dy := rfl

@[simp] theorem upd_dz (s : State) (f : Core → Core) :
    (s.upd f).dz = s.dz := rfl

@[simp] theorem upd_primary (s : State) (f : Core → Core) :
    (s.upd f).primary = s.primary := rfl

@[simp] theorem upd_standby (s : State) (f : Core → Core) :
    (s.upd f).standby = s.standby := rfl

@[simp] theorem upd_msgs (s : State) (f : Core → Core) :
    (s.upd f).msgs = s.msgs := rfl

@[simp] theorem upd_msgId (s : State) (f : Core → Core) :
    (s.upd f).msgId = s.msgId := rfl

@[simp] theorem upd_ictx (s : State) (f : Core → Core) :
    (s.upd f).ictx = s.ictx := rfl

@[simp] theorem upd_ev (s : State) (f : Core → Core) :
    (s.upd f).ev = s.ev := rfl

@[simp] theorem upd_todo (s : State) (f : Core → Core) :
    (s.upd f).todo = s.todo := rfl

@[simp] theorem upd_agenda (s : State) (f : Core → Core) :
    (s.upd f).agenda = s.agenda := rfl

@[simp] theorem upd_inputs (s : State) (f : Core → Core) :
    (s.upd f).inputs = s.inputs := rfl

@[simp] theorem upd_fresh (s : State) (f : Core → Core) :
    (s.upd f).fresh = s.fresh := rfl

@[simp] theorem schedule_cores (s : State) (d : Domain) (t : Nat) (e : Ev) :
    (s.schedule d t e).cores = s.cores := rfl

@[simp] theorem schedule_columns (s : State) (d : Domain) (t : Nat) (e : Ev) :
    (s.schedule d t e).columns = s.columns := rfl

@[simp] theorem schedule_dies (s : State) (d : Domain) (t : Nat) (e : Ev) :
    (s.schedule d t e).dies = s.dies := rfl

@[simp] theorem schedule_pkgs (s : State) (d : Domain) (t : Nat) (e : Ev) :
    (s.schedule d t e).pkgs = s.pkgs := rfl

@[simp] theorem schedule_fab (s : State) (d : Domain) (t : Nat) (e : Ev) :
    (s.schedule d t e).fab = s.fab := rfl

@[simp] theorem schedule_dx (s : State) (d : Domain) (t : Nat) (e : Ev) :
    (s.schedule d t e).dx = s.dx := rfl

@[simp] theorem schedule_dy (s : State) (d : Domain) (t : Nat) (e : Ev) :
    (s.schedule d t e).dy = s.dy := rfl

@[simp] theorem schedule_dz (s : State) (d : Domain) (t : Nat) (e : Ev) :
    (s.schedule d t e).dz = s.dz := rfl

@[simp] theorem schedule_primary (s : State) (d : Domain) (t : Nat) (e : Ev) :
    (s.schedule d t e).primary = s.primary := rfl

@[simp] theorem schedule_standby (s : State) (d : Domain) (t : Nat) (e : Ev) :
    (s.schedule d t e).standby = s.standby := rfl

@[simp] theorem schedule_msgs (s : State) (d : Domain) (t : Nat) (e : Ev) :
    (s.schedule d t e).msgs = s.msgs := rfl

@[simp] theorem schedule_msgId (s : State) (d : Domain) (t : Nat) (e : Ev) :
    (s.schedule d t e).msgId = s.msgId := rfl

@[simp] theorem schedule_ictx (s : State) (d : Domain) (t : Nat) (e : Ev) :
    (s.schedule d t e).ictx = s.ictx := rfl

@[simp] theorem schedule_ev (s : State) (d : Domain) (t : Nat) (e : Ev) :
    (s.schedule d t e).ev = s.ev := rfl

@[simp] theorem schedule_todo (s : State) (d : Domain) (t : Nat) (e : Ev) :
    (s.schedule d t e).todo = s.todo := rfl

@[simp] theorem schedule_inputs (s : State) (d : Domain) (t : Nat) (e : Ev) :
    (s.schedule d t e).inputs = s.inputs := rfl

@[simp] theorem schedule_fresh (s : State) (d : Domain) (t : Nat) (e : Ev) :
    (s.schedule d t e).fresh = s.fresh := rfl

@[simp] theorem scheduleCore_cores (s : State) (k t : Nat) (e : Ev) :
    (s.scheduleCore k t e).cores = s.cores := rfl

@[simp] theorem scheduleCore_columns (s : State) (k t : Nat) (e : Ev) :
    (s.scheduleCore k t e).columns = s.columns := rfl

@[simp] theorem scheduleCore_dies (s : State) (k t : Nat) (e : Ev) :
    (s.scheduleCore k t e).dies = s.dies := rfl

@[simp] theorem scheduleCore_pkgs (s : State) (k t : Nat) (e : Ev) :
    (s.scheduleCore k t e).pkgs = s.pkgs := rfl

@[simp] theorem scheduleCore_fab (s : State) (k t : Nat) (e : Ev) :
    (s.scheduleCore k t e).fab = s.fab := rfl

@[simp] theorem scheduleCore_dx (s : State) (k t : Nat) (e : Ev) :
    (s.scheduleCore k t e).dx = s.dx := rfl

@[simp] theorem scheduleCore_dy (s : State) (k t : Nat) (e : Ev) :
    (s.scheduleCore k t e).dy = s.dy := rfl

@[simp] theorem scheduleCore_dz (s : State) (k t : Nat) (e : Ev) :
    (s.scheduleCore k t e).dz = s.dz := rfl

@[simp] theorem scheduleCore_primary (s : State) (k t : Nat) (e : Ev) :
    (s.scheduleCore k t e).primary = s.primary := rfl

@[simp] theorem scheduleCore_standby (s : State) (k t : Nat) (e : Ev) :
    (s.scheduleCore k t e).standby = s.standby := rfl

@[simp] theorem scheduleCore_msgs (s : State) (k t : Nat) (e : Ev) :
    (s.scheduleCore k t e).msgs = s.msgs := rfl

@[simp] theorem scheduleCore_msgId (s : State) (k t : Nat) (e : Ev) :
    (s.scheduleCore k t e).msgId = s.msgId := rfl

@[simp] theorem scheduleCore_ictx (s : State) (k t : Nat) (e : Ev) :
    (s.scheduleCore k t e).ictx = s.ictx := rfl

@[simp] theorem scheduleCore_ev (s : State) (k t : Nat) (e : Ev) :
    (s.scheduleCore k t e).ev = s.ev := rfl

@[simp] theorem scheduleCore_todo (s : State) (k t : Nat) (e : Ev) :
    (s.scheduleCore k t e).todo = s.todo := rfl

@[simp] theorem scheduleCore_inputs (s : State) (k t : Nat) (e : Ev) :
    (s.scheduleCore k t e).inputs = s.inputs := rfl

@[simp] theorem scheduleCore_fresh (s : State) (k t : Nat) (e : Ev) :
    (s.scheduleCore k t e).fresh = s.fresh := rfl

@[simp] theorem scheduleFab_cores (s : State) (t : Nat) (e : Ev) :
    (s.scheduleFab t e).cores = s.cores := rfl

@[simp] theorem scheduleFab_columns (s : State) (t : Nat) (e : Ev) :
    (s.scheduleFab t e).columns = s.columns := rfl

@[simp] theorem scheduleFab_dies (s : State) (t : Nat) (e : Ev) :
    (s.scheduleFab t e).dies = s.dies := rfl

@[simp] theorem scheduleFab_pkgs (s : State) (t : Nat) (e : Ev) :
    (s.scheduleFab t e).pkgs = s.pkgs := rfl

@[simp] theorem scheduleFab_fab (s : State) (t : Nat) (e : Ev) :
    (s.scheduleFab t e).fab = s.fab := rfl

@[simp] theorem scheduleFab_dx (s : State) (t : Nat) (e : Ev) :
    (s.scheduleFab t e).dx = s.dx := rfl

@[simp] theorem scheduleFab_dy (s : State) (t : Nat) (e : Ev) :
    (s.scheduleFab t e).dy = s.dy := rfl

@[simp] theorem scheduleFab_dz (s : State) (t : Nat) (e : Ev) :
    (s.scheduleFab t e).dz = s.dz := rfl

@[simp] theorem scheduleFab_primary (s : State) (t : Nat) (e : Ev) :
    (s.scheduleFab t e).primary = s.primary := rfl

@[simp] theorem scheduleFab_standby (s : State) (t : Nat) (e : Ev) :
    (s.scheduleFab t e).standby = s.standby := rfl

@[simp] theorem scheduleFab_msgs (s : State) (t : Nat) (e : Ev) :
    (s.scheduleFab t e).msgs = s.msgs := rfl

@[simp] theorem scheduleFab_msgId (s : State) (t : Nat) (e : Ev) :
    (s.scheduleFab t e).msgId = s.msgId := rfl

@[simp] theorem scheduleFab_ictx (s : State) (t : Nat) (e : Ev) :
    (s.scheduleFab t e).ictx = s.ictx := rfl

@[simp] theorem scheduleFab_ev (s : State) (t : Nat) (e : Ev) :
    (s.scheduleFab t e).ev = s.ev := rfl

@[simp] theorem scheduleFab_todo (s : State) (t : Nat) (e : Ev) :
    (s.scheduleFab t e).todo = s.todo := rfl

@[simp] theorem scheduleFab_inputs (s : State) (t : Nat) (e : Ev) :
    (s.scheduleFab t e).inputs = s.inputs := rfl

@[simp] theorem scheduleFab_fresh (s : State) (t : Nat) (e : Ev) :
    (s.scheduleFab t e).fresh = s.fresh := rfl

@[simp] theorem unschedule_cores (s : State) (p : Ev → Bool) :
    (s.unschedule p).cores = s.cores := rfl

@[simp] theorem unschedule_columns (s : State) (p : Ev → Bool) :
    (s.unschedule p).columns = s.columns := rfl

@[simp] theorem unschedule_dies (s : State) (p : Ev → Bool) :
    (s.unschedule p).dies = s.dies := rfl

@[simp] theorem unschedule_pkgs (s : State) (p : Ev → Bool) :
    (s.unschedule p).pkgs = s.pkgs := rfl

@[simp] theorem unschedule_fab (s : State) (p : Ev → Bool) :
    (s.unschedule p).fab = s.fab := rfl

@[simp] theorem unschedule_dx (s : State) (p : Ev → Bool) :
    (s.unschedule p).dx = s.dx := rfl

@[simp] theorem unschedule_dy (s : State) (p : Ev → Bool) :
    (s.unschedule p).dy = s.dy := rfl

@[simp] theorem unschedule_dz (s : State) (p : Ev → Bool) :
    (s.unschedule p).dz = s.dz := rfl

@[simp] theorem unschedule_primary (s : State) (p : Ev → Bool) :
    (s.unschedule p).primary = s.primary := rfl

@[simp] theorem unschedule_standby (s : State) (p : Ev → Bool) :
    (s.unschedule p).standby = s.standby := rfl

@[simp] theorem unschedule_msgs (s : State) (p : Ev → Bool) :
    (s.unschedule p).msgs = s.msgs := rfl

@[simp] theorem unschedule_msgId (s : State) (p : Ev → Bool) :
    (s.unschedule p).msgId = s.msgId := rfl

@[simp] theorem unschedule_ictx (s : State) (p : Ev → Bool) :
    (s.unschedule p).ictx = s.ictx := rfl

@[simp] theorem unschedule_ev (s : State) (p : Ev → Bool) :
    (s.unschedule p).ev = s.ev := rfl

@[simp] theorem unschedule_todo (s : State) (p : Ev → Bool) :
    (s.unschedule p).todo = s.todo := rfl

@[simp] theorem unschedule_inputs (s : State) (p : Ev → Bool) :
    (s.unschedule p).inputs = s.inputs := rfl

@[simp] theorem unschedule_fresh (s : State) (p : Ev → Bool) :
    (s.unschedule p).fresh = s.fresh := rfl

@[simp] theorem tick_cores (s : State) :
    (s.tick).cores = s.cores := rfl

@[simp] theorem tick_columns (s : State) :
    (s.tick).columns = s.columns := rfl

@[simp] theorem tick_dies (s : State) :
    (s.tick).dies = s.dies := rfl

@[simp] theorem tick_pkgs (s : State) :
    (s.tick).pkgs = s.pkgs := rfl

@[simp] theorem tick_fab (s : State) :
    (s.tick).fab = s.fab := rfl

@[simp] theorem tick_dx (s : State) :
    (s.tick).dx = s.dx := rfl

@[simp] theorem tick_dy (s : State) :
    (s.tick).dy = s.dy := rfl

@[simp] theorem tick_dz (s : State) :
    (s.tick).dz = s.dz := rfl

@[simp] theorem tick_primary (s : State) :
    (s.tick).primary = s.primary := rfl

@[simp] theorem tick_standby (s : State) :
    (s.tick).standby = s.standby := rfl

@[simp] theorem tick_msgs (s : State) :
    (s.tick).msgs = s.msgs := rfl

@[simp] theorem tick_msgId (s : State) :
    (s.tick).msgId = s.msgId := rfl

@[simp] theorem tick_ictx (s : State) :
    (s.tick).ictx = s.ictx := rfl

@[simp] theorem tick_ev (s : State) :
    (s.tick).ev = s.ev := rfl

@[simp] theorem tick_todo (s : State) :
    (s.tick).todo = s.todo := rfl

@[simp] theorem tick_agenda (s : State) :
    (s.tick).agenda = s.agenda := rfl

@[simp] theorem tick_inputs (s : State) :
    (s.tick).inputs = s.inputs := rfl

/-! ### Reading a part after a write -/

theorem core_setCore (s : State) (k j : Nat) (c : Core) :
    (s.setCore k c).core j = if j = k then c else s.core j := sget_sset Core.reset s.cores k j c

@[simp] theorem core_setCore_self (s : State) (k : Nat) (c : Core) : (s.setCore k c).core k = c := by
  rw [core_setCore, if_pos rfl]

theorem core_setCore_other (s : State) {k j : Nat} (c : Core) (h : j ≠ k) : (s.setCore k c).core j = s.core j := by
  rw [core_setCore, if_neg h]

theorem core_modCore (s : State) (k j : Nat) (f : Core → Core) :
    (s.modCore k f).core j = if j = k then f (s.core k) else s.core j := core_setCore s k j _

@[simp] theorem core_modCore_self (s : State) (k : Nat) (f : Core → Core) : (s.modCore k f).core k = f (s.core k) := by
  rw [core_modCore, if_pos rfl]

@[simp] theorem core_setCol (s : State) (k : Nat) (c : Column) (j : Nat) :
    (s.setCol k c).core j = s.core j := rfl

@[simp] theorem core_setDie (s : State) (k : Nat) (d : Die) (j : Nat) :
    (s.setDie k d).core j = s.core j := rfl

@[simp] theorem core_setPkg (s : State) (k : Nat) (p : Pkg) (j : Nat) :
    (s.setPkg k p).core j = s.core j := rfl

@[simp] theorem core_modCol (s : State) (k : Nat) (f : Column → Column) (j : Nat) :
    (s.modCol k f).core j = s.core j := rfl

@[simp] theorem core_modDie (s : State) (k : Nat) (f : Die → Die) (j : Nat) :
    (s.modDie k f).core j = s.core j := rfl

@[simp] theorem core_modPkg (s : State) (k : Nat) (f : Pkg → Pkg) (j : Nat) :
    (s.modPkg k f).core j = s.core j := rfl

@[simp] theorem core_schedule (s : State) (d : Domain) (t : Nat) (e : Ev) (j : Nat) :
    (s.schedule d t e).core j = s.core j := rfl

@[simp] theorem core_scheduleCore (s : State) (k t : Nat) (e : Ev) (j : Nat) :
    (s.scheduleCore k t e).core j = s.core j := rfl

@[simp] theorem core_scheduleFab (s : State) (t : Nat) (e : Ev) (j : Nat) :
    (s.scheduleFab t e).core j = s.core j := rfl

@[simp] theorem core_unschedule (s : State) (p : Ev → Bool) (j : Nat) :
    (s.unschedule p).core j = s.core j := rfl

@[simp] theorem core_tick (s : State) (j : Nat) :
    (s.tick).core j = s.core j := rfl

theorem col_setCol (s : State) (k j : Nat) (c : Column) :
    (s.setCol k c).col j = if j = k then c else s.col j := sget_sset Column.reset s.columns k j c

@[simp] theorem col_setCol_self (s : State) (k : Nat) (c : Column) : (s.setCol k c).col k = c := by
  rw [col_setCol, if_pos rfl]

theorem col_setCol_other (s : State) {k j : Nat} (c : Column) (h : j ≠ k) : (s.setCol k c).col j = s.col j := by
  rw [col_setCol, if_neg h]

theorem col_modCol (s : State) (k j : Nat) (f : Column → Column) :
    (s.modCol k f).col j = if j = k then f (s.col k) else s.col j := col_setCol s k j _

@[simp] theorem col_modCol_self (s : State) (k : Nat) (f : Column → Column) : (s.modCol k f).col k = f (s.col k) := by
  rw [col_modCol, if_pos rfl]

@[simp] theorem col_setCore (s : State) (k : Nat) (c : Core) (j : Nat) :
    (s.setCore k c).col j = s.col j := rfl

@[simp] theorem col_setDie (s : State) (k : Nat) (d : Die) (j : Nat) :
    (s.setDie k d).col j = s.col j := rfl

@[simp] theorem col_setPkg (s : State) (k : Nat) (p : Pkg) (j : Nat) :
    (s.setPkg k p).col j = s.col j := rfl

@[simp] theorem col_modCore (s : State) (k : Nat) (f : Core → Core) (j : Nat) :
    (s.modCore k f).col j = s.col j := rfl

@[simp] theorem col_modDie (s : State) (k : Nat) (f : Die → Die) (j : Nat) :
    (s.modDie k f).col j = s.col j := rfl

@[simp] theorem col_modPkg (s : State) (k : Nat) (f : Pkg → Pkg) (j : Nat) :
    (s.modPkg k f).col j = s.col j := rfl

@[simp] theorem col_upd (s : State) (f : Core → Core) (j : Nat) :
    (s.upd f).col j = s.col j := rfl

@[simp] theorem col_schedule (s : State) (d : Domain) (t : Nat) (e : Ev) (j : Nat) :
    (s.schedule d t e).col j = s.col j := rfl

@[simp] theorem col_scheduleCore (s : State) (k t : Nat) (e : Ev) (j : Nat) :
    (s.scheduleCore k t e).col j = s.col j := rfl

@[simp] theorem col_scheduleFab (s : State) (t : Nat) (e : Ev) (j : Nat) :
    (s.scheduleFab t e).col j = s.col j := rfl

@[simp] theorem col_unschedule (s : State) (p : Ev → Bool) (j : Nat) :
    (s.unschedule p).col j = s.col j := rfl

@[simp] theorem col_tick (s : State) (j : Nat) :
    (s.tick).col j = s.col j := rfl

theorem die_setDie (s : State) (k j : Nat) (d : Die) :
    (s.setDie k d).die j = if j = k then d else s.die j := sget_sset Die.reset s.dies k j d

@[simp] theorem die_setDie_self (s : State) (k : Nat) (d : Die) : (s.setDie k d).die k = d := by
  rw [die_setDie, if_pos rfl]

theorem die_setDie_other (s : State) {k j : Nat} (d : Die) (h : j ≠ k) : (s.setDie k d).die j = s.die j := by
  rw [die_setDie, if_neg h]

theorem die_modDie (s : State) (k j : Nat) (f : Die → Die) :
    (s.modDie k f).die j = if j = k then f (s.die k) else s.die j := die_setDie s k j _

@[simp] theorem die_modDie_self (s : State) (k : Nat) (f : Die → Die) : (s.modDie k f).die k = f (s.die k) := by
  rw [die_modDie, if_pos rfl]

@[simp] theorem die_setCore (s : State) (k : Nat) (c : Core) (j : Nat) :
    (s.setCore k c).die j = s.die j := rfl

@[simp] theorem die_setCol (s : State) (k : Nat) (c : Column) (j : Nat) :
    (s.setCol k c).die j = s.die j := rfl

@[simp] theorem die_setPkg (s : State) (k : Nat) (p : Pkg) (j : Nat) :
    (s.setPkg k p).die j = s.die j := rfl

@[simp] theorem die_modCore (s : State) (k : Nat) (f : Core → Core) (j : Nat) :
    (s.modCore k f).die j = s.die j := rfl

@[simp] theorem die_modCol (s : State) (k : Nat) (f : Column → Column) (j : Nat) :
    (s.modCol k f).die j = s.die j := rfl

@[simp] theorem die_modPkg (s : State) (k : Nat) (f : Pkg → Pkg) (j : Nat) :
    (s.modPkg k f).die j = s.die j := rfl

@[simp] theorem die_upd (s : State) (f : Core → Core) (j : Nat) :
    (s.upd f).die j = s.die j := rfl

@[simp] theorem die_schedule (s : State) (d : Domain) (t : Nat) (e : Ev) (j : Nat) :
    (s.schedule d t e).die j = s.die j := rfl

@[simp] theorem die_scheduleCore (s : State) (k t : Nat) (e : Ev) (j : Nat) :
    (s.scheduleCore k t e).die j = s.die j := rfl

@[simp] theorem die_scheduleFab (s : State) (t : Nat) (e : Ev) (j : Nat) :
    (s.scheduleFab t e).die j = s.die j := rfl

@[simp] theorem die_unschedule (s : State) (p : Ev → Bool) (j : Nat) :
    (s.unschedule p).die j = s.die j := rfl

@[simp] theorem die_tick (s : State) (j : Nat) :
    (s.tick).die j = s.die j := rfl

theorem pkg_setPkg (s : State) (k j : Nat) (p : Pkg) :
    (s.setPkg k p).pkg j = if j = k then p else s.pkg j := sget_sset Pkg.reset s.pkgs k j p

@[simp] theorem pkg_setPkg_self (s : State) (k : Nat) (p : Pkg) : (s.setPkg k p).pkg k = p := by
  rw [pkg_setPkg, if_pos rfl]

theorem pkg_setPkg_other (s : State) {k j : Nat} (p : Pkg) (h : j ≠ k) : (s.setPkg k p).pkg j = s.pkg j := by
  rw [pkg_setPkg, if_neg h]

theorem pkg_modPkg (s : State) (k j : Nat) (f : Pkg → Pkg) :
    (s.modPkg k f).pkg j = if j = k then f (s.pkg k) else s.pkg j := pkg_setPkg s k j _

@[simp] theorem pkg_modPkg_self (s : State) (k : Nat) (f : Pkg → Pkg) : (s.modPkg k f).pkg k = f (s.pkg k) := by
  rw [pkg_modPkg, if_pos rfl]

@[simp] theorem pkg_setCore (s : State) (k : Nat) (c : Core) (j : Nat) :
    (s.setCore k c).pkg j = s.pkg j := rfl

@[simp] theorem pkg_setCol (s : State) (k : Nat) (c : Column) (j : Nat) :
    (s.setCol k c).pkg j = s.pkg j := rfl

@[simp] theorem pkg_setDie (s : State) (k : Nat) (d : Die) (j : Nat) :
    (s.setDie k d).pkg j = s.pkg j := rfl

@[simp] theorem pkg_modCore (s : State) (k : Nat) (f : Core → Core) (j : Nat) :
    (s.modCore k f).pkg j = s.pkg j := rfl

@[simp] theorem pkg_modCol (s : State) (k : Nat) (f : Column → Column) (j : Nat) :
    (s.modCol k f).pkg j = s.pkg j := rfl

@[simp] theorem pkg_modDie (s : State) (k : Nat) (f : Die → Die) (j : Nat) :
    (s.modDie k f).pkg j = s.pkg j := rfl

@[simp] theorem pkg_upd (s : State) (f : Core → Core) (j : Nat) :
    (s.upd f).pkg j = s.pkg j := rfl

@[simp] theorem pkg_schedule (s : State) (d : Domain) (t : Nat) (e : Ev) (j : Nat) :
    (s.schedule d t e).pkg j = s.pkg j := rfl

@[simp] theorem pkg_scheduleCore (s : State) (k t : Nat) (e : Ev) (j : Nat) :
    (s.scheduleCore k t e).pkg j = s.pkg j := rfl

@[simp] theorem pkg_scheduleFab (s : State) (t : Nat) (e : Ev) (j : Nat) :
    (s.scheduleFab t e).pkg j = s.pkg j := rfl

@[simp] theorem pkg_unschedule (s : State) (p : Ev → Bool) (j : Nat) :
    (s.unschedule p).pkg j = s.pkg j := rfl

@[simp] theorem pkg_tick (s : State) (j : Nat) :
    (s.tick).pkg j = s.pkg j := rfl

@[simp] theorem cur_setCol (s : State) (k : Nat) (c : Column) :
    (s.setCol k c).cur = s.cur := rfl

@[simp] theorem cur_setDie (s : State) (k : Nat) (d : Die) :
    (s.setDie k d).cur = s.cur := rfl

@[simp] theorem cur_setPkg (s : State) (k : Nat) (p : Pkg) :
    (s.setPkg k p).cur = s.cur := rfl

@[simp] theorem cur_modCol (s : State) (k : Nat) (f : Column → Column) :
    (s.modCol k f).cur = s.cur := rfl

@[simp] theorem cur_modDie (s : State) (k : Nat) (f : Die → Die) :
    (s.modDie k f).cur = s.cur := rfl

@[simp] theorem cur_modPkg (s : State) (k : Nat) (f : Pkg → Pkg) :
    (s.modPkg k f).cur = s.cur := rfl

@[simp] theorem cur_schedule (s : State) (d : Domain) (t : Nat) (e : Ev) :
    (s.schedule d t e).cur = s.cur := rfl

@[simp] theorem cur_scheduleCore (s : State) (k t : Nat) (e : Ev) :
    (s.scheduleCore k t e).cur = s.cur := rfl

@[simp] theorem cur_scheduleFab (s : State) (t : Nat) (e : Ev) :
    (s.scheduleFab t e).cur = s.cur := rfl

@[simp] theorem cur_unschedule (s : State) (p : Ev → Bool) :
    (s.unschedule p).cur = s.cur := rfl

@[simp] theorem cur_tick (s : State) :
    (s.tick).cur = s.cur := rfl

@[simp] theorem cur_upd (s : State) (f : Core → Core) : (s.upd f).cur = f s.cur := core_modCore_self s _ f

theorem core_upd_other (s : State) {j : Nat} (f : Core → Core) (h : j ≠ s.ictx.core) : (s.upd f).core j = s.core j :=
  core_setCore_other s _ h

@[simp] theorem clkOf_setCore (s : State) (k : Nat) (c : Core) (j : Nat) :
    (s.setCore k c).clkOf j = s.clkOf j := rfl

@[simp] theorem clkOf_setCol (s : State) (k : Nat) (c : Column) (j : Nat) :
    (s.setCol k c).clkOf j = s.clkOf j := rfl

@[simp] theorem clkOf_setPkg (s : State) (k : Nat) (p : Pkg) (j : Nat) :
    (s.setPkg k p).clkOf j = s.clkOf j := rfl

@[simp] theorem clkOf_modCore (s : State) (k : Nat) (f : Core → Core) (j : Nat) :
    (s.modCore k f).clkOf j = s.clkOf j := rfl

@[simp] theorem clkOf_modCol (s : State) (k : Nat) (f : Column → Column) (j : Nat) :
    (s.modCol k f).clkOf j = s.clkOf j := rfl

@[simp] theorem clkOf_modPkg (s : State) (k : Nat) (f : Pkg → Pkg) (j : Nat) :
    (s.modPkg k f).clkOf j = s.clkOf j := rfl

@[simp] theorem clkOf_upd (s : State) (f : Core → Core) (j : Nat) :
    (s.upd f).clkOf j = s.clkOf j := rfl

@[simp] theorem clkOf_schedule (s : State) (d : Domain) (t : Nat) (e : Ev) (j : Nat) :
    (s.schedule d t e).clkOf j = s.clkOf j := rfl

@[simp] theorem clkOf_scheduleCore (s : State) (k t : Nat) (e : Ev) (j : Nat) :
    (s.scheduleCore k t e).clkOf j = s.clkOf j := rfl

@[simp] theorem clkOf_scheduleFab (s : State) (t : Nat) (e : Ev) (j : Nat) :
    (s.scheduleFab t e).clkOf j = s.clkOf j := rfl

@[simp] theorem clkOf_unschedule (s : State) (p : Ev → Bool) (j : Nat) :
    (s.unschedule p).clkOf j = s.clkOf j := rfl

@[simp] theorem clkOf_tick (s : State) (j : Nat) :
    (s.tick).clkOf j = s.clkOf j := rfl

/-! ### The core -/

@[simp] theorem send_bank0 (c : Core) (left : Nat) (k : PendKind) :
    (c.send left k).bank0 = c.bank0 := rfl

@[simp] theorem send_bank1 (c : Core) (left : Nat) (k : PendKind) :
    (c.send left k).bank1 = c.bank1 := rfl

@[simp] theorem send_cur (c : Core) (left : Nat) (k : PendKind) :
    (c.send left k).cur = c.cur := rfl

@[simp] theorem send_pc (c : Core) (left : Nat) (k : PendKind) :
    (c.send left k).pc = c.pc := rfl

@[simp] theorem send_run (c : Core) (left : Nat) (k : PendKind) :
    (c.send left k).run = c.run := rfl

@[simp] theorem send_dwell (c : Core) (left : Nat) (k : PendKind) :
    (c.send left k).dwell = c.dwell := rfl

@[simp] theorem send_task (c : Core) (left : Nat) (k : PendKind) :
    (c.send left k).task = c.task := rfl

@[simp] theorem send_tiles (c : Core) (left : Nat) (k : PendKind) :
    (c.send left k).tiles = c.tiles := rfl

@[simp] theorem send_tctl (c : Core) (left : Nat) (k : PendKind) :
    (c.send left k).tctl = c.tctl := rfl

@[simp] theorem send_planes (c : Core) (left : Nat) (k : PendKind) :
    (c.send left k).planes = c.planes := rfl

@[simp] theorem send_wp0 (c : Core) (left : Nat) (k : PendKind) :
    (c.send left k).wp0 = c.wp0 := rfl

@[simp] theorem send_wp1 (c : Core) (left : Nat) (k : PendKind) :
    (c.send left k).wp1 = c.wp1 := rfl

@[simp] theorem send_pfmt0 (c : Core) (left : Nat) (k : PendKind) :
    (c.send left k).pfmt0 = c.pfmt0 := rfl

@[simp] theorem send_pfmt1 (c : Core) (left : Nat) (k : PendKind) :
    (c.send left k).pfmt1 = c.pfmt1 := rfl

@[simp] theorem send_act (c : Core) (left : Nat) (k : PendKind) :
    (c.send left k).act = c.act := rfl

@[simp] theorem send_bars (c : Core) (left : Nat) (k : PendKind) :
    (c.send left k).bars = c.bars := rfl

@[simp] theorem send_coord (c : Core) (left : Nat) (k : PendKind) :
    (c.send left k).coord = c.coord := rfl

@[simp] theorem send_stage (c : Core) (left : Nat) (k : PendKind) :
    (c.send left k).stage = c.stage := rfl

@[simp] theorem send_icycle (c : Core) (left : Nat) (k : PendKind) :
    (c.send left k).icycle = c.icycle := rfl

@[simp] theorem send_causeSlot (c : Core) (left : Nat) (k : PendKind) :
    (c.send left k).causeSlot = c.causeSlot := rfl

@[simp] theorem send_causeCode (c : Core) (left : Nat) (k : PendKind) :
    (c.send left k).causeCode = c.causeCode := rfl

@[simp] theorem send_trapPc (c : Core) (left : Nat) (k : PendKind) :
    (c.send left k).trapPc = c.trapPc := rfl

@[simp] theorem send_ckpPc (c : Core) (left : Nat) (k : PendKind) :
    (c.send left k).ckpPc = c.ckpPc := rfl

@[simp] theorem send_corr (c : Core) (left : Nat) (k : PendKind) :
    (c.send left k).corr = c.corr := rfl

@[simp] theorem send_debugPend (c : Core) (left : Nat) (k : PendKind) :
    (c.send left k).debugPend = c.debugPend := rfl

@[simp] theorem send_cpsel (c : Core) (left : Nat) (k : PendKind) :
    (c.send left k).cpsel = c.cpsel := rfl

@[simp] theorem send_codeMap (c : Core) (left : Nat) (k : PendKind) :
    (c.send left k).codeMap = c.codeMap := rfl

@[simp] theorem send_loading (c : Core) (left : Nat) (k : PendKind) :
    (c.send left k).loading = c.loading := rfl

@[simp] theorem send_imem (c : Core) (left : Nat) (k : PendKind) :
    (c.send left k).imem = c.imem := rfl

@[simp] theorem send_sp (c : Core) (left : Nat) (k : PendKind) :
    (c.send left k).sp = c.sp := rfl

@[simp] theorem send_stat (c : Core) (left : Nat) (k : PendKind) :
    (c.send left k).stat = c.stat := rfl

@[simp] theorem send_ckpt (c : Core) (left : Nat) (k : PendKind) :
    (c.send left k).ckpt = c.ckpt := rfl

@[simp] theorem send_undo (c : Core) (left : Nat) (k : PendKind) :
    (c.send left k).undo = c.undo := rfl

@[simp] theorem send_undoStat (c : Core) (left : Nat) (k : PendKind) :
    (c.send left k).undoStat = c.undoStat := rfl

@[simp] theorem send_preimg (c : Core) (left : Nat) (k : PendKind) :
    (c.send left k).preimg = c.preimg := rfl

@[simp] theorem send_undoCount (c : Core) (left : Nat) (k : PendKind) :
    (c.send left k).undoCount = c.undoCount := rfl

@[simp] theorem send_accTiles (c : Core) (left : Nat) (k : PendKind) :
    (c.send left k).accTiles = c.accTiles := rfl

@[simp] theorem send_planeLoads (c : Core) (left : Nat) (k : PendKind) :
    (c.send left k).planeLoads = c.planeLoads := rfl

@[simp] theorem send_outLog (c : Core) (left : Nat) (k : PendKind) :
    (c.send left k).outLog = c.outLog := rfl

@[simp] theorem send_outPos (c : Core) (left : Nat) (k : PendKind) :
    (c.send left k).outPos = c.outPos := rfl

@[simp] theorem send_barLog (c : Core) (left : Nat) (k : PendKind) :
    (c.send left k).barLog = c.barLog := rfl

@[simp] theorem send_barPos (c : Core) (left : Nat) (k : PendKind) :
    (c.send left k).barPos = c.barPos := rfl

@[simp] theorem send_taken (c : Core) (left : Nat) (k : PendKind) :
    (c.send left k).taken = c.taken := rfl

@[simp] theorem send_drainRec (c : Core) (left : Nat) (k : PendKind) :
    (c.send left k).drainRec = c.drainRec := rfl

@[simp] theorem send_rerun (c : Core) (left : Nat) (k : PendKind) :
    (c.send left k).rerun = c.rerun := rfl

@[simp] theorem send_rowOff (c : Core) (left : Nat) (k : PendKind) :
    (c.send left k).rowOff = c.rowOff := rfl

@[simp] theorem send_ranges (c : Core) (left : Nat) (k : PendKind) :
    (c.send left k).ranges = c.ranges := rfl

@[simp] theorem send_retired (c : Core) (left : Nat) (k : PendKind) :
    (c.send left k).retired = c.retired := rfl

@[simp] theorem send_streams (c : Core) (left : Nat) (k : PendKind) :
    (c.send left k).streams = c.streams := rfl

@[simp] theorem send_loads (c : Core) (left : Nat) (k : PendKind) :
    (c.send left k).loads = c.loads := rfl

@[simp] theorem send_tileOps (c : Core) (left : Nat) (k : PendKind) :
    (c.send left k).tileOps = c.tileOps := rfl

@[simp] theorem send_drains (c : Core) (left : Nat) (k : PendKind) :
    (c.send left k).drains = c.drains := rfl

@[simp] theorem send_arr (c : Core) (left : Nat) (k : PendKind) :
    (c.send left k).arr = c.arr := rfl

@[simp] theorem send_nextId (c : Core) (left : Nat) (k : PendKind) :
    (c.send left k).nextId = c.nextId := rfl

@[simp] theorem send_seq (c : Core) (left : Nat) (k : PendKind) :
    (c.send left k).seq = c.seq := rfl

@[simp] theorem send_seqHold (c : Core) (left : Nat) (k : PendKind) :
    (c.send left k).seqHold = c.seqHold := rfl

@[simp] theorem send_portBusy (c : Core) (left : Nat) (k : PendKind) :
    (c.send left k).portBusy = c.portBusy := rfl

@[simp] theorem send_portFrom (c : Core) (left : Nat) (k : PendKind) :
    (c.send left k).portFrom = c.portFrom := rfl

@[simp] theorem send_bankStatus (c : Core) (left : Nat) (k : PendKind) :
    (c.send left k).bankStatus = c.bankStatus := rfl

@[simp] theorem send_bankOps (c : Core) (left : Nat) (k : PendKind) :
    (c.send left k).bankOps = c.bankOps := rfl

@[simp] theorem send_fenceOps (c : Core) (left : Nat) (k : PendKind) :
    (c.send left k).fenceOps = c.fenceOps := rfl

@[simp] theorem send_fence (c : Core) (left : Nat) (k : PendKind) :
    (c.send left k).fence = c.fence := rfl

@[simp] theorem send_ckpWait (c : Core) (left : Nat) (k : PendKind) :
    (c.send left k).ckpWait = c.ckpWait := rfl

@[simp] theorem send_fifo (c : Core) (left : Nat) (k : PendKind) :
    (c.send left k).fifo = c.fifo := rfl

@[simp] theorem send_out (c : Core) (left : Nat) (k : PendKind) :
    (c.send left k).out = c.out := rfl

@[simp] theorem send_outNext (c : Core) (left : Nat) (k : PendKind) :
    (c.send left k).outNext = c.outNext := rfl

@[simp] theorem send_freeing (c : Core) (left : Nat) (k : PendKind) :
    (c.send left k).freeing = c.freeing := rfl

@[simp] theorem send_inflight (c : Core) (left : Nat) (k : PendKind) :
    (c.send left k).inflight = c.inflight := rfl

@[simp] theorem send_creditsUsed (c : Core) (left : Nat) (k : PendKind) :
    (c.send left k).creditsUsed = c.creditsUsed := rfl

@[simp] theorem send_far (c : Core) (left : Nat) (k : PendKind) :
    (c.send left k).far = c.far := rfl

@[simp] theorem send_colls (c : Core) (left : Nat) (k : PendKind) :
    (c.send left k).colls = c.colls := rfl

@[simp] theorem sendTo_bank0 (c : Core) (left : Nat) (b : Bool) (k : PendKind) :
    (c.sendTo left b k).bank0 = c.bank0 := rfl

@[simp] theorem sendTo_bank1 (c : Core) (left : Nat) (b : Bool) (k : PendKind) :
    (c.sendTo left b k).bank1 = c.bank1 := rfl

@[simp] theorem sendTo_cur (c : Core) (left : Nat) (b : Bool) (k : PendKind) :
    (c.sendTo left b k).cur = c.cur := rfl

@[simp] theorem sendTo_pc (c : Core) (left : Nat) (b : Bool) (k : PendKind) :
    (c.sendTo left b k).pc = c.pc := rfl

@[simp] theorem sendTo_run (c : Core) (left : Nat) (b : Bool) (k : PendKind) :
    (c.sendTo left b k).run = c.run := rfl

@[simp] theorem sendTo_dwell (c : Core) (left : Nat) (b : Bool) (k : PendKind) :
    (c.sendTo left b k).dwell = c.dwell := rfl

@[simp] theorem sendTo_task (c : Core) (left : Nat) (b : Bool) (k : PendKind) :
    (c.sendTo left b k).task = c.task := rfl

@[simp] theorem sendTo_tiles (c : Core) (left : Nat) (b : Bool) (k : PendKind) :
    (c.sendTo left b k).tiles = c.tiles := rfl

@[simp] theorem sendTo_tctl (c : Core) (left : Nat) (b : Bool) (k : PendKind) :
    (c.sendTo left b k).tctl = c.tctl := rfl

@[simp] theorem sendTo_planes (c : Core) (left : Nat) (b : Bool) (k : PendKind) :
    (c.sendTo left b k).planes = c.planes := rfl

@[simp] theorem sendTo_wp0 (c : Core) (left : Nat) (b : Bool) (k : PendKind) :
    (c.sendTo left b k).wp0 = c.wp0 := rfl

@[simp] theorem sendTo_wp1 (c : Core) (left : Nat) (b : Bool) (k : PendKind) :
    (c.sendTo left b k).wp1 = c.wp1 := rfl

@[simp] theorem sendTo_pfmt0 (c : Core) (left : Nat) (b : Bool) (k : PendKind) :
    (c.sendTo left b k).pfmt0 = c.pfmt0 := rfl

@[simp] theorem sendTo_pfmt1 (c : Core) (left : Nat) (b : Bool) (k : PendKind) :
    (c.sendTo left b k).pfmt1 = c.pfmt1 := rfl

@[simp] theorem sendTo_act (c : Core) (left : Nat) (b : Bool) (k : PendKind) :
    (c.sendTo left b k).act = c.act := rfl

@[simp] theorem sendTo_bars (c : Core) (left : Nat) (b : Bool) (k : PendKind) :
    (c.sendTo left b k).bars = c.bars := rfl

@[simp] theorem sendTo_coord (c : Core) (left : Nat) (b : Bool) (k : PendKind) :
    (c.sendTo left b k).coord = c.coord := rfl

@[simp] theorem sendTo_stage (c : Core) (left : Nat) (b : Bool) (k : PendKind) :
    (c.sendTo left b k).stage = c.stage := rfl

@[simp] theorem sendTo_icycle (c : Core) (left : Nat) (b : Bool) (k : PendKind) :
    (c.sendTo left b k).icycle = c.icycle := rfl

@[simp] theorem sendTo_causeSlot (c : Core) (left : Nat) (b : Bool) (k : PendKind) :
    (c.sendTo left b k).causeSlot = c.causeSlot := rfl

@[simp] theorem sendTo_causeCode (c : Core) (left : Nat) (b : Bool) (k : PendKind) :
    (c.sendTo left b k).causeCode = c.causeCode := rfl

@[simp] theorem sendTo_trapPc (c : Core) (left : Nat) (b : Bool) (k : PendKind) :
    (c.sendTo left b k).trapPc = c.trapPc := rfl

@[simp] theorem sendTo_ckpPc (c : Core) (left : Nat) (b : Bool) (k : PendKind) :
    (c.sendTo left b k).ckpPc = c.ckpPc := rfl

@[simp] theorem sendTo_corr (c : Core) (left : Nat) (b : Bool) (k : PendKind) :
    (c.sendTo left b k).corr = c.corr := rfl

@[simp] theorem sendTo_debugPend (c : Core) (left : Nat) (b : Bool) (k : PendKind) :
    (c.sendTo left b k).debugPend = c.debugPend := rfl

@[simp] theorem sendTo_cpsel (c : Core) (left : Nat) (b : Bool) (k : PendKind) :
    (c.sendTo left b k).cpsel = c.cpsel := rfl

@[simp] theorem sendTo_codeMap (c : Core) (left : Nat) (b : Bool) (k : PendKind) :
    (c.sendTo left b k).codeMap = c.codeMap := rfl

@[simp] theorem sendTo_loading (c : Core) (left : Nat) (b : Bool) (k : PendKind) :
    (c.sendTo left b k).loading = c.loading := rfl

@[simp] theorem sendTo_imem (c : Core) (left : Nat) (b : Bool) (k : PendKind) :
    (c.sendTo left b k).imem = c.imem := rfl

@[simp] theorem sendTo_sp (c : Core) (left : Nat) (b : Bool) (k : PendKind) :
    (c.sendTo left b k).sp = c.sp := rfl

@[simp] theorem sendTo_stat (c : Core) (left : Nat) (b : Bool) (k : PendKind) :
    (c.sendTo left b k).stat = c.stat := rfl

@[simp] theorem sendTo_ckpt (c : Core) (left : Nat) (b : Bool) (k : PendKind) :
    (c.sendTo left b k).ckpt = c.ckpt := rfl

@[simp] theorem sendTo_undo (c : Core) (left : Nat) (b : Bool) (k : PendKind) :
    (c.sendTo left b k).undo = c.undo := rfl

@[simp] theorem sendTo_undoStat (c : Core) (left : Nat) (b : Bool) (k : PendKind) :
    (c.sendTo left b k).undoStat = c.undoStat := rfl

@[simp] theorem sendTo_preimg (c : Core) (left : Nat) (b : Bool) (k : PendKind) :
    (c.sendTo left b k).preimg = c.preimg := rfl

@[simp] theorem sendTo_undoCount (c : Core) (left : Nat) (b : Bool) (k : PendKind) :
    (c.sendTo left b k).undoCount = c.undoCount := rfl

@[simp] theorem sendTo_accTiles (c : Core) (left : Nat) (b : Bool) (k : PendKind) :
    (c.sendTo left b k).accTiles = c.accTiles := rfl

@[simp] theorem sendTo_planeLoads (c : Core) (left : Nat) (b : Bool) (k : PendKind) :
    (c.sendTo left b k).planeLoads = c.planeLoads := rfl

@[simp] theorem sendTo_outLog (c : Core) (left : Nat) (b : Bool) (k : PendKind) :
    (c.sendTo left b k).outLog = c.outLog := rfl

@[simp] theorem sendTo_outPos (c : Core) (left : Nat) (b : Bool) (k : PendKind) :
    (c.sendTo left b k).outPos = c.outPos := rfl

@[simp] theorem sendTo_barLog (c : Core) (left : Nat) (b : Bool) (k : PendKind) :
    (c.sendTo left b k).barLog = c.barLog := rfl

@[simp] theorem sendTo_barPos (c : Core) (left : Nat) (b : Bool) (k : PendKind) :
    (c.sendTo left b k).barPos = c.barPos := rfl

@[simp] theorem sendTo_taken (c : Core) (left : Nat) (b : Bool) (k : PendKind) :
    (c.sendTo left b k).taken = c.taken := rfl

@[simp] theorem sendTo_drainRec (c : Core) (left : Nat) (b : Bool) (k : PendKind) :
    (c.sendTo left b k).drainRec = c.drainRec := rfl

@[simp] theorem sendTo_rerun (c : Core) (left : Nat) (b : Bool) (k : PendKind) :
    (c.sendTo left b k).rerun = c.rerun := rfl

@[simp] theorem sendTo_rowOff (c : Core) (left : Nat) (b : Bool) (k : PendKind) :
    (c.sendTo left b k).rowOff = c.rowOff := rfl

@[simp] theorem sendTo_ranges (c : Core) (left : Nat) (b : Bool) (k : PendKind) :
    (c.sendTo left b k).ranges = c.ranges := rfl

@[simp] theorem sendTo_retired (c : Core) (left : Nat) (b : Bool) (k : PendKind) :
    (c.sendTo left b k).retired = c.retired := rfl

@[simp] theorem sendTo_streams (c : Core) (left : Nat) (b : Bool) (k : PendKind) :
    (c.sendTo left b k).streams = c.streams := rfl

@[simp] theorem sendTo_loads (c : Core) (left : Nat) (b : Bool) (k : PendKind) :
    (c.sendTo left b k).loads = c.loads := rfl

@[simp] theorem sendTo_tileOps (c : Core) (left : Nat) (b : Bool) (k : PendKind) :
    (c.sendTo left b k).tileOps = c.tileOps := rfl

@[simp] theorem sendTo_drains (c : Core) (left : Nat) (b : Bool) (k : PendKind) :
    (c.sendTo left b k).drains = c.drains := rfl

@[simp] theorem sendTo_arr (c : Core) (left : Nat) (b : Bool) (k : PendKind) :
    (c.sendTo left b k).arr = c.arr := rfl

@[simp] theorem sendTo_nextId (c : Core) (left : Nat) (b : Bool) (k : PendKind) :
    (c.sendTo left b k).nextId = c.nextId := rfl

@[simp] theorem sendTo_seq (c : Core) (left : Nat) (b : Bool) (k : PendKind) :
    (c.sendTo left b k).seq = c.seq := rfl

@[simp] theorem sendTo_seqHold (c : Core) (left : Nat) (b : Bool) (k : PendKind) :
    (c.sendTo left b k).seqHold = c.seqHold := rfl

@[simp] theorem sendTo_portBusy (c : Core) (left : Nat) (b : Bool) (k : PendKind) :
    (c.sendTo left b k).portBusy = c.portBusy := rfl

@[simp] theorem sendTo_portFrom (c : Core) (left : Nat) (b : Bool) (k : PendKind) :
    (c.sendTo left b k).portFrom = c.portFrom := rfl

@[simp] theorem sendTo_bankStatus (c : Core) (left : Nat) (b : Bool) (k : PendKind) :
    (c.sendTo left b k).bankStatus = c.bankStatus := rfl

@[simp] theorem sendTo_bankOps (c : Core) (left : Nat) (b : Bool) (k : PendKind) :
    (c.sendTo left b k).bankOps = c.bankOps := rfl

@[simp] theorem sendTo_fenceOps (c : Core) (left : Nat) (b : Bool) (k : PendKind) :
    (c.sendTo left b k).fenceOps = c.fenceOps := rfl

@[simp] theorem sendTo_fence (c : Core) (left : Nat) (b : Bool) (k : PendKind) :
    (c.sendTo left b k).fence = c.fence := rfl

@[simp] theorem sendTo_ckpWait (c : Core) (left : Nat) (b : Bool) (k : PendKind) :
    (c.sendTo left b k).ckpWait = c.ckpWait := rfl

@[simp] theorem sendTo_fifo (c : Core) (left : Nat) (b : Bool) (k : PendKind) :
    (c.sendTo left b k).fifo = c.fifo := rfl

@[simp] theorem sendTo_out (c : Core) (left : Nat) (b : Bool) (k : PendKind) :
    (c.sendTo left b k).out = c.out := rfl

@[simp] theorem sendTo_outNext (c : Core) (left : Nat) (b : Bool) (k : PendKind) :
    (c.sendTo left b k).outNext = c.outNext := rfl

@[simp] theorem sendTo_freeing (c : Core) (left : Nat) (b : Bool) (k : PendKind) :
    (c.sendTo left b k).freeing = c.freeing := rfl

@[simp] theorem sendTo_inflight (c : Core) (left : Nat) (b : Bool) (k : PendKind) :
    (c.sendTo left b k).inflight = c.inflight := rfl

@[simp] theorem sendTo_creditsUsed (c : Core) (left : Nat) (b : Bool) (k : PendKind) :
    (c.sendTo left b k).creditsUsed = c.creditsUsed := rfl

@[simp] theorem sendTo_far (c : Core) (left : Nat) (b : Bool) (k : PendKind) :
    (c.sendTo left b k).far = c.far := rfl

@[simp] theorem sendTo_colls (c : Core) (left : Nat) (b : Bool) (k : PendKind) :
    (c.sendTo left b k).colls = c.colls := rfl

@[simp] theorem send_pend (c : Core) (left : Nat) (k : PendKind) :
    (c.send left k).pend = c.pend ++ [⟨left, c.cur, c.cur, k⟩] := rfl

@[simp] theorem lastUse_bank0 (c : Core) (file : Nat) (b : Bool) (r : BitVec 6) :
    (c.lastUse file b r).bank0 = c.bank0 := by
  unfold Core.lastUse; split <;> rfl

@[simp] theorem lastUse_bank1 (c : Core) (file : Nat) (b : Bool) (r : BitVec 6) :
    (c.lastUse file b r).bank1 = c.bank1 := by
  unfold Core.lastUse; split <;> rfl

@[simp] theorem lastUse_cur (c : Core) (file : Nat) (b : Bool) (r : BitVec 6) :
    (c.lastUse file b r).cur = c.cur := by
  unfold Core.lastUse; split <;> rfl

@[simp] theorem lastUse_pc (c : Core) (file : Nat) (b : Bool) (r : BitVec 6) :
    (c.lastUse file b r).pc = c.pc := by
  unfold Core.lastUse; split <;> rfl

@[simp] theorem lastUse_run (c : Core) (file : Nat) (b : Bool) (r : BitVec 6) :
    (c.lastUse file b r).run = c.run := by
  unfold Core.lastUse; split <;> rfl

@[simp] theorem lastUse_dwell (c : Core) (file : Nat) (b : Bool) (r : BitVec 6) :
    (c.lastUse file b r).dwell = c.dwell := by
  unfold Core.lastUse; split <;> rfl

@[simp] theorem lastUse_task (c : Core) (file : Nat) (b : Bool) (r : BitVec 6) :
    (c.lastUse file b r).task = c.task := by
  unfold Core.lastUse; split <;> rfl

@[simp] theorem lastUse_tiles (c : Core) (file : Nat) (b : Bool) (r : BitVec 6) :
    (c.lastUse file b r).tiles = c.tiles := by
  unfold Core.lastUse; split <;> rfl

@[simp] theorem lastUse_tctl (c : Core) (file : Nat) (b : Bool) (r : BitVec 6) :
    (c.lastUse file b r).tctl = c.tctl := by
  unfold Core.lastUse; split <;> rfl

@[simp] theorem lastUse_planes (c : Core) (file : Nat) (b : Bool) (r : BitVec 6) :
    (c.lastUse file b r).planes = c.planes := by
  unfold Core.lastUse; split <;> rfl

@[simp] theorem lastUse_wp0 (c : Core) (file : Nat) (b : Bool) (r : BitVec 6) :
    (c.lastUse file b r).wp0 = c.wp0 := by
  unfold Core.lastUse; split <;> rfl

@[simp] theorem lastUse_wp1 (c : Core) (file : Nat) (b : Bool) (r : BitVec 6) :
    (c.lastUse file b r).wp1 = c.wp1 := by
  unfold Core.lastUse; split <;> rfl

@[simp] theorem lastUse_pfmt0 (c : Core) (file : Nat) (b : Bool) (r : BitVec 6) :
    (c.lastUse file b r).pfmt0 = c.pfmt0 := by
  unfold Core.lastUse; split <;> rfl

@[simp] theorem lastUse_pfmt1 (c : Core) (file : Nat) (b : Bool) (r : BitVec 6) :
    (c.lastUse file b r).pfmt1 = c.pfmt1 := by
  unfold Core.lastUse; split <;> rfl

@[simp] theorem lastUse_act (c : Core) (file : Nat) (b : Bool) (r : BitVec 6) :
    (c.lastUse file b r).act = c.act := by
  unfold Core.lastUse; split <;> rfl

@[simp] theorem lastUse_bars (c : Core) (file : Nat) (b : Bool) (r : BitVec 6) :
    (c.lastUse file b r).bars = c.bars := by
  unfold Core.lastUse; split <;> rfl

@[simp] theorem lastUse_coord (c : Core) (file : Nat) (b : Bool) (r : BitVec 6) :
    (c.lastUse file b r).coord = c.coord := by
  unfold Core.lastUse; split <;> rfl

@[simp] theorem lastUse_stage (c : Core) (file : Nat) (b : Bool) (r : BitVec 6) :
    (c.lastUse file b r).stage = c.stage := by
  unfold Core.lastUse; split <;> rfl

@[simp] theorem lastUse_icycle (c : Core) (file : Nat) (b : Bool) (r : BitVec 6) :
    (c.lastUse file b r).icycle = c.icycle := by
  unfold Core.lastUse; split <;> rfl

@[simp] theorem lastUse_causeSlot (c : Core) (file : Nat) (b : Bool) (r : BitVec 6) :
    (c.lastUse file b r).causeSlot = c.causeSlot := by
  unfold Core.lastUse; split <;> rfl

@[simp] theorem lastUse_causeCode (c : Core) (file : Nat) (b : Bool) (r : BitVec 6) :
    (c.lastUse file b r).causeCode = c.causeCode := by
  unfold Core.lastUse; split <;> rfl

@[simp] theorem lastUse_trapPc (c : Core) (file : Nat) (b : Bool) (r : BitVec 6) :
    (c.lastUse file b r).trapPc = c.trapPc := by
  unfold Core.lastUse; split <;> rfl

@[simp] theorem lastUse_ckpPc (c : Core) (file : Nat) (b : Bool) (r : BitVec 6) :
    (c.lastUse file b r).ckpPc = c.ckpPc := by
  unfold Core.lastUse; split <;> rfl

@[simp] theorem lastUse_corr (c : Core) (file : Nat) (b : Bool) (r : BitVec 6) :
    (c.lastUse file b r).corr = c.corr := by
  unfold Core.lastUse; split <;> rfl

@[simp] theorem lastUse_debugPend (c : Core) (file : Nat) (b : Bool) (r : BitVec 6) :
    (c.lastUse file b r).debugPend = c.debugPend := by
  unfold Core.lastUse; split <;> rfl

@[simp] theorem lastUse_cpsel (c : Core) (file : Nat) (b : Bool) (r : BitVec 6) :
    (c.lastUse file b r).cpsel = c.cpsel := by
  unfold Core.lastUse; split <;> rfl

@[simp] theorem lastUse_codeMap (c : Core) (file : Nat) (b : Bool) (r : BitVec 6) :
    (c.lastUse file b r).codeMap = c.codeMap := by
  unfold Core.lastUse; split <;> rfl

@[simp] theorem lastUse_loading (c : Core) (file : Nat) (b : Bool) (r : BitVec 6) :
    (c.lastUse file b r).loading = c.loading := by
  unfold Core.lastUse; split <;> rfl

@[simp] theorem lastUse_imem (c : Core) (file : Nat) (b : Bool) (r : BitVec 6) :
    (c.lastUse file b r).imem = c.imem := by
  unfold Core.lastUse; split <;> rfl

@[simp] theorem lastUse_sp (c : Core) (file : Nat) (b : Bool) (r : BitVec 6) :
    (c.lastUse file b r).sp = c.sp := by
  unfold Core.lastUse; split <;> rfl

@[simp] theorem lastUse_stat (c : Core) (file : Nat) (b : Bool) (r : BitVec 6) :
    (c.lastUse file b r).stat = c.stat := by
  unfold Core.lastUse; split <;> rfl

@[simp] theorem lastUse_ckpt (c : Core) (file : Nat) (b : Bool) (r : BitVec 6) :
    (c.lastUse file b r).ckpt = c.ckpt := by
  unfold Core.lastUse; split <;> rfl

@[simp] theorem lastUse_undo (c : Core) (file : Nat) (b : Bool) (r : BitVec 6) :
    (c.lastUse file b r).undo = c.undo := by
  unfold Core.lastUse; split <;> rfl

@[simp] theorem lastUse_undoStat (c : Core) (file : Nat) (b : Bool) (r : BitVec 6) :
    (c.lastUse file b r).undoStat = c.undoStat := by
  unfold Core.lastUse; split <;> rfl

@[simp] theorem lastUse_preimg (c : Core) (file : Nat) (b : Bool) (r : BitVec 6) :
    (c.lastUse file b r).preimg = c.preimg := by
  unfold Core.lastUse; split <;> rfl

@[simp] theorem lastUse_undoCount (c : Core) (file : Nat) (b : Bool) (r : BitVec 6) :
    (c.lastUse file b r).undoCount = c.undoCount := by
  unfold Core.lastUse; split <;> rfl

@[simp] theorem lastUse_accTiles (c : Core) (file : Nat) (b : Bool) (r : BitVec 6) :
    (c.lastUse file b r).accTiles = c.accTiles := by
  unfold Core.lastUse; split <;> rfl

@[simp] theorem lastUse_planeLoads (c : Core) (file : Nat) (b : Bool) (r : BitVec 6) :
    (c.lastUse file b r).planeLoads = c.planeLoads := by
  unfold Core.lastUse; split <;> rfl

@[simp] theorem lastUse_outLog (c : Core) (file : Nat) (b : Bool) (r : BitVec 6) :
    (c.lastUse file b r).outLog = c.outLog := by
  unfold Core.lastUse; split <;> rfl

@[simp] theorem lastUse_outPos (c : Core) (file : Nat) (b : Bool) (r : BitVec 6) :
    (c.lastUse file b r).outPos = c.outPos := by
  unfold Core.lastUse; split <;> rfl

@[simp] theorem lastUse_barLog (c : Core) (file : Nat) (b : Bool) (r : BitVec 6) :
    (c.lastUse file b r).barLog = c.barLog := by
  unfold Core.lastUse; split <;> rfl

@[simp] theorem lastUse_barPos (c : Core) (file : Nat) (b : Bool) (r : BitVec 6) :
    (c.lastUse file b r).barPos = c.barPos := by
  unfold Core.lastUse; split <;> rfl

@[simp] theorem lastUse_taken (c : Core) (file : Nat) (b : Bool) (r : BitVec 6) :
    (c.lastUse file b r).taken = c.taken := by
  unfold Core.lastUse; split <;> rfl

@[simp] theorem lastUse_drainRec (c : Core) (file : Nat) (b : Bool) (r : BitVec 6) :
    (c.lastUse file b r).drainRec = c.drainRec := by
  unfold Core.lastUse; split <;> rfl

@[simp] theorem lastUse_rerun (c : Core) (file : Nat) (b : Bool) (r : BitVec 6) :
    (c.lastUse file b r).rerun = c.rerun := by
  unfold Core.lastUse; split <;> rfl

@[simp] theorem lastUse_rowOff (c : Core) (file : Nat) (b : Bool) (r : BitVec 6) :
    (c.lastUse file b r).rowOff = c.rowOff := by
  unfold Core.lastUse; split <;> rfl

@[simp] theorem lastUse_ranges (c : Core) (file : Nat) (b : Bool) (r : BitVec 6) :
    (c.lastUse file b r).ranges = c.ranges := by
  unfold Core.lastUse; split <;> rfl

@[simp] theorem lastUse_retired (c : Core) (file : Nat) (b : Bool) (r : BitVec 6) :
    (c.lastUse file b r).retired = c.retired := by
  unfold Core.lastUse; split <;> rfl

@[simp] theorem lastUse_streams (c : Core) (file : Nat) (b : Bool) (r : BitVec 6) :
    (c.lastUse file b r).streams = c.streams := by
  unfold Core.lastUse; split <;> rfl

@[simp] theorem lastUse_loads (c : Core) (file : Nat) (b : Bool) (r : BitVec 6) :
    (c.lastUse file b r).loads = c.loads := by
  unfold Core.lastUse; split <;> rfl

@[simp] theorem lastUse_tileOps (c : Core) (file : Nat) (b : Bool) (r : BitVec 6) :
    (c.lastUse file b r).tileOps = c.tileOps := by
  unfold Core.lastUse; split <;> rfl

@[simp] theorem lastUse_drains (c : Core) (file : Nat) (b : Bool) (r : BitVec 6) :
    (c.lastUse file b r).drains = c.drains := by
  unfold Core.lastUse; split <;> rfl

@[simp] theorem lastUse_arr (c : Core) (file : Nat) (b : Bool) (r : BitVec 6) :
    (c.lastUse file b r).arr = c.arr := by
  unfold Core.lastUse; split <;> rfl

@[simp] theorem lastUse_nextId (c : Core) (file : Nat) (b : Bool) (r : BitVec 6) :
    (c.lastUse file b r).nextId = c.nextId := by
  unfold Core.lastUse; split <;> rfl

@[simp] theorem lastUse_seq (c : Core) (file : Nat) (b : Bool) (r : BitVec 6) :
    (c.lastUse file b r).seq = c.seq := by
  unfold Core.lastUse; split <;> rfl

@[simp] theorem lastUse_seqHold (c : Core) (file : Nat) (b : Bool) (r : BitVec 6) :
    (c.lastUse file b r).seqHold = c.seqHold := by
  unfold Core.lastUse; split <;> rfl

@[simp] theorem lastUse_portBusy (c : Core) (file : Nat) (b : Bool) (r : BitVec 6) :
    (c.lastUse file b r).portBusy = c.portBusy := by
  unfold Core.lastUse; split <;> rfl

@[simp] theorem lastUse_portFrom (c : Core) (file : Nat) (b : Bool) (r : BitVec 6) :
    (c.lastUse file b r).portFrom = c.portFrom := by
  unfold Core.lastUse; split <;> rfl

@[simp] theorem lastUse_bankStatus (c : Core) (file : Nat) (b : Bool) (r : BitVec 6) :
    (c.lastUse file b r).bankStatus = c.bankStatus := by
  unfold Core.lastUse; split <;> rfl

@[simp] theorem lastUse_bankOps (c : Core) (file : Nat) (b : Bool) (r : BitVec 6) :
    (c.lastUse file b r).bankOps = c.bankOps := by
  unfold Core.lastUse; split <;> rfl

@[simp] theorem lastUse_fenceOps (c : Core) (file : Nat) (b : Bool) (r : BitVec 6) :
    (c.lastUse file b r).fenceOps = c.fenceOps := by
  unfold Core.lastUse; split <;> rfl

@[simp] theorem lastUse_fence (c : Core) (file : Nat) (b : Bool) (r : BitVec 6) :
    (c.lastUse file b r).fence = c.fence := by
  unfold Core.lastUse; split <;> rfl

@[simp] theorem lastUse_ckpWait (c : Core) (file : Nat) (b : Bool) (r : BitVec 6) :
    (c.lastUse file b r).ckpWait = c.ckpWait := by
  unfold Core.lastUse; split <;> rfl

@[simp] theorem lastUse_fifo (c : Core) (file : Nat) (b : Bool) (r : BitVec 6) :
    (c.lastUse file b r).fifo = c.fifo := by
  unfold Core.lastUse; split <;> rfl

@[simp] theorem lastUse_out (c : Core) (file : Nat) (b : Bool) (r : BitVec 6) :
    (c.lastUse file b r).out = c.out := by
  unfold Core.lastUse; split <;> rfl

@[simp] theorem lastUse_outNext (c : Core) (file : Nat) (b : Bool) (r : BitVec 6) :
    (c.lastUse file b r).outNext = c.outNext := by
  unfold Core.lastUse; split <;> rfl

@[simp] theorem lastUse_freeing (c : Core) (file : Nat) (b : Bool) (r : BitVec 6) :
    (c.lastUse file b r).freeing = c.freeing := by
  unfold Core.lastUse; split <;> rfl

@[simp] theorem lastUse_inflight (c : Core) (file : Nat) (b : Bool) (r : BitVec 6) :
    (c.lastUse file b r).inflight = c.inflight := by
  unfold Core.lastUse; split <;> rfl

@[simp] theorem lastUse_creditsUsed (c : Core) (file : Nat) (b : Bool) (r : BitVec 6) :
    (c.lastUse file b r).creditsUsed = c.creditsUsed := by
  unfold Core.lastUse; split <;> rfl

@[simp] theorem lastUse_far (c : Core) (file : Nat) (b : Bool) (r : BitVec 6) :
    (c.lastUse file b r).far = c.far := by
  unfold Core.lastUse; split <;> rfl

@[simp] theorem lastUse_colls (c : Core) (file : Nat) (b : Bool) (r : BitVec 6) :
    (c.lastUse file b r).colls = c.colls := by
  unfold Core.lastUse; split <;> rfl

@[simp] theorem lastUse_pend (c : Core) (file : Nat) (b : Bool) (r : BitVec 6) :
    (c.lastUse file b r).pend = c.pend ++ if b && decide (r.toNat < 48) then [⟨0, c.cur, c.cur, .release file r⟩] else [] := by
  unfold Core.lastUse; split <;> simp

@[simp] theorem setBankN_cur (c : Core) (b : Bool) (k : Bank) :
    (c.setBankN b k).cur = c.cur := by
  cases b <;> rfl

@[simp] theorem setBankN_pc (c : Core) (b : Bool) (k : Bank) :
    (c.setBankN b k).pc = c.pc := by
  cases b <;> rfl

@[simp] theorem setBankN_run (c : Core) (b : Bool) (k : Bank) :
    (c.setBankN b k).run = c.run := by
  cases b <;> rfl

@[simp] theorem setBankN_dwell (c : Core) (b : Bool) (k : Bank) :
    (c.setBankN b k).dwell = c.dwell := by
  cases b <;> rfl

@[simp] theorem setBankN_task (c : Core) (b : Bool) (k : Bank) :
    (c.setBankN b k).task = c.task := by
  cases b <;> rfl

@[simp] theorem setBankN_tiles (c : Core) (b : Bool) (k : Bank) :
    (c.setBankN b k).tiles = c.tiles := by
  cases b <;> rfl

@[simp] theorem setBankN_tctl (c : Core) (b : Bool) (k : Bank) :
    (c.setBankN b k).tctl = c.tctl := by
  cases b <;> rfl

@[simp] theorem setBankN_planes (c : Core) (b : Bool) (k : Bank) :
    (c.setBankN b k).planes = c.planes := by
  cases b <;> rfl

@[simp] theorem setBankN_wp0 (c : Core) (b : Bool) (k : Bank) :
    (c.setBankN b k).wp0 = c.wp0 := by
  cases b <;> rfl

@[simp] theorem setBankN_wp1 (c : Core) (b : Bool) (k : Bank) :
    (c.setBankN b k).wp1 = c.wp1 := by
  cases b <;> rfl

@[simp] theorem setBankN_pfmt0 (c : Core) (b : Bool) (k : Bank) :
    (c.setBankN b k).pfmt0 = c.pfmt0 := by
  cases b <;> rfl

@[simp] theorem setBankN_pfmt1 (c : Core) (b : Bool) (k : Bank) :
    (c.setBankN b k).pfmt1 = c.pfmt1 := by
  cases b <;> rfl

@[simp] theorem setBankN_act (c : Core) (b : Bool) (k : Bank) :
    (c.setBankN b k).act = c.act := by
  cases b <;> rfl

@[simp] theorem setBankN_bars (c : Core) (b : Bool) (k : Bank) :
    (c.setBankN b k).bars = c.bars := by
  cases b <;> rfl

@[simp] theorem setBankN_coord (c : Core) (b : Bool) (k : Bank) :
    (c.setBankN b k).coord = c.coord := by
  cases b <;> rfl

@[simp] theorem setBankN_stage (c : Core) (b : Bool) (k : Bank) :
    (c.setBankN b k).stage = c.stage := by
  cases b <;> rfl

@[simp] theorem setBankN_icycle (c : Core) (b : Bool) (k : Bank) :
    (c.setBankN b k).icycle = c.icycle := by
  cases b <;> rfl

@[simp] theorem setBankN_causeSlot (c : Core) (b : Bool) (k : Bank) :
    (c.setBankN b k).causeSlot = c.causeSlot := by
  cases b <;> rfl

@[simp] theorem setBankN_causeCode (c : Core) (b : Bool) (k : Bank) :
    (c.setBankN b k).causeCode = c.causeCode := by
  cases b <;> rfl

@[simp] theorem setBankN_trapPc (c : Core) (b : Bool) (k : Bank) :
    (c.setBankN b k).trapPc = c.trapPc := by
  cases b <;> rfl

@[simp] theorem setBankN_ckpPc (c : Core) (b : Bool) (k : Bank) :
    (c.setBankN b k).ckpPc = c.ckpPc := by
  cases b <;> rfl

@[simp] theorem setBankN_corr (c : Core) (b : Bool) (k : Bank) :
    (c.setBankN b k).corr = c.corr := by
  cases b <;> rfl

@[simp] theorem setBankN_debugPend (c : Core) (b : Bool) (k : Bank) :
    (c.setBankN b k).debugPend = c.debugPend := by
  cases b <;> rfl

@[simp] theorem setBankN_cpsel (c : Core) (b : Bool) (k : Bank) :
    (c.setBankN b k).cpsel = c.cpsel := by
  cases b <;> rfl

@[simp] theorem setBankN_codeMap (c : Core) (b : Bool) (k : Bank) :
    (c.setBankN b k).codeMap = c.codeMap := by
  cases b <;> rfl

@[simp] theorem setBankN_loading (c : Core) (b : Bool) (k : Bank) :
    (c.setBankN b k).loading = c.loading := by
  cases b <;> rfl

@[simp] theorem setBankN_imem (c : Core) (b : Bool) (k : Bank) :
    (c.setBankN b k).imem = c.imem := by
  cases b <;> rfl

@[simp] theorem setBankN_sp (c : Core) (b : Bool) (k : Bank) :
    (c.setBankN b k).sp = c.sp := by
  cases b <;> rfl

@[simp] theorem setBankN_stat (c : Core) (b : Bool) (k : Bank) :
    (c.setBankN b k).stat = c.stat := by
  cases b <;> rfl

@[simp] theorem setBankN_pend (c : Core) (b : Bool) (k : Bank) :
    (c.setBankN b k).pend = c.pend := by
  cases b <;> rfl

@[simp] theorem setBankN_ckpt (c : Core) (b : Bool) (k : Bank) :
    (c.setBankN b k).ckpt = c.ckpt := by
  cases b <;> rfl

@[simp] theorem setBankN_undo (c : Core) (b : Bool) (k : Bank) :
    (c.setBankN b k).undo = c.undo := by
  cases b <;> rfl

@[simp] theorem setBankN_undoStat (c : Core) (b : Bool) (k : Bank) :
    (c.setBankN b k).undoStat = c.undoStat := by
  cases b <;> rfl

@[simp] theorem setBankN_preimg (c : Core) (b : Bool) (k : Bank) :
    (c.setBankN b k).preimg = c.preimg := by
  cases b <;> rfl

@[simp] theorem setBankN_undoCount (c : Core) (b : Bool) (k : Bank) :
    (c.setBankN b k).undoCount = c.undoCount := by
  cases b <;> rfl

@[simp] theorem setBankN_accTiles (c : Core) (b : Bool) (k : Bank) :
    (c.setBankN b k).accTiles = c.accTiles := by
  cases b <;> rfl

@[simp] theorem setBankN_planeLoads (c : Core) (b : Bool) (k : Bank) :
    (c.setBankN b k).planeLoads = c.planeLoads := by
  cases b <;> rfl

@[simp] theorem setBankN_outLog (c : Core) (b : Bool) (k : Bank) :
    (c.setBankN b k).outLog = c.outLog := by
  cases b <;> rfl

@[simp] theorem setBankN_outPos (c : Core) (b : Bool) (k : Bank) :
    (c.setBankN b k).outPos = c.outPos := by
  cases b <;> rfl

@[simp] theorem setBankN_barLog (c : Core) (b : Bool) (k : Bank) :
    (c.setBankN b k).barLog = c.barLog := by
  cases b <;> rfl

@[simp] theorem setBankN_barPos (c : Core) (b : Bool) (k : Bank) :
    (c.setBankN b k).barPos = c.barPos := by
  cases b <;> rfl

@[simp] theorem setBankN_taken (c : Core) (b : Bool) (k : Bank) :
    (c.setBankN b k).taken = c.taken := by
  cases b <;> rfl

@[simp] theorem setBankN_drainRec (c : Core) (b : Bool) (k : Bank) :
    (c.setBankN b k).drainRec = c.drainRec := by
  cases b <;> rfl

@[simp] theorem setBankN_rerun (c : Core) (b : Bool) (k : Bank) :
    (c.setBankN b k).rerun = c.rerun := by
  cases b <;> rfl

@[simp] theorem setBankN_rowOff (c : Core) (b : Bool) (k : Bank) :
    (c.setBankN b k).rowOff = c.rowOff := by
  cases b <;> rfl

@[simp] theorem setBankN_ranges (c : Core) (b : Bool) (k : Bank) :
    (c.setBankN b k).ranges = c.ranges := by
  cases b <;> rfl

@[simp] theorem setBankN_retired (c : Core) (b : Bool) (k : Bank) :
    (c.setBankN b k).retired = c.retired := by
  cases b <;> rfl

@[simp] theorem setBankN_streams (c : Core) (b : Bool) (k : Bank) :
    (c.setBankN b k).streams = c.streams := by
  cases b <;> rfl

@[simp] theorem setBankN_loads (c : Core) (b : Bool) (k : Bank) :
    (c.setBankN b k).loads = c.loads := by
  cases b <;> rfl

@[simp] theorem setBankN_tileOps (c : Core) (b : Bool) (k : Bank) :
    (c.setBankN b k).tileOps = c.tileOps := by
  cases b <;> rfl

@[simp] theorem setBankN_drains (c : Core) (b : Bool) (k : Bank) :
    (c.setBankN b k).drains = c.drains := by
  cases b <;> rfl

@[simp] theorem setBankN_arr (c : Core) (b : Bool) (k : Bank) :
    (c.setBankN b k).arr = c.arr := by
  cases b <;> rfl

@[simp] theorem setBankN_nextId (c : Core) (b : Bool) (k : Bank) :
    (c.setBankN b k).nextId = c.nextId := by
  cases b <;> rfl

@[simp] theorem setBankN_seq (c : Core) (b : Bool) (k : Bank) :
    (c.setBankN b k).seq = c.seq := by
  cases b <;> rfl

@[simp] theorem setBankN_seqHold (c : Core) (b : Bool) (k : Bank) :
    (c.setBankN b k).seqHold = c.seqHold := by
  cases b <;> rfl

@[simp] theorem setBankN_portBusy (c : Core) (b : Bool) (k : Bank) :
    (c.setBankN b k).portBusy = c.portBusy := by
  cases b <;> rfl

@[simp] theorem setBankN_portFrom (c : Core) (b : Bool) (k : Bank) :
    (c.setBankN b k).portFrom = c.portFrom := by
  cases b <;> rfl

@[simp] theorem setBankN_bankStatus (c : Core) (b : Bool) (k : Bank) :
    (c.setBankN b k).bankStatus = c.bankStatus := by
  cases b <;> rfl

@[simp] theorem setBankN_bankOps (c : Core) (b : Bool) (k : Bank) :
    (c.setBankN b k).bankOps = c.bankOps := by
  cases b <;> rfl

@[simp] theorem setBankN_fenceOps (c : Core) (b : Bool) (k : Bank) :
    (c.setBankN b k).fenceOps = c.fenceOps := by
  cases b <;> rfl

@[simp] theorem setBankN_fence (c : Core) (b : Bool) (k : Bank) :
    (c.setBankN b k).fence = c.fence := by
  cases b <;> rfl

@[simp] theorem setBankN_ckpWait (c : Core) (b : Bool) (k : Bank) :
    (c.setBankN b k).ckpWait = c.ckpWait := by
  cases b <;> rfl

@[simp] theorem setBankN_fifo (c : Core) (b : Bool) (k : Bank) :
    (c.setBankN b k).fifo = c.fifo := by
  cases b <;> rfl

@[simp] theorem setBankN_out (c : Core) (b : Bool) (k : Bank) :
    (c.setBankN b k).out = c.out := by
  cases b <;> rfl

@[simp] theorem setBankN_outNext (c : Core) (b : Bool) (k : Bank) :
    (c.setBankN b k).outNext = c.outNext := by
  cases b <;> rfl

@[simp] theorem setBankN_freeing (c : Core) (b : Bool) (k : Bank) :
    (c.setBankN b k).freeing = c.freeing := by
  cases b <;> rfl

@[simp] theorem setBankN_inflight (c : Core) (b : Bool) (k : Bank) :
    (c.setBankN b k).inflight = c.inflight := by
  cases b <;> rfl

@[simp] theorem setBankN_creditsUsed (c : Core) (b : Bool) (k : Bank) :
    (c.setBankN b k).creditsUsed = c.creditsUsed := by
  cases b <;> rfl

@[simp] theorem setBankN_far (c : Core) (b : Bool) (k : Bank) :
    (c.setBankN b k).far = c.far := by
  cases b <;> rfl

@[simp] theorem setBankN_colls (c : Core) (b : Bool) (k : Bank) :
    (c.setBankN b k).colls = c.colls := by
  cases b <;> rfl

@[simp] theorem bankN_setBankN (c : Core) (b : Bool) (k : Bank) :
    (c.setBankN b k).bankN b = k := by
  cases b <;> rfl

@[simp] theorem bankN_setBankN_not (c : Core) (b : Bool) (k : Bank) :
    (c.setBankN b k).bankN (!b) = c.bankN (!b) := by
  cases b <;> rfl

@[simp] theorem bank_modBank (c : Core) (f : Bank → Bank) :
    (c.modBank f).bank = f c.bank := by
  cases h : c.cur <;> simp [Core.modBank, Core.modBankN, Core.setBankN, Core.bank, Core.bankN, h]

end Sys2Proof.Machine
end

