-- ==== Sys2Proof/Laws/Memory.lean ====
section
/-! SUPPORT. Every operation on a byte memory keeps the canonical form, the machine after reset has it, and what a
write of placed bytes reads back (log 3). -/

namespace Sys2Proof.Machine

/-! ### The scratchpad -/

theorem sp_writeC0 (c : Core) (bank1 : Bool) (w : List (Nat × Byte)) :
    (c.writeC0 bank1 w).sp = w.foldl (fun m x => m.setByte x.1 x.2) c.sp := by
  induction w generalizing c with
  | nil => rfl
  | cons x r ih =>
    rw [Core.writeC0, List.foldl_cons, List.foldl_cons]
    cases bank1 <;> exact ih _

theorem sp_writeArrival (c : Core) (w : List (Nat × Byte)) :
    (c.writeArrival w).sp = w.foldl (fun m x => m.setByte x.1 x.2) c.sp := by
  induction w generalizing c with
  | nil => rfl
  | cons x r ih => rw [Core.writeArrival, List.foldl_cons, List.foldl_cons]; exact ih _

theorem sp_writePlain (c : Core) (w : List (Nat × Byte)) :
    (c.writePlain w).sp = w.foldl (fun m x => m.setByte x.1 x.2) c.sp := by
  induction w generalizing c with
  | nil => rfl
  | cons x r ih => rw [Core.writePlain, List.foldl_cons, List.foldl_cons]; exact ih _

/-- Placed bytes written one by one are the bytes written from their address. -/
theorem foldl_placed (m : Memory) (a : Nat) (bs : List Byte) :
    (placed a bs).foldl (fun m x => m.setByte x.1 x.2) m = m.setBytes a bs := by
  induction bs generalizing m a with
  | nil => rfl
  | cons b r ih => rw [placed, List.foldl_cons, setBytes_cons]; exact ih _ _

theorem sp_writeC0_placed (c : Core) (bank1 : Bool) (a : Nat) (bs : List Byte) :
    (c.writeC0 bank1 (placed a bs)).sp = c.sp.setBytes a bs := by rw [sp_writeC0, foldl_placed]

theorem sp_writeArrival_placed (c : Core) (a : Nat) (bs : List Byte) :
    (c.writeArrival (placed a bs)).sp = c.sp.setBytes a bs := by rw [sp_writeArrival, foldl_placed]

theorem sp_writePlain_placed (c : Core) (a : Nat) (bs : List Byte) :
    (c.writePlain (placed a bs)).sp = c.sp.setBytes a bs := by rw [sp_writePlain, foldl_placed]

theorem wf_writeC0 (c : Core) (bank1 : Bool) (w : List (Nat × Byte)) (h : c.sp.wf = true) :
    (c.writeC0 bank1 w).sp.wf = true := by
  rw [sp_writeC0]; exact wf_foldl_setByte w id c.sp h

theorem wf_writeArrival (c : Core) (w : List (Nat × Byte)) (h : c.sp.wf = true) : (c.writeArrival w).sp.wf = true := by
  rw [sp_writeArrival]; exact wf_foldl_setByte w id c.sp h

theorem wf_writePlain (c : Core) (w : List (Nat × Byte)) (h : c.sp.wf = true) : (c.writePlain w).sp.wf = true := by
  rw [sp_writePlain]; exact wf_foldl_setByte w id c.sp h

theorem imem_writeC0 (c : Core) (bank1 : Bool) (w : List (Nat × Byte)) : (c.writeC0 bank1 w).imem = c.imem := by
  induction w generalizing c with
  | nil => rfl
  | cons x r ih =>
    rw [Core.writeC0, List.foldl_cons]
    cases bank1 <;> exact ih _

theorem imem_writeArrival (c : Core) (w : List (Nat × Byte)) : (c.writeArrival w).imem = c.imem := by
  induction w generalizing c with
  | nil => rfl
  | cons x r ih => rw [Core.writeArrival, List.foldl_cons]; exact ih _

theorem imem_writePlain (c : Core) (w : List (Nat × Byte)) : (c.writePlain w).imem = c.imem := by
  induction w generalizing c with
  | nil => rfl
  | cons x r ih => rw [Core.writePlain, List.foldl_cons]; exact ih _

/-- A write of no byte of an address leaves it: of the bytes listed, only the addresses listed change. -/
theorem byte_foldl_setByte_other (m : Memory) (w : List (Nat × Byte)) (a : Nat) (h : ∀ x ∈ w, x.1 ≠ a) :
    (w.foldl (fun m x => m.setByte x.1 x.2) m).byte a = m.byte a := by
  induction w generalizing m with
  | nil => rfl
  | cons x r ih =>
    rw [List.foldl_cons, ih _ fun y hy => h y (List.mem_cons_of_mem _ hy), byte_setByte,
      if_neg fun e => h x List.mem_cons_self e.symm]

/-! ### Memories built by a fold, an image and a load -/

/-- A fold over a memory that keeps the form at each element keeps it. -/
theorem wf_foldl {α : Type} (l : List α) (f : Memory → α → Memory) (hf : ∀ m x, m.wf = true → (f m x).wf = true)
    (m : Memory) (h : m.wf = true) : (l.foldl f m).wf = true := by
  induction l generalizing m with
  | nil => exact h
  | cons x r ih => exact ih _ (hf m x h)

theorem wf_ssetAll (m : Memory) (l : List (Nat × Byte)) (h : m.wf = true) : Memory.wf (ssetAll 0#8 m l) = true :=
  swf_ssetAll 0#8 l m h

theorem wf_sclear (m : Memory) (lo hi : Nat) (h : m.wf = true) : Memory.wf (sclear m lo hi) = true :=
  swf_sclear 0#8 m lo hi h

theorem wf_imageSp (rd : Nat → W) : (imageSp rd).wf = true := by
  suffices h : ∀ (l : List (Nat × Nat)) (am : Nat × Memory), am.2.wf = true →
      (l.foldl (fun (am : Nat × Memory) r =>
        (am.1 + r.2, am.2.setBytes r.1 ((List.range r.2).map fun i =>
          (rd ((imageFixed + am.1 + i) / 4)).extractLsb' (8 * ((am.1 + i) % 4)) 8))) am).2.wf = true from
    h _ _ wf_nil
  intro l
  induction l with
  | nil => exact fun _ h => h
  | cons r l ih => exact fun am h => ih _ (wf_setBytes _ _ _ h)

theorem wf_clean (c : Core) (tag coord : W) (stage : Nat) (h : c.imem.wf = true) :
    (c.clean tag coord stage).sp.wf = true ∧ (c.clean tag coord stage).imem.wf = true := by
  unfold Core.clean
  exact ⟨wf_nil, wf_sclear c.imem 0 0x3C000 h⟩

theorem wf_withPage (c : Core) (page : Nat) (bytes : List Byte) (h : c.imem.wf = true) :
    (c.withPage page bytes).imem.wf = true := by
  unfold Core.withPage
  exact wf_setBytes c.imem 0 bytes h

theorem wf_loadImage (c : Core) (rd : Nat → W) (h : c.imem.wf = true) :
    (c.loadImage rd).sp.wf = true ∧ (c.loadImage rd).imem.wf = true := by
  unfold Core.loadImage
  exact ⟨wf_imageSp rd, h⟩

theorem wf_benched (c : Core) (bank1 : Bool) (bs : List Byte) (h : c.sp.wf = true ∧ c.imem.wf = true) :
    (c.benched bank1 bs).sp.wf = true ∧ (c.benched bank1 bs).imem.wf = true := by
  unfold Core.benched
  exact ⟨h.1, wf_setBytes c.imem _ bs h.2⟩

theorem sp_restoreFrom (c : Core) (k : Ckpt) :
    (c.restoreFrom k).sp = c.undo.foldl (fun m x => match x.2 with
      | none => m
      | some b => m.setByte x.1 b) c.sp := rfl

/-- The scratchpad a rollback restores is in the canonical form (R209). -/
theorem wf_restoreFrom (c : Core) (k : Ckpt) (h : c.sp.wf = true) : (c.restoreFrom k).sp.wf = true := by
  rw [sp_restoreFrom]
  refine wf_foldl c.undo _ (fun m x hm => ?_) c.sp h
  cases x.2 with
  | none => exact hm
  | some b => exact wf_setByte m _ b hm

/-! ### The banks, the memories of a package and the host's memory -/

theorem wf_writeBank (x : Column) (a : Nat) (bs : List Byte) (h : x.banks.wf = true) : (x.writeBank a bs).banks.wf = true :=
  wf_setBytes x.banks a bs h

/-- The memories of a package are in the canonical form. -/
def Pkg.memoriesWf (p : Pkg) : Prop := p.hbm.wf = true ∧ p.tier.wf = true ∧ p.host.wf = true

theorem wf_modPkg {s : State} {k : Nat} {f : Pkg → Pkg} (hf : ∀ p : Pkg, p.memoriesWf → (f p).memoriesWf)
    (h : ∀ j, (s.pkg j).memoriesWf) (j : Nat) : ((s.modPkg k f).pkg j).memoriesWf := by
  rw [pkg_modPkg]
  split
  · exact hf _ (h k)
  · exact h j

theorem wf_hostWrite (s : State) (pkg a : Nat) (bs : List Byte) (h : ∀ j, (s.pkg j).memoriesWf) (j : Nat) :
    ((s.hostWrite pkg a bs).pkg j).memoriesWf :=
  wf_modPkg (f := fun p => { p with host := p.host.setBytes a bs })
    (fun p hp => ⟨hp.1, hp.2.1, wf_setBytes p.host a bs hp.2.2⟩) h j

theorem wf_writeLine (s : State) (acc : Nat) (e : DW) (die va : Nat) (bs : List Byte) (h : ∀ j, (s.pkg j).memoriesWf) (j : Nat) :
    ((s.writeLine acc e die va bs).pkg j).memoriesWf := by
  unfold State.writeLine
  generalize (if entKey e = 0 then BitVec.ofNat 512 (natOfBytes bs) else _) = c
  generalize (if entKey e = 0 then _ else _) = tag
  simp only
  split
  · exact h j
  refine wf_modPkg (fun p hp => ?_) h j
  cases entTier e <;> simp only [Bool.false_eq_true, if_false, if_true, Pkg.memoriesWf]
  · exact ⟨wf_setNat _ _ _ _ hp.1, hp.2⟩
  · exact ⟨hp.1, wf_setNat _ _ _ _ hp.2.1, hp.2.2⟩

theorem wf_smove (m src : Memory) (a b n : Nat) (h : m.wf = true) : Memory.wf (smove 0 m src a b n) = true :=
  wf_ssetAll _ _ (wf_sclear _ _ _ h)

theorem wf_copySegment (s : State) (old new : DW) (die : Nat) (h : ∀ j, (s.pkg j).memoriesWf) (j : Nat) :
    ((s.copySegment old new die).pkg j).memoriesWf := by
  unfold State.copySegment
  refine wf_modPkg (fun p hp => ?_) h j
  cases entTier new <;> simp only [Bool.false_eq_true, if_false, if_true, Pkg.memoriesWf]
  · exact ⟨wf_smove _ _ _ _ _ hp.1, hp.2⟩
  · exact ⟨hp.1, wf_smove _ _ _ _ _ hp.2.1, hp.2.2⟩

theorem wf_completeAs (s : State) (k : Nat) (c : HostCmd) (status named : Nat) (h : ∀ j, (s.pkg j).memoriesWf) (j : Nat) :
    ((s.completeAs k c status named).pkg j).memoriesWf := by
  simp only [State.completeAs]
  refine wf_modPkg (fun p hp => ?_) h j
  exact ⟨hp.1, hp.2.1, wf_setNat _ _ 4 _ (wf_setNat p.host _ 4 _ hp.2.2)⟩

theorem wf_bramble_fill (b : Bramble) (n : Nat) (src : Option Nat) (h : b.data.wf = true) : (b.fill n src).data.wf = true :=
  wf_ssetAll _ _ (wf_sclear b.data _ _ h)

/-! ### After reset -/

theorem core_reset_memories : Core.reset.sp.wf = true ∧ Core.reset.imem.wf = true := by decide +kernel

theorem column_reset_memories : Column.reset.banks.wf = true := rfl

theorem pkg_reset_memories : Pkg.reset.memoriesWf := ⟨rfl, rfl, rfl⟩

end Sys2Proof.Machine
end

