-- ==== Sys2Proof/Laws/Ops.lean ====
section
/-! SUPPORT. What each shared operation can do, said once: results put on their way, the registers read and written, taking
a trap and returning from one, an outbound operation, and the canonical form that every update of the state keeps. -/

namespace Sys2Proof.Machine

/-! ### Results on their way -/

/-- A core that puts a result on its way changes in nothing else (R80). -/
theorem send_sameButPend (c : Core) (left : Nat) (k : PendKind) : c.sameButPend (c.send left k) := rfl

theorem sendTo_sameButPend (c : Core) (left : Nat) (b : Bool) (k : PendKind) : c.sameButPend (c.sendTo left b k) := rfl

theorem lastUse_sameButPend (c : Core) (file : Nat) (bit : Bool) (r : BitVec 6) : c.sameButPend (c.lastUse file bit r) := by
  unfold Core.lastUse
  split
  · exact send_sameButPend c 0 _
  · rfl

theorem sameButPend_refl (c : Core) : c.sameButPend c := rfl

theorem sameButPend_trans {a b c : Core} (h : a.sameButPend b) (g : b.sameButPend c) : a.sameButPend c := by
  unfold Core.sameButPend at *
  rw [← h, ← g]

@[simp] theorem sendTo_pend (c : Core) (left : Nat) (b : Bool) (k : PendKind) :
    (c.sendTo left b k).pend = c.pend ++ [⟨left, c.cur, b, k⟩] := rfl

/-- A last-use bit releases a main-file register after the bundle's reads; on the other codes it does nothing (R64). -/
theorem lastUse_cases (c : Core) (file : Nat) (bit : Bool) (r : BitVec 6) :
    (bit = true ∧ r.toNat < 48 ∧ c.lastUse file bit r = c.send 0 (.release file r)) ∨
      ((bit = false ∨ 48 ≤ r.toNat) ∧ c.lastUse file bit r = c) := by
  unfold Core.lastUse
  cases bit
  · exact .inr ⟨.inl rfl, rfl⟩
  · by_cases h : r.toNat < 48
    · exact .inl ⟨rfl, h, by simp [h]⟩
    · exact .inr ⟨.inr (by omega), by simp [h]⟩

/-! ### Registers (R61 to R67) -/

theorem physP_lt (prb : BitVec 3) (n : Nat) (h : n < 16) : physP prb n < 16 := by
  unfold physP
  split <;> omega

theorem physB_lt (brb : BitVec 3) (n : Nat) : physB brb n < 8 := Nat.mod_lt _ (by decide)

/-- p0 reads true and takes no write (R66). -/
@[simp] theorem readP_zero (b : Bank) : b.readP 0 = true := rfl

@[simp] theorem setP_zero (b : Bank) (v : Bool) : b.setP 0 v = b := rfl

/-- vp0 reads all-true and takes no write (R66). -/
@[simp] theorem readVP_zero (b : Bank) (unit : Bool) : b.readVP unit 0 = BitVec.allOnes 64 := rfl

@[simp] theorem setVP_zero (b : Bank) (unit : Bool) (mask v : BitVec 64) : b.setVP unit 0 mask v = b := rfl

/-- A write to a code from 56 on is discarded (R62). -/
theorem setS_discards (b : Bank) (d : BitVec 6) (v : W) (h : 56 ≤ d.toNat) : b.setS d v = b := by
  unfold Bank.setS
  rw [if_neg (by omega), if_neg (by omega)]

theorem setV_discards (b : Bank) (unit : Bool) (d : BitVec 6) (mask : BitVec 64) (v : VReg) (u : Nat → W)
    (h : 56 ≤ d.toNat) : b.setV unit d mask v u = b := by
  unfold Bank.setV
  rw [if_neg (by omega), if_neg (by omega)]

theorem releasedS_live (b : Bank) (n : Nat) (h : n < 48) (m : SMap W) :
    ({ b with s := m, relS := b.relS &&& ~~~(1#48 <<< n) } : Bank).releasedS n = false := by
  simp [Bank.releasedS, h]

/-- A main-file or sk register that was written reads what was written (R61, R62, R64). -/
theorem readS_setS_self (b : Bank) (d : BitVec 6) (v lit : W) (u : Nat → W) (h : d.toNat < 56) :
    (b.setS d v).readS lit u d = v := by
  unfold Bank.setS
  by_cases h1 : d.toNat < 48
  · simp only [h1, if_true, Bank.readS]
    rw [releasedS_live b d.toNat h1]
    simp [sget_sset]
  · simp only [h1, if_false, h, if_true, Bank.readS, sget_sset]

/-- A write leaves what every other code reads (R61, R62). -/
theorem readS_setS_other (b : Bank) (d r : BitVec 6) (v lit : W) (u : Nat → W) (h : r ≠ d) :
    (b.setS d v).readS lit u r = b.readS lit u r := by
  have hn : r.toNat ≠ d.toNat := fun e => h (BitVec.eq_of_toNat_eq e)
  unfold Bank.setS
  by_cases h1 : d.toNat < 48
  · simp only [h1, if_true, Bank.readS, Bank.releasedS, sget_sset, if_neg hn, BitVec.getLsbD_and, BitVec.getLsbD_not,
      BitVec.getLsbD_shiftLeft, BitVec.getLsbD_one]
    by_cases h2 : r.toNat < 48
    · simp only [h2, if_true, decide_true, Bool.true_and]
      by_cases h3 : r.toNat < d.toNat
      · simp [h3]; rfl
      · have h4 : ¬ r.toNat - d.toNat = 0 := by omega
        simp [h3, h4]; rfl
    · simp only [h2, if_false]
  · by_cases h2 : d.toNat < 56
    · simp only [h1, if_false, h2, if_true, Bank.readS, Bank.releasedS, sget_sset]
      by_cases h3 : r.toNat < 48
      · simp only [h3, if_true]; rfl
      · by_cases h4 : r.toNat < 56
        · have : ¬ r.toNat - 48 = d.toNat - 48 := by omega
          simp only [h3, if_false, h4, if_true, this]
        · simp only [h3, if_false, h4]
    · simp only [h1, if_false, h2]

/-! ### Taking a trap and returning from one (R201 to R206) -/

/-- A trap of bank 0 starts the drain of its core; the bundle is marked as trapped and nothing else changes. -/
theorem trap_bank0 (s : State) (code : Nat) (h : s.cur.cur = false) :
    s.trap code = { s.setCore s.ictx.core { s.cur with run := .drain (s.clkOf s.ictx.core) (.trap ⟨s.ictx.slot, code, s.ictx.pc⟩) } with
      ictx := { s.ictx with trap := some ⟨s.ictx.slot, code, s.ictx.pc⟩ } } := by
  have h' : (s.core s.ictx.core).cur = false := h
  simp [State.trap, State.beginTrap, h', State.cur]

/-- A trap of bank 1 is a handler fault, and the bundle is marked as trapped (R205). -/
theorem trap_bank1 (s : State) (code : Nat) (h : s.cur.cur = true) :
    s.trap code = { s.handlerFault s.ictx.core s.ictx.slot s.ictx.pc with
      ictx := { (s.handlerFault s.ictx.core s.ictx.slot s.ictx.pc).ictx with trap := some ⟨s.ictx.slot, code, s.ictx.pc⟩ } } := by
  have h' : (s.core s.ictx.core).cur = true := h
  simp [State.trap, State.beginTrap, h']

/-- Entering the handler writes the four registers of a trap and switches to bank 1 at offset 0 (R205). -/
theorem enterHandler_fields (c : Core) (t : TrapInfo) (p : PC) :
    (c.enterHandler t p).causeSlot = BitVec.ofNat 3 t.slot ∧ (c.enterHandler t p).causeCode = BitVec.ofNat 16 t.code ∧
      (c.enterHandler t p).trapPc = t.pc ∧ (c.enterHandler t p).ckpPc = p ∧ (c.enterHandler t p).cur = true ∧
      (c.enterHandler t p).pc = 0 ∧ (c.enterHandler t p).run = .issue ∧ (c.enterHandler t p).bank0 = c.bank0 ∧
      (c.enterHandler t p).bank1 = c.bank1 ∧ (c.enterHandler t p).sp = c.sp := ⟨rfl, rfl, rfl, rfl, rfl, rfl, rfl, rfl, rfl, rfl⟩

/-- Leaving the handler goes to bank 0 at the offset given, its low two bits cleared (R206). -/
theorem leaveHandler_fields (c : Core) (p : PC) :
    (c.leaveHandler p).cur = false ∧ (c.leaveHandler p).pc = p &&& 0x3FFFFFC#26 ∧ (c.leaveHandler p).bank0 = c.bank0 ∧
      (c.leaveHandler p).bank1 = c.bank1 ∧ (c.leaveHandler p).sp = c.sp := ⟨rfl, rfl, rfl, rfl, rfl⟩

/-! ### Outbound operations (R208, R211) -/

/-- What an outbound operation can do: exceed the budget, be sent, stand for itself in the log, or disagree with it. -/
theorem outOp_cases (s : State) (op dst len : Nat) (data : List Byte) (result : W) (act : State → State)
    (quiet : OutEntry → State → State) :
    let dg := if data.isEmpty then 0 else digest data
    (s.cur.outOver = true ∧ s.outOp op dst len data result act quiet = s.trap cCkpBudget) ∨
      (s.cur.outOver = false ∧ s.cur.outbound op dst len dg = .send ∧
        s.outOp op dst len data result act quiet = act (s.upd fun c => c.logOut op dst len dg result)) ∨
      (∃ e, s.cur.outOver = false ∧ s.cur.outbound op dst len dg = .suppressed e ∧
        s.outOp op dst len data result act quiet = quiet e (s.upd fun c => c.logOut op dst len dg e.result)) ∨
      (s.cur.outOver = false ∧ s.cur.outbound op dst len dg = .differs ∧
        s.outOp op dst len data result act quiet =
          (s.upd fun c => c.logOut op dst len dg result).disagree s.ictx.core) := by
  intro dg
  simp only [State.outOp]
  cases h : s.cur.outOver
  · rw [if_neg (by simp)]
    cases g : s.cur.outbound op dst len dg with
    | send => exact .inr (.inl ⟨rfl, rfl, rfl⟩)
    | suppressed e => exact .inr (.inr (.inl ⟨e, rfl, rfl, rfl⟩))
    | differs => exact .inr (.inr (.inr ⟨rfl, rfl, rfl⟩))
  · exact .inl ⟨rfl, if_pos rfl⟩

/-- An operation is sent when bank 1 issues it or no entry of a rerun stands at its place (R211). -/
theorem outbound_send (c : Core) (op dst len : Nat) (dg : BitVec 64) (h : c.cur = true ∨ c.outLog[c.outPos]? = none) :
    c.outbound op dst len dg = .send := by
  unfold Core.outbound
  rcases h with h | h
  · rw [if_pos h]
  · rw [h]; split <;> rfl

/-! ### The rows of the scratchpad's address table (R78) -/

theorem readOk_private (a n : Nat) (hn : 0 < n) (h : a + n ≤ 0x3F0000) : readOk (a : Int) n = true := by
  have h1 : a < 0x3F0000 := by omega
  have h2 : a + n - 1 < 0x3F0000 := by omega
  simp [readOk, spRow, h1, h2]

theorem writeOk_private (a n : Nat) (hn : 0 < n) (h : a + n ≤ 0x3F0000) : writeOk (a : Int) n = true := by
  have h1 : a < 0x3F0000 := by omega
  have h2 : a + n - 1 < 0x3F0000 := by omega
  simp [writeOk, spRow, h1, h2]

/-! ### The canonical form of the parts (log 1) -/

theorem canonical_setCore {s : State} (h : s.canonical) (k : Nat) (c : Core) : (s.setCore k c).canonical :=
  ⟨swf_sset _ _ _ _ h.1, h.2⟩

theorem canonical_modCore {s : State} (h : s.canonical) (k : Nat) (f : Core → Core) : (s.modCore k f).canonical :=
  canonical_setCore h k _

theorem canonical_upd {s : State} (h : s.canonical) (f : Core → Core) : (s.upd f).canonical := canonical_modCore h _ f

theorem canonical_setCol {s : State} (h : s.canonical) (k : Nat) (c : Column) : (s.setCol k c).canonical :=
  ⟨h.1, swf_sset _ _ _ _ h.2.1, h.2.2⟩

theorem canonical_modCol {s : State} (h : s.canonical) (k : Nat) (f : Column → Column) : (s.modCol k f).canonical :=
  canonical_setCol h k _

theorem canonical_setDie {s : State} (h : s.canonical) (k : Nat) (d : Die) : (s.setDie k d).canonical :=
  ⟨h.1, h.2.1, swf_sset _ _ _ _ h.2.2.1, h.2.2.2⟩

theorem canonical_modDie {s : State} (h : s.canonical) (k : Nat) (f : Die → Die) : (s.modDie k f).canonical :=
  canonical_setDie h k _

theorem canonical_setPkg {s : State} (h : s.canonical) (k : Nat) (p : Pkg) : (s.setPkg k p).canonical :=
  ⟨h.1, h.2.1, h.2.2.1, swf_sset _ _ _ _ h.2.2.2⟩

theorem canonical_modPkg {s : State} (h : s.canonical) (k : Nat) (f : Pkg → Pkg) : (s.modPkg k f).canonical :=
  canonical_setPkg h k _

/-- A state with the same parts is in the form too: what it holds beside them does not matter. -/
theorem canonical_of_parts {s t : State} (h : s.canonical) (h1 : t.cores = s.cores) (h2 : t.columns = s.columns)
    (h3 : t.dies = s.dies) (h4 : t.pkgs = s.pkgs) : t.canonical := by
  unfold State.canonical
  rw [h1, h2, h3, h4]
  exact h

theorem canonical_schedule {s : State} (h : s.canonical) (dom : Domain) (t : Nat) (e : Ev) : (s.schedule dom t e).canonical := h

theorem canonical_scheduleCore {s : State} (h : s.canonical) (k t : Nat) (e : Ev) : (s.scheduleCore k t e).canonical := h

theorem canonical_scheduleFab {s : State} (h : s.canonical) (t : Nat) (e : Ev) : (s.scheduleFab t e).canonical := h

theorem canonical_unschedule {s : State} (h : s.canonical) (p : Ev → Bool) : (s.unschedule p).canonical := h

theorem canonical_tick {s : State} (h : s.canonical) : s.tick.canonical := h

theorem canonical_foldl {α : Type} (l : List α) (f : State → α → State)
    (hf : ∀ s x, s.canonical → (f s x).canonical) {s : State} (h : s.canonical) : (l.foldl f s).canonical := by
  induction l generalizing s with
  | nil => exact h
  | cons x r ih => exact ih (hf s x h)

theorem canonical_post {s : State} (h : s.canonical) (die kind : Nat) (task : W) (core cause tpc cpc : W) (dr : List DrainRec) :
    (s.post die kind task core cause tpc cpc dr).canonical := canonical_modDie h die _

theorem canonical_repay {s : State} (h : s.canonical) (port : Nat) (fs : List Flit) : (s.repay port fs).canonical := by
  refine canonical_foldl fs _ (fun s x hs => ?_) h
  cases x.credit with
  | none => exact hs
  | some k => exact canonical_scheduleFab hs _ _

theorem canonical_dropFabric {s : State} (h : s.canonical) (k : Nat) : (s.dropFabric k).canonical :=
  canonical_foldl _ _ (fun _ _ hs => canonical_modCore (canonical_repay hs _ _) _ _) h

theorem canonical_noteResidue {s : State} (h : s.canonical) (k : Nat) : (s.noteResidue k).canonical :=
  canonical_modCore (canonical_modDie h _ _) _ _

theorem canonical_vacateCores {s : State} (h : s.canonical) (ks : List Nat) : (s.vacateCores ks).canonical := by
  refine canonical_foldl ks _ (fun s k hs => ?_) h
  exact canonical_unschedule (canonical_modCol (canonical_modCore
    (canonical_dropFabric (canonical_noteResidue hs k) k) k _) (colOf k) _) _

theorem canonical_abortTask {s : State} (h : s.canonical) (die : Nat) (tag : W) (hold : Bool) : (s.abortTask die tag hold).canonical := by
  unfold State.abortTask
  split
  · exact h
  · exact canonical_unschedule (canonical_modDie (canonical_vacateCores h _) _ _) _

theorem canonical_handlerFault {s : State} (h : s.canonical) (k slot : Nat) (pc : PC) : (s.handlerFault k slot pc).canonical :=
  canonical_abortTask (canonical_post (canonical_modCore h _ _) _ _ _ _ _ _ _ _) _ _ _

theorem canonical_markRetired {s : State} (h : s.canonical) (k : Nat) (tag : W) : (s.markRetired k tag).canonical :=
  canonical_modDie (canonical_post (canonical_modCore h _ _) _ _ _ _ _ _ _ _) _ _

theorem canonical_retireCore {s : State} (h : s.canonical) (k : Nat) : (s.retireCore k).canonical := by
  unfold State.retireCore
  simp only
  split
  · exact canonical_abortTask (canonical_markRetired h _ _) _ _ _
  · exact canonical_markRetired h _ _

theorem canonical_retireColumn {s : State} (h : s.canonical) (col : Nat) : (s.retireColumn col).canonical := by
  refine canonical_foldl _ _ (fun s k hs => ?_)
    (canonical_foldl _ _ (fun s k hs => canonical_markRetired hs k _) (canonical_modCol h _ _))
  split
  · exact hs
  · exact canonical_abortTask hs _ _ _

theorem canonical_beginTrap {s : State} (h : s.canonical) (k : Nat) (t : TrapInfo) : (s.beginTrap k t).canonical := by
  unfold State.beginTrap
  simp only
  split
  · exact canonical_handlerFault h _ _ _
  · exact canonical_setCore h _ _

theorem canonical_trap {s : State} (h : s.canonical) (code : Nat) : (s.trap code).canonical :=
  canonical_of_parts (canonical_beginTrap h s.ictx.core ⟨s.ictx.slot, code, s.ictx.pc⟩) rfl rfl rfl rfl

theorem canonical_trapAt {s : State} (h : s.canonical) (code : Nat) (pc : PC) : (s.trapAt code pc).canonical :=
  canonical_of_parts (canonical_beginTrap h s.ictx.core ⟨s.ictx.slot, code, pc⟩) rfl rfl rfl rfl

theorem canonical_disagree {s : State} (h : s.canonical) (k : Nat) : (s.disagree k).canonical := by
  unfold State.disagree
  split
  · exact canonical_modCore h _ _
  · exact canonical_retireCore h k

theorem canonical_outOp {s : State} (h : s.canonical) (op dst len : Nat) (data : List Byte) (result : W) {act : State → State}
    {quiet : OutEntry → State → State} (ha : ∀ t : State, t.canonical → (act t).canonical)
    (hq : ∀ e (t : State), t.canonical → (quiet e t).canonical) : (s.outOp op dst len data result act quiet).canonical := by
  rcases outOp_cases s op dst len data result act quiet with ⟨_, e⟩ | ⟨_, _, e⟩ | ⟨x, _, _, e⟩ | ⟨_, _, e⟩ <;> rw [e]
  · exact canonical_trap h _
  · exact ha _ (canonical_upd h _)
  · exact hq _ _ (canonical_upd h _)
  · exact canonical_disagree (canonical_upd h _) _

end Sys2Proof.Machine
end

