-- ==== Sys2Proof/Tests/Slice0.lean ====
section
/-! SUPPORT. Tests: the well-formedness check refuses an ill-formed term of each kind; words written out from the encodings of
the spec decode to their instructions; single steps on small states; and for each statement a state and operands that meet its
hypotheses. -/

namespace Sys2Proof.Tests

open Sys2Proof Sys2Proof.Machine

set_option maxRecDepth 100000
set_option Elab.async false
set_option exponentiation.threshold 4096

/-! ### The well-formedness check refuses each kind of ill-formed term (04_core_encoding.md R87 to R97, R106; R160) -/

theorem test_wf_last_use_of_an_immediate : (Instr.iadd ⟨false, 0, 4, 1, 2, false, true, true⟩).wf = false := by decide
theorem test_wf_compare_type_7 : (Instr.cmpeq ⟨0, 1, 2, 7, 1, 2⟩).wf = false := by decide
theorem test_wf_linc_register_48 : (Instr.linc ⟨false, 0, 48, false, 1⟩).wf = false := by decide
theorem test_wf_linc_base_8 : (Instr.linc ⟨false, 0, 8, true, 1⟩).wf = false := by decide
theorem test_wf_selector_6 : (Instr.mfc ⟨false, 0, 1, 6⟩).wf = false := by decide
theorem test_wf_selector_to_0x30 : (Instr.mtc ⟨false, 0, 0x30, 1, false⟩).wf = false := by decide
theorem test_wf_mftask_register_48 : (Instr.mftask ⟨false, 0, 1, 48⟩).wf = false := by decide
theorem test_wf_mttask_register_63 : (Instr.mttask ⟨false, 0, 63, 1, false⟩).wf = false := by decide
theorem test_wf_vector_compare_element_3 : (Instr.vicmpeq ⟨0, 3, 1, 2, 0, 1, 2⟩).wf = false := by decide
theorem test_wf_vector_compare_type_7 : (Instr.vfcmplt ⟨0, 0, 1, 2, 7, 1, 2⟩).wf = false := by decide
theorem test_wf_conversion_of_a_block_format : (Instr.vcvt ⟨3, 0, 0, 1, 2, false⟩).wf = false := by decide
theorem test_wf_conversion_mode_5 : (Instr.vcvts ⟨0, 10, 5, 1, 2, false⟩).wf = false := by decide
theorem test_wf_block_type_7 : (Instr.vbmax ⟨7, 1, 2, false⟩).wf = false := by decide
theorem test_wf_vbcvt_mode_6 : (Instr.vbcvt ⟨1, 6, 1, 2, 3, false, false⟩).wf = false := by decide
theorem test_wf_vdq_type_7 : (Instr.vdq ⟨7, 1, 2, 3, false, false⟩).wf = false := by decide
theorem test_wf_vqdual_source_45 : (Instr.vqdual ⟨0, 0, 0, 45, false⟩).wf = false := by decide
theorem test_wf_vqdual_destination_47 : (Instr.vqdual ⟨0, 0, 47, 0, false⟩).wf = false := by decide
theorem test_wf_tile_24 : (Instr.mstream ⟨false, 0, 24, 0, 0, 0⟩).wf = false := by decide
theorem test_wf_mdrain_all_with_a_block : (Instr.mdrain ⟨false, 0, 0, 0, 0, 1, true, false⟩).wf = false := by decide
theorem test_wf_mflg_destination_48 : (Instr.mflg ⟨false, 0, 0, 48⟩).wf = false := by decide
theorem test_wf_load_destination_56 : (Instr.ldw ⟨false, 0, 56, 0, 0⟩).wf = false := by decide
theorem test_wf_mesh_port_4 : (Instr.xsend ⟨false, 0, 1, false, 4, 0, 0⟩).wf = false := by decide
theorem test_wf_fabric_port_6 : (Instr.fsend ⟨false, 0, 1, false, 6, 0, 0⟩).wf = false := by decide
theorem test_wf_flits_past_the_register : (Instr.xrecv ⟨false, 0, 1, false, 0, 4, 4⟩).wf = false := by decide
theorem test_wf_accepts_the_discarded_destination : (Instr.ldw ⟨false, 0, 63, 0, 0⟩).wf = true := by decide

/-! ### Words written out from the formats of 04_core_encoding.md, from the most significant field down -/

/-- A word from its fields, most significant first: width and value (R87 to R97 number them so). -/
def word (l : List (Nat × Nat)) : W := BitVec.ofNat 32 (l.foldl (fun a x => a * 2 ^ x.1 + x.2) 0)

/-- Format R (R87): OP, GN, G, D, A, B, LA, LB, X.  IADD s5, s63, #3 and (p9) IADD s11, s10, #-7 stand in 04. -/
theorem test_decode_iadd :
    decodeSlot .s (word [(6, 0x01), (1, 0), (4, 9), (6, 11), (6, 10), (6, 57), (1, 0), (1, 0), (1, 1)]) =
      .ok (.iadd ⟨false, 9, 11, 10, 57, false, false, true⟩) := by decide
theorem test_decode_iadd_printed : decodeSlot .s 0x0402FE19#32 = .ok (.iadd ⟨false, 0, 5, 63, 3, false, false, true⟩) := by decide
/-- LB must be 0 with an immediate: ILLEGAL_SLOT. -/
theorem test_decode_iadd_lb_with_x :
    decodeSlot .s (word [(6, 0x01), (1, 0), (4, 0), (6, 11), (6, 10), (6, 57), (1, 0), (1, 1), (1, 1)]) =
      .error .illegalSlot := by decide
/-- Format P (R88): OP, G, P1, P2, CT, A, B: CMPLT of the S map. -/
theorem test_decode_cmplt :
    decodeSlot .s (word [(6, 0x22), (3, 1), (4, 8), (4, 9), (3, 6), (6, 1), (6, 2)]) = .ok (.cmplt ⟨1, 8, 9, 6, 1, 2⟩) := by
  decide
/-- Format VR (R89): OP, GS, D, A, B, LA, LB, and 0s; the words are those printed in 04. -/
theorem test_decode_vfma : decodeSlot .v 0x1D218212#32 = .ok (.vfmaF32 ⟨9, 3, 1, 2, false, true⟩) := by decide
theorem test_decode_vadd_bf16 : decodeSlot .v 0x080305F1#32 = .ok (.vaddBf16 ⟨0, 6, 2, 62, false, false⟩) := by decide
/-- Formats VC, VQ (R91, R92), as printed in 04. -/
theorem test_decode_vcvt : decodeSlot .v 0xA80A0382#32 = .ok (.vcvt ⟨0, 10, 0, 7, 1, false⟩) := by decide
theorem test_decode_vbmax : decodeSlot .v 0xB0808100#32 = .ok (.vbmax ⟨1, 2, 1, false⟩) := by decide
theorem test_decode_vbcvt : decodeSlot .v 0xB480C108#32 = .ok (.vbcvt ⟨1, 0, 3, 1, 2, false, false⟩) := by decide
theorem test_decode_vdq : decodeSlot .v 0xBC810308#32 = .ok (.vdq ⟨1, 4, 3, 2, false, false⟩) := by decide
/-- Format M (R93), as printed in 07. -/
theorem test_decode_mldw : decodeSlot .m 0x04000000#32 = .ok (.mldw ⟨false, 0, 0⟩) := by decide
theorem test_decode_msetp : decodeSlot .m 0x1C0003E0#32 = .ok (.msetp ⟨false, 0, 0, 0xF8, false⟩) := by decide
theorem test_decode_mswap : decodeSlot .m 0x0C000000#32 = .ok (.mswap ⟨false, 0⟩) := by decide
theorem test_decode_mstream : decodeSlot .m 0x10002004#32 = .ok (.mstream ⟨false, 0, 0, 1, 0, 1⟩) := by decide
theorem test_decode_mdrain : decodeSlot .m 0x20004000#32 = .ok (.mdrain ⟨false, 0, 0, 2, 0, 0, false, false⟩) := by decide
theorem test_decode_mflg : decodeSlot .m 0x24000040#32 = .ok (.mflg ⟨false, 0, 0, 4⟩) := by decide
/-- Format C0 (R94), as printed in 08: the offset counts elements. -/
theorem test_decode_stw : decodeSlot .c0 0x18008040#32 = .ok (.stw ⟨false, 0, 1, 0, 0x40⟩) := by decide
theorem test_decode_ldw : decodeSlot .c0 0x04018200#32 = .ok (.ldw ⟨false, 0, 3, 0, 0x200⟩) := by decide
/-- Format C1 (R95), as printed in 08, 13, 16 and 19. -/
theorem test_decode_cpyld : decodeSlot .c1 0x04000000#32 = .ok (.cpyld ⟨false, 0, 0⟩) := by decide
theorem test_decode_cpygo : decodeSlot .c1 0x08010000#32 = .ok (.cpygo ⟨false, 0, 2⟩) := by decide
theorem test_decode_tload : decodeSlot .c1 0x40010600#32 = .ok (.tload ⟨false, 0, 2, 3⟩) := by decide
theorem test_decode_grel : decodeSlot .c1 0x50020A30#32 = .ok (.grel ⟨false, 0, 4, 5, 6⟩) := by decide
theorem test_decode_fswap : decodeSlot .c1 0x54010602#32 = .ok (.fswap ⟨false, 0, 2, 3⟩) := by decide
theorem test_decode_nmcmp : decodeSlot .c1 0x58010604#32 = .ok (.nmcmp ⟨false, 0, 2, 3⟩) := by decide
theorem test_decode_bkalloc : decodeSlot .c1 0x60010600#32 = .ok (.bkalloc ⟨false, 0, 2, 3⟩) := by decide
theorem test_decode_cstat : decodeSlot .c1 0x88038000#32 = .ok (.cstat ⟨false, 0, 7⟩) := by decide
/-- Format X (R96), as printed in 19. -/
theorem test_decode_fsend : decodeSlot .x 0x1002A0E0#32 = .ok (.fsend ⟨false, 0, 5, false, 4, 0, 7⟩) := by decide
theorem test_decode_frecv : decodeSlot .x 0x1404E8E0#32 = .ok (.frecv ⟨false, 0, 9, true, 5, 0, 7⟩) := by decide
/-- The B forms (R97): BJ, BL, BI, BP. -/
theorem test_decode_br :
    decodeSlot .b (word [(6, 0x01), (1, 0), (4, 0), (21, 0x1FFFFE)]) = .ok (.br ⟨false, 0, 0x1FFFFE⟩) := by decide
theorem test_decode_loop : decodeSlot .b 0x18029001#32 = .ok (.loop ⟨false, 0, 5, 1, false, 1⟩) := by decide
theorem test_decode_linc : decodeSlot .b 0x1C00C004#32 = .ok (.linc ⟨false, 0, 1, true, 4⟩) := by decide
theorem test_decode_phase : decodeSlot .b 0x34000014#32 = .ok (.phase ⟨false, 0, 20⟩) := by decide
theorem test_decode_halt : decodeSlot .b 0x38000000#32 = .ok (.halt ⟨false, 0⟩) := by decide
/-- R83: opcode 0 with another bit set; R107: a word whose opcode no map holds. -/
theorem test_decode_opcode_0_with_a_bit : decodeSlot .m 1#32 = .error .illegalSlot := by decide
theorem test_decode_unassigned_opcode : decodeSlot .m 0xFC000000#32 = .error .illegalSlot := by decide

/-- R82: a header with a reserved bit is MALFORMED; R84: so is a bundle that reads code 62 without its literal. -/
theorem test_bundle_reserved_header_bit : decodeBundle (Spec.bytesOf [0x00000001]) = .error (.malformed, .s) := by decide
theorem test_bundle_missing_literal :
    decodeBundle (Spec.bytesOf [0x01000000, 0x0402FC19]) = .error (.malformed, .s) := by decide
/-- R82: the bundle of 04 with its literal; its size is 20 bytes. -/
theorem test_bundle_printed :
    ((decodeBundle (Spec.bytesOf [0x07880000, 0x0402020D, 0x1D218212, 0x080305F1, 0x3F803F80])).toOption.map fun x =>
      (x.1.slots.length, x.1.literal, x.1.header.dwell, x.1.header.size)) = some (3, some 0x3F803F80#32, 2#4, 20) := by decide
/-- The encoder writes the printed words. -/
theorem test_encode_vfma : encode (.vfmaF32 ⟨9, 3, 1, 2, false, true⟩) = some 0x1D218212#32 := by decide
theorem test_encode_frecv : encode (.frecv ⟨false, 0, 9, true, 5, 0, 7⟩) = some 0x1404E8E0#32 := by decide
theorem test_encode_event : encode .rollback = none := by decide

/-! ### Single steps on small states; expected values by hand from the rules named -/

/-- A bank with scalar registers. -/
def regs (l : List (Nat × W)) : Bank := { Bank.reset with s := l }

/-- A core whose bank 0 is given. -/
def coreOf (b : Bank) : Core := { Core.reset with bank0 := b, run := .issue }

/-- Core 0 executes in a slot at offset 0x40. -/
def at_ (slot : Nat) (c : Core) : State :=
  { State.reset with todo := [], cores := [(0, c)], ictx := { Ictx.reset with slot := slot, pc := 0x40, next := 0x44 } }

/-- The same in an exchange superstep. -/
def exchangeAt (slot : Nat) (c : Core) : State := { at_ slot c with dies := [(0, { Die.reset with phase := 1 })] }

/-- What an instruction has put on its way at core 0. -/
def onTheWay : Out → List (Nat × PendKind)
  | .next t => (t.core 0).pend.map fun e => (e.left, e.kind)
  | _ => []

/-- The cause of the trap an instruction raised. -/
def cause : Out → Option Nat
  | .next t => t.ictx.trap.map (·.code)
  | _ => none

/-- Core 0 afterwards. -/
def after (o : Out) : Option Core :=
  match o with
  | .next t => some (t.core 0)
  | _ => none

def s2 (a b : W) : State := at_ 0 (coreOf (regs [(1, a), (2, b)]))

/-- R117: sums modulo 2^32; latency 1. -/
theorem test_iadd_wraps :
    onTheWay (exec (.iadd ⟨false, 0, 4, 1, 2, false, false, false⟩) (s2 0xFFFFFFFF 2)) = [(1, .sres 4 1)] := by decide
/-- R64: the last-use bit of A releases s1; a source that is the destination. -/
theorem test_iadd_releases_and_overwrites :
    onTheWay (exec (.iadd ⟨false, 0, 1, 1, 2, true, false, false⟩) (s2 3 4)) = [(1, .sres 1 7), (0, .release 0 1)] := by decide
theorem test_isub_order :
    onTheWay (exec (.isub ⟨false, 0, 4, 1, 2, false, false, false⟩) (s2 3 5)) = [(1, .sres 4 0xFFFFFFFE)] := by decide
/-- R117: the signed product of -2 and 3 has high word -1, the unsigned one 2; latency 3. -/
theorem test_imulh_is_signed :
    onTheWay (exec (.imulh ⟨false, 0, 4, 1, 2, false, false, false⟩) (s2 0xFFFFFFFE 3)) = [(3, .sres 4 0xFFFFFFFF)] := by decide
theorem test_imulhu_is_unsigned :
    onTheWay (exec (.imulhu ⟨false, 0, 4, 1, 2, false, false, false⟩) (s2 0xFFFFFFFE 3)) = [(3, .sres 4 2)] := by decide
/-- R117: shift amounts are taken modulo 32. -/
theorem test_shl_by_33 :
    onTheWay (exec (.shl ⟨false, 0, 4, 1, 2, false, false, false⟩) (s2 3 33)) = [(1, .sres 4 6)] := by decide
theorem test_sra_fills_with_the_sign :
    onTheWay (exec (.sra ⟨false, 0, 4, 1, 2, false, false, false⟩) (s2 0x80000000 31)) = [(1, .sres 4 0xFFFFFFFF)] := by decide
theorem test_rotl_by_0 :
    onTheWay (exec (.rotl ⟨false, 0, 4, 1, 2, false, false, false⟩) (s2 0x80000001 32)) = [(1, .sres 4 0x80000001)] := by decide
theorem test_andn_complements_b :
    onTheWay (exec (.andn ⟨false, 0, 4, 1, 2, false, false, false⟩) (s2 0xFF 0x0F)) = [(1, .sres 4 0xF0)] := by decide
theorem test_iadds_saturates :
    onTheWay (exec (.iadds ⟨false, 0, 4, 1, 2, false, false, false⟩) (s2 0x7FFFFFFF 1)) = [(1, .sres 4 0x7FFFFFFF)] := by decide
theorem test_isubs_saturates :
    onTheWay (exec (.isubs ⟨false, 0, 4, 1, 2, false, false, false⟩) (s2 0x80000000 1)) = [(1, .sres 4 0x80000000)] := by decide
/-- An immediate is sign-extended from 6 bits: #57 is -7. -/
theorem test_immediate_is_signed :
    onTheWay (exec (.iadd ⟨false, 0, 4, 1, 57, false, false, true⟩) (s2 3 0)) = [(1, .sres 4 0xFFFFFFFC)] := by decide
theorem test_clz_of_0 : onTheWay (exec (.clz ⟨false, 0, 4, 2, false⟩) (s2 1 0)) = [(1, .sres 4 32)] := by decide
theorem test_shadd2_scales_b :
    onTheWay (exec (.shadd2 ⟨false, 0, 4, 1, 2, false, false, false⟩) (s2 1 5)) = [(1, .sres 4 21)] := by decide
/-- R88: type 0 writes the condition and its complement; -1 < 1 signed, not unsigned. -/
theorem test_cmplt_is_signed :
    onTheWay (exec (.cmplt ⟨0, 1, 2, 0, 1, 2⟩) (s2 0xFFFFFFFF 1)) = [(1, .preds [(1, true), (2, false)])] := by decide
theorem test_cmpltu_is_unsigned :
    onTheWay (exec (.cmpltu ⟨0, 1, 2, 0, 1, 2⟩) (s2 0xFFFFFFFF 1)) = [(1, .preds [(1, false), (2, true)])] := by decide
/-- R119: SEL under (!p0) takes B. -/
theorem test_sel_takes_b :
    onTheWay (exec (.sel ⟨true, 0, 4, 1, 2, false, false, false⟩) (s2 3 5)) = [(1, .sres 4 5)] := by decide
/-- R87: a guard (!p0) never runs, and the last-use bit still releases. -/
theorem test_false_guard_releases :
    onTheWay (exec (.iadd ⟨true, 0, 4, 1, 2, true, false, false⟩) (s2 3 5)) = [(0, .release 0 1)] := by decide
/-- R67: with BRB 3, MTB b6 writes physical base register 1. -/
theorem test_mtb_is_rotated :
    onTheWay (exec (.mtb ⟨false, 0, 6, 1, false⟩) (at_ 0 (coreOf { regs [(1, 0xFF800100)] with brb := 3 }))) =
      [(1, .base 1 0x100)] := by decide
/-- R75: bank 0 may not read the task's registers; R200: PRIV is 0x0003, CTL_VALUE 0x0010. -/
theorem test_mftask_in_bank_0 : cause (exec (.mftask ⟨false, 0, 4, 1⟩) (s2 0 0)) = some 0x0003 := by decide
theorem test_round_mode_5 : cause (exec (.mtc ⟨false, 0, 0x09, 1, false⟩) (s2 5 0)) = some 0x0010 := by decide
/-- R121: SWTRAP with argument 9. -/
theorem test_trapi : cause (exec (.trapi ⟨false, 0, 9⟩) (s2 0 0)) = some 0x0029 := by decide
/-- R115: BR by -2 words from 0x40; R123: CALL links the next bundle. -/
theorem test_br_backwards : (after (exec (.br ⟨false, 0, 0x1FFFFE⟩) (s2 0 0))).map (·.pc) = some 0x38 := by decide
theorem test_call_links : onTheWay (exec (.call ⟨false, 0, 2⟩) (s2 0 0)) = [(1, .reg 47 0x44)] := by decide
theorem test_bri_drops_the_low_bits :
    (after (exec (.bri ⟨false, 0, 1⟩) (s2 0xFC000127 0))).map (·.pc) = some 0x124 := by decide
/-- R128: a transfer while a loop is armed is LOOP_FORM. -/
theorem test_br_in_a_loop :
    cause (exec (.br ⟨false, 0, 2⟩) (at_ 7 (coreOf { Bank.reset with loop := { LoopRegs.reset with act := true } }))) =
      some 0x0018 := by decide
theorem test_linc_entry :
    (after (exec (.linc ⟨false, 0, 1, true, 4⟩) (at_ 7 (coreOf .reset)))).map (fun c => c.bank0.loop.linc) =
      some [(0, 0xC1000004)] := by decide
/-- R245: PHASE #1280 declares 1,280 cycles. -/
theorem test_phase_budget : (after (exec (.phase ⟨false, 0, 20⟩) (at_ 7 (coreOf .reset)))).map (·.run) = some (.phase 1280 false) := by
  decide
/-- R134: an arrival without its own bit in PART is BAR_MISMATCH. -/
theorem test_barr_mismatch : cause (exec (.barr ⟨false, 0, 3⟩) (at_ 7 (coreOf .reset))) = some 0x0019 := by decide

/-! Vector elements: FP32 1.0 + 1.0 = 2.0, BF16 halves, integer saturation (R142, R144). -/

def vres (f : VForm) (a b c : VReg) : VRes :=
  { unit := false, d := 3, mask := 1, form := f, a := a, b := b, c := c, e := 0, mode := .rne, push := true }

theorem test_vadd_f32 : lane (formV .reset (vres (.fbin .add .f32) 0x3F800000 0x3F800000 0)).1 0 = 0x40000000 := by decide
theorem test_vmul_bf16_both_halves :
    lane (formV .reset (vres (.fbin .mul .bf16) 0x40003F80 0x40403F80 0)).1 0 = 0x40C03F80 := by decide
theorem test_vfma_f32 : lane (formV .reset (vres (.fma .f32) 0x40000000 0x40400000 0x3F800000)).1 0 = 0x40E00000 := by decide
theorem test_viadd_i8_saturates : lane (formV .reset (vres (.iarith .add 8 true) 0x7F 0x01 0)).1 0 = 0x7F := by decide
theorem test_viadd_i8_wraps : lane (formV .reset (vres (.iarith .add 8 false) 0x7F 0x01 0)).1 0 = 0x80 := by decide

/-! Local memory (08_core_local_memory.md). -/

def loads : Core := { coreOf { regs [(1, 0x11223344)] with b := [(0, 0x100)] } with sp := [(0x100, 0x88), (0x101, 0xFF)] }

theorem test_ldw_is_little_endian : onTheWay (exec (.ldw ⟨false, 0, 4, 0, 0⟩) (at_ 4 loads)) = [(6, .reg 4 0xFF88)] := by decide
theorem test_ldh_extends_the_sign : onTheWay (exec (.ldh ⟨false, 0, 4, 0, 0⟩) (at_ 4 loads)) = [(6, .reg 4 0xFFFFFF88)] := by
  decide
theorem test_ldw_misaligned : cause (exec (.ldwReg ⟨false, 0, 4, 0, 63⟩) (at_ 4 { loads with bank0 := { loads.bank0 with b := [(0, 0x102)] } })) =
    some 0x0016 := by decide
theorem test_stw_sends_its_bytes :
    onTheWay (exec (.stw ⟨false, 0, 1, 0, 1⟩) (at_ 4 loads)) =
      [(2, .spw [(0x104, 0x44), (0x105, 0x33), (0x106, 0x22), (0x107, 0x11)])] := by decide
theorem test_stw_out_of_range :
    cause (exec (.stw ⟨false, 0, 1, 0, 0⟩) (at_ 4 { loads with bank0 := { loads.bank0 with b := [(0, 0x410000)] } })) =
      some 0x0015 := by decide
/-- R70: a ring whose pointers and wrap bits agree is empty; RING_EMPTY. -/
theorem test_qpop_of_an_empty_ring : cause (exec (.qpopV0 ⟨false, 0, 1, 0, true, 0⟩) (at_ 4 loads)) = some 0x0012 := by decide

/-! Visibility (R63, R66). -/

theorem test_result_visible :
    ((after (exec .resultVisible { at_ 0 { coreOf .reset with pend := [⟨0, false, false, .sres 4 9⟩] } with ev := evK .resultVisible 0 })).map
      fun c => (c.bank0.s, c.bank0.sn, c.pend)) = some ([(4, 9)], [(0, 9)], []) := by decide
theorem test_p0_stays_true :
    ((after (exec .resultVisible { at_ 0 { coreOf .reset with pend := [⟨0, false, false, .preds [(0, false), (3, true)]⟩] } with
      ev := evK .resultVisible 0 })).map fun c => (c.bank0.readP 0, c.bank0.readP 3)) = some (true, true) := by decide

/-! The matrix, column, far, mesh and collective forms where they trap (R244: PHASE_ILLEGAL; R191: COPY_DESC; R234: OPFMT). -/

theorem test_mstream_in_an_exchange_superstep :
    cause (exec (.mstream ⟨false, 0, 0, 0, 0, 0⟩) (exchangeAt 3 (coreOf .reset))) = some 0x0004 := by decide
theorem test_mswap_exchanges_the_planes :
    ((after (exec (.mswap ⟨false, 0⟩) (at_ 3 (coreOf .reset)))).map (·.act)) = some true := by decide
theorem test_cpygo_without_a_descriptor : cause (exec (.cpygo ⟨false, 0, 4⟩) (at_ 5 (coreOf .reset))) = some 0x0017 := by decide
theorem test_wbzero_reserved_select :
    cause (exec (.wbzero ⟨false, 0, 4, 1⟩) (at_ 5 (coreOf (regs [(1, 0xFFFFFFFF)])))) = some 0x0014 := by decide
theorem test_tload_in_a_compute_superstep : cause (exec (.tload ⟨false, 0, 4, 1⟩) (at_ 5 (coreOf .reset))) = some 0x0004 := by decide
/-- R268: ALIGN comes first. -/
theorem test_tload_misaligned_descriptor :
    cause (exec (.tload ⟨false, 0, 4, 1⟩) (exchangeAt 5 (coreOf (regs [(1, 2)])))) = some 0x0016 := by decide
theorem test_fstat_counts_requests : onTheWay (exec (.fstat ⟨false, 0, 7⟩) (at_ 5 (coreOf .reset))) = [(1, .reg 7 0)] := by decide
theorem test_xsend_in_a_compute_superstep :
    cause (exec (.xsend ⟨false, 0, 1, false, 0, 0, 0⟩) (at_ 6 (coreOf .reset))) = some 0x0004 := by decide

/-! The package (17_package_system.md R322, R326). -/

def event (e : Ev) : State := { State.reset with todo := [], ev := e }

theorem test_own_claim_lowest_agent_wins :
    (match exec .ownClaim (event ⟨.ownClaim, 0, 0, 0, 0b1010, false⟩) with
      | .next t => some ((t.pkg 0).ownerValid, (t.pkg 0).owner, (t.pkg 0).epoch, (t.pkg 0).deny)
      | _ => none) = some (true, 1#2, 1#16, 0b1000#4) := by decide
theorem test_write_by_another_agent_is_denied :
    (match exec .registerWrite (event ⟨.registerWrite, 0, 2, 0x38, 7, false⟩) with
      | .next t => some ((t.pkg 0).deny, (t.pkg 0).tcold)
      | _ => none) = some (0b0100#4, 0#16) := by decide

/-! A word placed for the next step (log 12) is what the step runs. -/

theorem test_step_runs_the_placed_word :
    (match step (State.reset.withFetchWord 32 0x0C000000) with
      | .next t => some ((t.core 0).act, (t.core 0).pc)
      | _ => none) = some (true, 8#26) := by decide

/-! ### States and operands that meet the hypotheses of the statements -/

/-- A core in bank 1. -/
def inBank1 (c : Core) : Core := { c with cur := true }

/-- The ring register of a ring at offset 0 with one slot of 16 KiB, of a format, empty or full (R68). -/
def ringReg (fmt : Nat) (isFull : Bool) : BitVec 128 := BitVec.ofNat 128 (127 * 2 ^ 32 + fmt * 2 ^ 59 + isFull.toNat * 2 ^ 88)

/-- An event at core, column, die or package k. -/
def eventAt (c : Core) (e : Ev) : State := { at_ 0 c with ev := e }

theorem witness_ComparesWriteTheirPredicates :
    (6#3).toNat ≤ 6 ∧ (∃ x, x ∈ Spec.compares) ∧ ∃ x, x ∈ Spec.vectorCompares :=
  ⟨by decide, ⟨_, .head _⟩, ⟨_, .head _⟩⟩

theorem witness_MovesFromSendTheirResult :
    let s := at_ 0 (inBank1 (coreOf .reset))
    s.guard false 0 = true ∧ s.cur.cur = true ∧ (47#6).toNat < 48 ∧ s.cur.bank0.releasedS (47#6).toNat = false := by decide

theorem witness_MovesToSendTheirWrite :
    let s := s2 4 0
    s.guard false 0 = true ∧ bank1Reg 0x09 = false ∧ s.cur.ctlForbidden 0x09 (s.rs 0 1) = false ∧
      (at_ 0 (inBank1 (coreOf .reset))).cur.cur = true := by decide

theorem witness_PrivilegedFormsTrapInBankZero :
    let s := s2 5 0
    s.cur.cur = false ∧ s.guard false 0 = true ∧ bank1Reg 0x11 = true ∧ bank1Reg 0x09 = false ∧
      s.cur.ctlForbidden 0x09 (s.rs 0 1) = true := by decide

theorem witness_TrapiAndRft :
    (s2 0 0).guard false 0 = true ∧ (s2 0 0).guard true 0 = false ∧ (s2 0 0).cur.cur = false ∧
      (at_ 0 (inBank1 (coreOf .reset))).cur.cur = true := by decide

theorem witness_TransfersGoToTheirTarget :
    (s2 0 0).cur.bank.loop.act = false ∧ (s2 0 0).guard false 0 = true ∧ (s2 0 0).guard true 0 = false := by decide

/-- A core with a code page of zeros, each word of which is a bundle without slots, and loop registers. -/
def looping (l : LoopRegs) (trip : W) : Core := { coreOf { regs [(1, trip)] with loop := l } with codeMap := [(0, 0x80000000)] }

theorem witness_LoopArmsTheEngine_trip_0 :
    let s := at_ 7 (looping .reset 0)
    s.cur.bank.loop.act = false ∧ s.guard false 0 = true ∧ (s.cur.skip s.cur.cur 2 s.ictx.next).toOption = some 0x4C ∧
      ¬ (s.cur.bank.loop.drn = true ∧ s.cur.bank.loop.lpc = s.ictx.pc) ∧ s.rs 0 1 = 0 := by decide
theorem witness_LoopArmsTheEngine_trip_1 :
    let s := at_ 7 (looping .reset 1)
    s.cur.bank.loop.act = false ∧ s.guard false 0 = true ∧ (s.cur.skip s.cur.cur 2 s.ictx.next).toOption = some 0x4C ∧
      ¬ (s.cur.bank.loop.drn = true ∧ s.cur.bank.loop.lpc = s.ictx.pc) ∧ s.rs 0 1 ≠ 0 := by decide
theorem witness_LoopArmsTheEngine_resumed :
    ∀ rem ∈ [0, 1],
    let s := at_ 7 (looping { LoopRegs.reset with drn := true, lpc := 0x40, rem := BitVec.ofNat 32 rem } 1)
    s.cur.bank.loop.act = false ∧ s.guard false 0 = true ∧ (s.cur.skip s.cur.cur 2 s.ictx.next).toOption = some 0x4C ∧
      (s.cur.bank.loop.drn = true ∧ s.cur.bank.loop.lpc = s.ictx.pc) ∧ (s.cur.bank.loop.rem = 0 ↔ rem = 0) := by decide

theorem witness_LincLexitRot :
    let s := at_ 7 (coreOf .reset)
    let t := at_ 7 (looping { LoopRegs.reset with act := true, len := 1, cnt := 1 } 1)
    (s.cur.bank.loop.act = false ∧ s.guard false 0 = true ∧ (sget 0 s.cur.bank.loop.linc 0).getLsbD 31 = false) ∧
    (let u := at_ 7 (looping { LoopRegs.reset with linc := (List.range 7).map fun n => (n, 0x80000000) } 1)
     (∀ m < 7, (sget 0 u.cur.bank.loop.linc m).getLsbD 31 = true) ∧ (sget 0 u.cur.bank.loop.linc 7).getLsbD 31 = false) ∧
    (t.cur.bank.loop.act = true ∧ t.guard false 0 = true ∧
      (t.cur.skip t.cur.cur (t.cur.bank.loop.len.toNat - t.cur.bank.loop.cnt) t.ictx.next).toOption = some 0x44) := by decide

theorem witness_LoopFormTraps :
    let s := at_ 7 (looping { LoopRegs.reset with linc := (List.range 8).map fun n => (n, 0x80000000) } 1)
    s.cur.cur = false ∧ s.cur.bank.loop.act = false ∧ s.guard false 0 = true ∧
      (∀ n < 8, (sget 0 s.cur.bank.loop.linc n).getLsbD 31 = true) ∧
      (at_ 7 (looping { LoopRegs.reset with act := true } 1)).cur.bank.loop.act = true := by decide

theorem witness_LoopBackAdvancesThePass :
    let more := eventAt (looping { LoopRegs.reset with act := true, trip := 2 } 2) (evK .loopBack 0)
    let last := eventAt (looping { LoopRegs.reset with act := true, trip := 1 } 1) (evK .loopBack 0)
    (more.ev.k = 0 ∧ more.cur.bank.loop.passNo + 1 < more.cur.bank.loop.trip.toNat + more.cur.bank.loop.nst.toNat) ∧
      last.cur.bank.loop.trip.toNat + last.cur.bank.loop.nst.toNat ≤ last.cur.bank.loop.passNo + 1 := by decide

/-- The four cores of column 0 with a barrier 3 of layers 0 and 1, at which layer 1 has arrived or not. -/
def barrierState (arr1 : BitVec 4) : State :=
  { at_ 7 { coreOf .reset with bars := [(3, ⟨false, 0, 3⟩)] } with
    cores := [(0, { coreOf .reset with bars := [(3, ⟨false, 0, 3⟩)] }), (128, { coreOf .reset with bars := [(3, ⟨false, arr1, 3⟩)] })] }

theorem witness_LoopBackAdvancesThePass_increments :
    let c := looping { LoopRegs.reset with act := true, trip := 2, linc := [(0, 0x83000004), (1, 0xC0003FFF)] } 2
    let named (r : Bool × Nat) : Bool := (List.range 8).any fun n =>
      (sget 0 c.bank.loop.linc n).getLsbD 31 && decide (Spec.lincNames c.nextRot.1 (sget 0 c.bank.loop.linc n) = r)
    named (false, 3) = true ∧ named (true, 0) = true ∧ c.bank.releasedS 3 = false ∧ Spec.lincSum c.bank.loop.linc 0 (false, 3) = 4 ∧
      Spec.lincSum c.bank.loop.linc 0 (true, 0) = 0xFFFFFFFF := by decide

theorem witness_BarrierArrival :
    ∀ a ∈ [0#4, 2#4], let s := barrierState a
    s.guard false 0 = true ∧ s.barMismatch 3 = false ∧ s.ictx.trap = none ∧ s.cur.barLog[s.cur.barPos]? = none ∧
      s.cur.barPos < 32 ∧ (s.cur.bar 3).arr.getLsbD (layerOf 0) = false ∧
      ((∀ y < 4, (s.cur.bar 3).part.getLsbD y = true → y ≠ layerOf 0 →
        ((s.core (coreIn (colOf 0) y)).bar 3).arr.getLsbD y = true) ↔ a = 2) := by decide
theorem witness_BarrierTraps :
    let s (part : BitVec 4) (own : BitVec 4) (n : Nat) : State :=
      { barrierState 0 with cores := [(0, { coreOf .reset with bars := [(3, ⟨false, own, part⟩)], barPos := n }),
                                      (128, { coreOf .reset with bars := [(3, ⟨false, 0, 3⟩)] })] }
    let same (s : State) : Bool := (s.cur.bar 3).part.getLsbD 0 && (List.range 4).all fun y =>
      !(s.cur.bar 3).part.getLsbD y || decide (((s.core (coreIn 0 y)).bar 3).part = (s.cur.bar 3).part)
    same (s 2 0 0) = false ∧ same (s 7 0 0) = false ∧ (same (s 3 1 0) = true ∧ ((s 3 1 0).cur.bar 3).arr.getLsbD 0 = true) ∧
      (same (s 3 2 32) = true ∧ ((s 3 2 32).cur.bar 3).arr.getLsbD 0 = false ∧ 32 ≤ (s 3 2 32).cur.barPos ∧
        (s 3 2 32).cur.barLog[(s 3 2 32).cur.barPos]? = none) ∧ (s 3 0 0).cur.cur = false ∧ (s 3 0 0).guard false 0 = true := by
  decide
theorem witness_BwaitWaitsForTheOwnArrival : (barrierState 0).guard false 0 = true := by decide

theorem witness_PhaseAndHaltEndTheSuperstep :
    let s := s2 65 0
    s.cur.bank.loop.act = false ∧ s.guard false 0 = true ∧ s.guard true 0 = false ∧ s.cur.cur = false ∧
      (at_ 7 (inBank1 (coreOf .reset))).cur.bank.loop.act = false := by decide

theorem witness_VectorLaneFormsSendTheirLanes :
    let s := at_ 1 (coreOf .reset)
    Spec.activeLanes s 0 = some (BitVec.allOnes 64) ∧ Spec.activeLanes s 0x11 = some 0 ∧
      Spec.activeLanes s 0x1F = some (BitVec.allOnes 64) ∧ Spec.activeLanes s 0x0F = none := by decide
theorem witness_FlagAndStatisticsForms :
    let s (n : Nat) := at_ 1 { coreOf .reset with undoCount := n }
    Spec.activeLanes (s 0) 0x10 = some (BitVec.allOnes 64) ∧ (s 65280).cur.undoCount + 256 ≤ 65536 ∧
      (s 65281).cur.cur = false ∧ 65536 < (s 65281).cur.undoCount + 256 := by decide
theorem witness_IntegerElementsWrapOrSaturate :
    (vres (.iarith .add 8 true) 0x7F 1 0).form = .iarith .add 8 true ∧ (8 = 8 ∨ 8 = 16 ∨ 8 = 32) := by decide
theorem witness_FloatElementsRoundOnce :
    (vres (.fbin .add .f32) 0x3F800000 0x3F800000 0).form = .fbin .add .f32 ∧ (vres (.fma .f16) 0 0 0).form = .fma .f16 := by decide
theorem witness_ReductionsAndFunctions :
    ∀ f ∈ [VForm.red .addF, .red .maxF, .red .minF, .red .addI, .red .maxI, .red .minI, .fn .exp2],
      (vres f 1 0 0).form = f ∧ Spec.active (vres f 1 0 0) ≠ [] := by decide
theorem witness_ConversionsAndBlocksEncode :
    ∀ f ∈ [VForm.cvt 0 1 0 0 true, .bmax 1, .bcvt 1, .dq 1, .qdual 2], (vres f 1 0 0).form = f := by decide

/-- Core 0 with one entry on its way, at the event that applies it. -/
def onePending (e : Pend) (i : Instr) : State := eventAt { coreOf .reset with pend := [e] } (evK i 0)

/-- The entries due at the event are those of a list, and none is a late read. -/
def dueAre (s : State) (l : List Pend) : Bool :=
  decide ((s.core s.ev.k).pend.filter Spec.isDue = l) && (s.core s.ev.k).pend.all fun x =>
    match x.kind with
    | .lateB _ _ _ _ => false
    | _ => true

theorem witness_ResultsBecomeVisible :
    ∀ x ∈ [PendKind.sres 47 9, .reg 48 9, .reg 55 9, .sres 56 9, .preds [(15, true), (0, true)], .preds [(8, true), (9, false)],
        .base 7 9, .qword 7 3 9, .qhead 7 1 true, .qtail 0 1 false, .rot 7 7, .loopPass 2 false 3, .vload false 47 1 9,
        .vload true 48 1 9, .vload true 63 0 9, .vpreds true [(7, 1, 1), (0, 1, 1)], .vres { vres .value 1 0 0 with d := 47 },
        .vres { vres (.qdual 2) 1 0 0 with d := 46 }, .ctl 0x08 1, .ctl 0x09 4, .ctl 0x0A 7, .ctl 0x10 3, .ctl 0x11 5, .ctl 0x12 5,
        .ctl 0x18 5, .ctl 0x1E 5, .ctl 0x23 5, .ctl 0x28 5, .ctl 0x2F 5, .ctl 0x1F 0, .statw [(0, 1), (16383, 2)], .stage 5],
      let s := onePending ⟨0, false, false, x⟩ .resultVisible
      s.ev.k = 0 ∧ dueAre s [⟨0, false, false, x⟩] = true := by decide
theorem witness_ResultsOfOneCycleAreOrdered :
    ∀ x ∈ [(PendKind.sres 47 9, PendKind.sres 47 8), (.sres 55 1, .sres 55 2), (.base 7 9, .base 7 8),
        (.preds [(15, true)], .preds [(15, false)]),
        (.vres { vres .value 1 0 0 with d := 48, unit := true }, .vres { vres .value 2 0 0 with d := 48 }),
        (.vres { vres .value 1 0 0 with d := 55 }, .vres { vres .value 2 0 0 with d := 55, unit := true }),
        (.vres (vres .value 1 0 0), .ctl 0x08 31), (.ctl 0x08 31, .vres (vres .value 1 0 0))],
      let p : Pend := ⟨0, false, false, x.1⟩
      let q : Pend := ⟨0, false, false, x.2⟩
      let s := eventAt { coreOf .reset with pend := [p, q] } (evK .resultVisible 0)
      s.ev.k = 0 ∧ dueAre s [p, q] = true := by decide
theorem witness_C0WritesAreApplied :
    ∀ x ∈ [PendKind.spw (placed 0x100 [1, 2]), .atom 0 0x100 4 9, .atom 2 0x100 4 9],
      let s := onePending ⟨0, false, false, x⟩ .c0WriteApplied
      s.ev.k = 0 ∧ (s.core 0).pend = [⟨0, false, false, x⟩] ∧ (s.core 0).rerun = none := by decide
theorem witness_LateReadsAndMulticastStores :
    ∀ x ∈ [PendKind.lateB (vres (.bcvt 1) 0 0 0) 47 0 false, .lateB (vres (.bcvt 1) 0 0 0) 62 0 false, .mcast 5 (placed 0x3F0000 [1])],
      let s := onePending ⟨0, false, false, x⟩ .vbcvtLateRead
      s.ev.k = 0 ∧ (s.core 0).pend = [⟨0, false, false, x⟩] := by decide

/-! The matrix slot. -/

/-- Core 0 in a compute superstep with ring q0 of a format, full or empty. -/
def ringCore (fmt : Nat) (isFull : Bool) : Core := coreOf { Bank.reset with q := [(0, ringReg fmt isFull)] }

theorem witness_MldwStartsALoad :
    ∀ x ∈ [(0, 0), (1, 1), (2, 10), (9, 14)], let s := at_ 3 (ringCore x.1 true)
    s.guard false 0 = true ∧ (s.ringHead 0).ok = true ∧ Spec.loadShape (s.ringHead 0).fmt (s.ringHead 0).slotsz = some x.2 ∧
      (s.ringHead 0).empty = false ∧ s.cur.planeLoads = 0 := by decide
theorem witness_MldwbAndMswap : (at_ 3 (coreOf .reset)).guard false 0 = true ∧ (at_ 3 (coreOf .reset)).cur.planeLoads = 0 := by
  decide
theorem witness_StreamsStart :
    let s := at_ 3 (ringCore 0 true)
    s.compute = true ∧ s.guard false 0 = true ∧ (s.ringHead 0).ok = true ∧ modeTakesStream 0 (s.ringHead 0).fmt = true ∧
      modeTakesWeight 0 (s.cur.pfmt s.cur.act).toNat = true ∧ 128 * (128 * storedBits (s.ringHead 0).fmt / 8) ≤ (s.ringHead 0).slotsz ∧
      (s.ringHead 0).empty = false ∧ s.cur.accTiles.length < 2 ∧ s.cur.feeding = none := by decide
theorem witness_StreamsStart_dual :
    let s := at_ 3 (ringCore 2 true)
    (s.ringHead 0).ok = true ∧ modeTakesStream 5 (s.ringHead 0).fmt = true ∧ modeTakesWeight 5 (s.cur.pfmt s.cur.act).toNat = true ∧
      128 * (256 * storedBits (s.ringHead 0).fmt / 8) ≤ (s.ringHead 0).slotsz := by decide
theorem witness_TileControlForms :
    let s := at_ 3 (coreOf .reset)
    s.compute = true ∧ s.guard false 0 = true ∧ s.cur.accTiles.length < 2 := by decide
theorem witness_MdrainStarts :
    let s := at_ 3 (ringCore 0 false)
    s.compute = true ∧ s.guard false 0 = true ∧ (s.ringTail 0).ok = true ∧ (s.ringTail 0).full = false ∧
      128 * (128 * storedBits (s.ringTail 0).fmt / 8) ≤ (s.ringTail 0).slotsz ∧ s.cur.accTiles.length < 2 := by decide
theorem witness_PhaseIllegalForms :
    (computeForm (.mclr ⟨false, 0, 0⟩) = true ∧ (exchangeAt 3 (coreOf .reset)).compute = false) ∧
      exchangeForm (.fsend ⟨false, 0, 0, false, 0, 0, 0⟩) = true ∧ (at_ 6 (coreOf .reset)).compute = true ∧
      (at_ 6 (coreOf .reset)).cur.cur = false := by decide

/-- A load from a ring slot, a stream with one vector begun, a tile operation and a drain, all numbered 7. -/
def load7 : Load :=
  { id := 7, issued := 0, wp := true, phys := 2, wfmt := 0, slot := none, base := 0, bw := 0, fmt := 0, te := 0, bank := none,
    rows := 0, beats := [] }
def stream7 (begun : Nat) : Stream :=
  { id := 7, issued := 0, tile := 0, plane := 0, wfmt := 15, mode := 0, back := false, n := 1, slot := ⟨false, 0, 0⟩, base := 0, bw := 0,
    fmt := 0, te := 0, point := 0, begun := begun, added := 0, retired := false, data := [⟨0, [], []⟩] }
def drain7 : Drain :=
  { id := 7, issued := 0, tile := 0, slot := ⟨false, 0, 0⟩, base := 0, bw := 0, fmt := 0, te := 0, mode := .rne, gens := [], point := 0,
    row0 := 0, rows := 16, clr := false, ovf := false, inx := false }
def matrixCore (begun : Nat) : Core :=
  { coreOf .reset with loads := [load7], streams := [stream7 begun], tileOps := [⟨7, 0, none⟩], drains := [drain7] }

theorem witness_MatrixEventsHaveTheirEffect :
    let s := eventAt (matrixCore 1) (evJ .planeRowWrite 0 7 127)
    let t := eventAt (matrixCore 0) (evJ .lineSumAdd 0 7 0)
    (s.core 0).loads.find? (fun x => x.id = s.ev.i) = some load7 ∧ load7.bank = none ∧ s.ev.j < 128 ∧
      (t.core 0).streams.find? (fun x => x.id = t.ev.i) = some (stream7 0) ∧
      (stream7 0).data.find? (fun x => x.v = t.ev.j) = some ⟨0, [], []⟩ ∧ (t.core 0).draining (t.clkOf 0) = false ∧
      (t.core 0).feeding = some (stream7 0) ∧ (s.core 0).tileOps.find? (fun x => x.id = s.ev.i) = some ⟨7, 0, none⟩ := by decide
theorem witness_MatrixEventsHaveTheirEffect_forms :
    let r := eventAt { matrixCore 0 with tileOps := [⟨7, 0, some (-8, 8)⟩] } (evI .tileOpComplete 0 7)
    let b := eventAt { matrixCore 0 with loads := [{ load7 with bank := some 3, beats := [[1]] }] } (evJ .planeRowWrite 0 7 0)
    (r.core 0).tileOps.find? (fun x => x.id = 7) = some ⟨7, 0, some (-8, 8)⟩ ∧ ((b.core 0).loads.find? (fun x => x.id = 7)).isSome = true ∧
      ((stream7 0).mode ≠ 3 ∧ (stream7 0).mode ≠ 4) ∧ ({ stream7 0 with mode := 3 } : Stream).mode = 3 := by decide
theorem witness_DrainEventsHaveTheirEffect :
    let s := eventAt (matrixCore 0) (evJ .drainRowWrite 0 7 15)
    (s.core s.ev.k).drains.find? (fun x => x.id = s.ev.i) = some drain7 ∧ s.ev.j < drain7.rows := by decide

/-! Local memory. -/

/-- Core 0 with base b0 and index register s1. -/
def based (b : BitVec 23) (i : W) : State := at_ 4 (coreOf { regs [(1, i)] with b := [(0, b)] })

theorem witness_LoadsAndStores :
    let s := based 0x3EFFFC 0x3EFFFC
    Spec.readable (0x3EFFFC : Int) 4 ∧ (0x3EFFFC : Nat) % 4 = 0 ∧ s.guard false 0 = true ∧ Spec.eaOff s 0 0 4 = (0x3EFFFC : Nat) ∧
      Spec.eaIdx (based 0 0x3EFFFC) 0 1 = (0x3EFFFC : Nat) ∧ s.cur.undoCount + 4 ≤ 65536 := by
  simp only [Spec.readable]; decide
theorem witness_VectorLoadsAndStores :
    let s := based 0x3FFF00 0
    Spec.readable (0x3FFF00 : Int) 256 ∧ (0x3FFF00 : Nat) % 4 = 0 ∧ s.guard false 0 = true ∧
      Spec.eaOff s 0 0 256 = (0x3FFF00 : Nat) ∧ Spec.eaIdx s 0 63 = (0x3FFF00 : Nat) ∧ s.cur.undoCount + 256 ≤ 65536 := by
  simp only [Spec.readable]; decide
theorem witness_GathersAndScatters :
    let s := based 0x100 0
    s.guard false 0 = true ∧ ∀ l < 64, ((s.cur.bank.readB (0#3).toNat).toNat : Int) + (lane (s.rv false 0 63) l).toInt = (0x100 : Nat) ∧
      (0 ≤ (0x100 : Int) ∧ (0x100 : Int) + 4 ≤ 0x3F0000) := by decide +kernel
theorem witness_RingPushAndPop :
    let s := at_ 4 (ringCore 0 false)
    let t := at_ 4 (ringCore 0 true)
    s.guard false 0 = true ∧ (s.ringTail 0).ok = true ∧ (s.ringTail 0).full = false ∧ 63 * 256 + 256 ≤ (s.ringTail 0).slotsz ∧
      (t.ringHead 0).ok = true ∧ (t.ringHead 0).empty = false ∧
      (((t.ringHead 0).slotAt (t.ringHead 0).head + 63 * 256 + 256 : Nat) : Int) ≤ 0x3F0000 := by decide
theorem witness_AccessesOutsideTheirRangeTrap :
    let s (a : W) := based 0 a
    (s 0).cur.cur = false ∧ (s 0).guard false 0 = true ∧ Spec.eaIdx (s 0x410000) 0 1 = 0x410000 ∧
      ¬ (0x410000 : Int) + 4 ≤ 0x410000 ∧ Spec.eaIdx (s 0xFFFFFFFF) 0 1 = -1 ∧ Spec.eaIdx (s 2) 0 1 = 2 ∧ (2 : Int) % 4 ≠ 0 ∧
      Spec.eaIdx (s 0x3EFFFE) 0 1 = 0x3EFFFE ∧ ¬ (0x3EFFFE : Int) + 4 ≤ 0x3F0000 ∧ ¬ (0x3F0000 : Int) ≤ 0x3EFFFE := by decide
theorem witness_AccessesOutsideTheirRangeTrap_budget :
    let s := at_ 4 { coreOf .reset with undoCount := 65533 }
    s.cur.cur = false ∧ Spec.eaIdx s 0 63 = 0 ∧ 65536 < s.cur.undoCount + 4 := by decide
/-- Lanes that read or write at these addresses, the last in every lane from 2 on. -/
def lanesAt (a b c : W) : VReg := ofLanes fun l => if l = 0 then a else if l = 1 then b else c
theorem witness_AccessesOutsideTheirRangeTrap_lanes_and_rings :
    let s (v : VReg) := at_ 4 { coreOf { Bank.reset with v0 := [(1, v)] } with undoCount := 65281 }
    let ea (v : VReg) (l : Nat) : Int := (((s v).cur.bank.readB 0).toNat : Int) + (lane ((s v).rv false 0 1) l).toInt
    ea (lanesAt 0 0x3EFFFE 0) 1 = 0x3EFFFE ∧ ea (lanesAt 2 0 0) 0 % 4 ≠ 0 ∧ ea (lanesAt 0 0 0x400000) 63 = 0x400000 ∧
      ea (lanesAt 0 0 4) 63 = 4 ∧ 65536 < (s 0).cur.undoCount + 256 ∧
      ((at_ 4 (ringCore 18 false)).ringTail 0).ok = false ∧ ((at_ 4 (ringCore 0 true)).ringTail 0).full = true ∧
      ((at_ 4 (ringCore 0 false)).ringHead 0).empty = true ∧ ¬ 64 * 256 + 256 ≤ ((at_ 4 (ringCore 0 false)).ringTail 0).slotsz := by
  decide +kernel
theorem witness_AliasStoresAreMulticast_scatter :
    let s := at_ 4 (coreOf { Bank.reset with v0 := [(1, lanesAt 0x400000 0x40FFFC 0x3EFFFC)] })
    let ea (l : Nat) : Int := ((s.cur.bank.readB 0).toNat : Int) + (lane (s.rv false 0 1) l).toInt
    s.cur.rerun = none ∧ s.cur.outPos = s.cur.outLog.length ∧ s.cur.outPos + 2 ≤ 256 ∧ ea 0 = 0x400000 ∧ ea 1 = 0x40FFFC ∧
      ea 63 = 0x3EFFFC ∧ s.cur.undoCount + 4 * 62 ≤ 65536 := by decide +kernel
theorem witness_AliasStoresAreMulticast :
    ∀ a ∈ [0x400000, 0x40FFFC], let s := based 0 (BitVec.ofNat 32 a)
    s.guard false 0 = true ∧ Spec.eaIdx s 0 1 = (a : Int) ∧ ((0x400000 : Int) ≤ a ∧ (a : Int) + 4 ≤ 0x410000) ∧
      a % 4 = 0 ∧ s.cur.rerun = none ∧ s.cur.outLog[s.cur.outPos]? = none ∧ s.cur.outPos < 256 ∧
      s.cur.outPos = s.cur.outLog.length := by decide

/-! Copies and the column. -/

/-- A copy descriptor in the scratchpad at 0: RUN in word 2, destination 0x10000 (word 1). -/
def copySp (run : Nat) : Memory := Memory.setNat (Memory.setNat [] 4 4 0x10000) 8 2 run
def copyBits (run : Nat) : BitVec 512 := BitVec.ofNat 512 ((copySp run).nat 0 64)
def copyState (run : Nat) (q : List Copy) : State :=
  at_ 5 { coreOf (regs [(2, 0x400000), (3, 1)]) with sp := copySp run, seq := { CopySeq.reset with staging := copyBits run, loaded := true, queue := q } }
def copy1 (run : Nat) : Copy := Spec.newCopy .local_ 1 (copyBits run) 0x10000 none 0

theorem witness_CopyForms :
    let s := copyState 0x3FF []
    s.guard false 0 = true ∧ s.cur.cur = false ∧ (s.rs 0 63).toNat % 64 = 0 ∧ (CopyDesc.ofBits (copyBits 0x3FF)).stageOk = true ∧
      (CopyDesc.ofBits 0).stageOk = false ∧ (s.rs 0 3).toNat % 64 ≠ 0 ∧ (s.rs 0 2).toNat % 64 = 0 ∧ 0x400000 < (s.rs 0 2).toNat + 64 ∧
      s.cur.seq.loaded = true ∧ (CopyDesc.ofBits s.cur.seq.staging).dring = false ∧ s.cur.seq.queue.length < 4 ∧
      4 ≤ (copyState 0x3FF (List.replicate 4 (copy1 1))).cur.seq.queue.length ∧ (at_ 5 (coreOf .reset)).cur.seq.loaded = false ∧
      (at_ 5 (inBank1 (coreOf .reset))).cur.cur = true := by decide +kernel

/-- A copy of 64 bytes from 0x100000 into ring q0 is staged (D.RING is bit 31 of word 2). -/
def ringCopyBits : Nat := 0x100000 + (0x3F + 2 ^ 31) * 2 ^ 64
def ringCopy (fmt : Nat) (isFull : Bool) : State :=
  at_ 5 { ringCore fmt isFull with seq := { CopySeq.reset with staging := BitVec.ofNat 512 ringCopyBits, loaded := true } }
theorem witness_CopyForms_ring :
    let d (s : State) := CopyDesc.ofBits s.cur.seq.staging
    let r (s : State) := s.ringTail (d s).dq
    let s := ringCopy 0 false
    (d s).dring = true ∧ (r s).ok = true ∧ (r s).full = false ∧ (r (ringCopy 0 true)).full = true ∧
      (let db := (r s).slotAt (r s).tail + (d s).dbase
       (r s).slotAt (r s).tail ≤ (d s).dstLo db ∧ (d s).dstHi db < (r s).slotAt (r s).tail + (r s).slotsz ∧
        ((d s).dstHi db < (d s).srcLo ∨ (d s).srcHi < (d s).dstLo db)) := by decide +kernel
theorem witness_CopyEventsHaveTheirEffect :
    let cp := copy1 0x3FF
    let s := { copyState 0x3FF [cp, cp] with ev := evB .copyBeat 0 0 false }
    let f := { copyState 0x3FF [{ cp with flight := [(2, 0x10000, [1], false)] }] with ev := evB .copyBeat 0 0 true }
    (s.core s.ev.k).seq.queue = [cp, cp] ∧ (s.core s.ev.k).seqStopped (s.clkOf 0) = false ∧ cp.started = none ∧ cp.kind = .local_ ∧
      cp.reading = true ∧ cp.step.reading = true ∧ s.ev.b = false ∧ f.ev.b = true ∧
      (f.core f.ev.k).seq.queue = [{ cp with flight := [(2, 0x10000, [1], false)] }] := by decide +kernel

theorem witness_BusAndBankForms :
    let s := copyState 0x3FF []
    let x := s.col (colOf 0)
    let d := CopyDesc.ofBits (copyBits 0x3FF)
    s.cur.rerun = none ∧ s.cur.outLog[s.cur.outPos]? = none ∧ s.cur.outPos < 256 ∧ s.guard false 0 = true ∧
      (s.descAt (s.rs 0 63).toNat).toOption = some (copyBits 0x3FF) ∧
      (d.busDest 0 (layerOf 0) (s.ringTail d.dq) x (s.rs 1 3)).toOption = some (.ss 1, 0x10000) ∧
      (d.busDest 1 (layerOf 0) (s.ringTail d.dq) x (s.rs 1 63)).toOption.isSome = true ∧ d.dring = false ∧ s.cur.cur = false ∧
      s.cur.seq.queue.length < 4 ∧ s.cur.seq.ticket < 2 ^ 24 - 1 ∧ x.select (s.rs 0 63) = some 0 ∧ x.select (s.rs 1 3) = some 4 ∧
      s.cur.bankOps < 4 ∧ (s.rs 0 63).toNat < 4096 := by decide +kernel
theorem witness_BusAndBankForms_lupd :
    let s := at_ 5 { coreOf .reset with sp := [(12, 127)], bankOps := 3 }
    let w (n : Nat) : W := BitVec.ofNat 32 (s.cur.sp.nat (0 + 4 * n) 4)
    (s.rs 0 63).toNat = 0 ∧ (s.col (colOf 0)).select (w 1) = some 0 ∧ (w 0).toNat % 128 = 0 ∧ ((w 0).toNat : Int) + 65536 ≤ 0x3F0000 ∧
      kappaOk (w 2) = true ∧ 1 ≤ (w 3).toNat ∧ (w 3).toNat ≤ 127 ∧ s.cur.bankOps < 4 := by decide +kernel

def busLoad7 : Load := { load7 with bank := some 0 }
theorem witness_BusEventsHaveTheirEffect :
    let cp := { copy1 0x3FF with kind := .ss 1, started := some 0 }
    let s := { copyState 0x3FF [cp] with ev := evK .busCopyRequest 0 }
    let t := eventAt { coreOf .reset with loads := [busLoad7], portBusy := true } (evB .busBeat 0 0 false)
    (s.core 0).seq.queue = [cp] ∧ (s.core 0).seqStopped (s.clkOf 0) = false ∧ cp.started.isSome = true ∧ cp.req = none ∧
      (s.core 0).portBusy = false ∧ (s.core 0).portFrom ≤ s.clkOf 0 ∧ (s.col 0).slotOwner (s.clkOf 0) = layerOf 0 ∧
      (s.col 0).blocked = false ∧ t.ev.b = false ∧ (t.core 0).portBusy = true ∧ (t.core 0).busLoad = some busLoad7 ∧
      busLoad7.bank = some 0 ∧ (t.col 0).badWords 0 128 = [] ∧ (t.col 0).spares.length < 8 ∧ (t.col 0).queue = [] ∧
      (t.col 0).repair = none := by decide +kernel

/-- A bank operation of core 0 at the head of column 0's queue. -/
def bankOpOf (kind : BankKind) (held : List (List Byte)) : BankOp :=
  { kind := kind, core := 0, layer := 0, enter := 0, a := 0, b := 4, gbase := 0, kappa := 0, dmax := 1, started := none, row := 0,
    beats := 0, grad := [], count := 0, first := none, nanSeen := false, held := held, late_ := false, owner := false }
def engineState (o : BankOp) (j : Nat) (b : Bool) : State :=
  { at_ 5 (coreOf .reset) with columns := [(0, { Column.reset with queue := [o], vbBank := 1 })],
                               ev := ⟨.bankOpStart, 0, 0, j, 0, b⟩ }

theorem witness_BankEngineEventsHaveTheirEffect :
    let h := List.replicate 128 (0 : Byte)
    let z := engineState (bankOpOf .zero []) 127 true
    let c := engineState (bankOpOf .copy [h]) 127 true
    let r := engineState (bankOpOf .copy []) 1 false
    (z.col 0).queue = [bankOpOf .zero []] ∧ z.ev.b = true ∧ (c.col 0).queue = [bankOpOf .copy [h]] ∧ c.ev.b = true ∧ h.length = 128 ∧
      (r.col 0).queue = [bankOpOf .copy []] ∧ r.ev.b = false ∧ 0 < r.ev.j ∧ (r.col 0).badWords 128 128 = [] ∧
      (r.col 0).slotOwner (r.die 0).clk = 4 ∧ (r.col 0).blocked = false ∧
      ((eventAt { coreOf .reset with fence := some 4 } (evK .wbfenceRelease 0)).core 0).fence = some 4 := by decide +kernel

/-! Traps, checkpoints and data errors. -/

def ckpt0 : Ckpt := Core.reset.snapshot
def trap0 : TrapInfo := ⟨0, 0x16, 0x40⟩

theorem witness_TrapsRollBackAndBankZeroResumes :
    let d := eventAt { coreOf .reset with ckpt := some ckpt0, run := .drain 0 (.trap trap0) } (evK .rollback 0)
    let r := eventAt { coreOf .reset with ckpt := some ckpt0, run := .rollback 32 (.trap trap0) } (evK .serviceHandlerEntry 0)
    let b := eventAt { inBank1 (coreOf .reset) with ckpt := some { ckpt0 with after := .issue }, run := .rftRun 0x43 } (evK .bank0Resume 0)
    (d.core 0).ckpt = some ckpt0 ∧ (d.core 0).run = .drain 0 (.trap trap0) ∧ (d.core 0).rerun = none ∧ (r.core 0).ckpt = some ckpt0 ∧
      (r.core 0).run = .rollback 32 (.trap trap0) ∧ (b.core 0).ckpt = some { ckpt0 with after := .issue } ∧
      (b.core 0).run = .rftRun 0x43 := by decide +kernel
theorem witness_BankZeroResumesFromItsCheckpoint_barrier :
    ∀ l ∈ [[(3, ⟨false, 1, 3⟩)], ([] : List (Nat × Bar))],
    let b := eventAt { inBank1 (coreOf .reset) with bars := l, ckpt := some { ckpt0 with after := .barWait 3 }, run := .rftRun 0x43 } (evK .bank0Resume 0)
    (b.core 0).ckpt.map (·.after) = some (.barWait 3) ∧ (b.core 0).run = .rftRun 0x43 ∧
      ((sget Bar.reset (b.core 0).bars 3).arr.getLsbD (layerOf 0) ↔ l ≠ []) := by decide
theorem witness_BankOneFaultsAbortTheTask :
    let s := { at_ 7 { inBank1 (coreOf .reset) with task := some 1 } with dies := [(0, { Die.reset with tasks := [benchTask] })] }
    s.cur.cur = true ∧ s.cur.task = some 1 ∧ (s.die 0).task 1 = some benchTask ∧ (s.die 0).log.length < 4096 ∧
      s.guard false 0 = true ∧ s.cur.bank.loop.act = false ∧ 0 ∈ s.taskCores 0 benchTask := by decide +kernel
theorem witness_CheckpointsRecordBankZero :
    let s := eventAt (coreOf .reset) (evK .checkpointCommit 0)
    (s.core 0).cur = false ∧ (s.core 0).rerun = none ∧ (s.core 0).run = .issue := by decide +kernel
theorem witness_DataErrorsRunTheIntervalTwice :
    let c := { coreOf .reset with task := some 1, ckpt := some ckpt0 }
    let e : RunEnd × Nat × BitVec 64 := (.commit, 5, 9)
    let r (l : List (RunEnd × Nat × BitVec 64)) : Rerun := ⟨5, 9, false, l⟩
    let s := eventAt c (evK .dataError 0)
    (s.core 0).task.isSome = true ∧ (s.core 0).ckpt.isSome = true ∧ (s.core 0).cur = false ∧ (s.core 0).rerun = none ∧
      (s.core 0).run = .issue ∧ ((eventAt { c with run := .drain 3 (.trap trap0) } (evK .dataError 0)).core 0).run = .drain 3 (.trap trap0) ∧
      ((eventAt { c with rerun := some (r []) } (evK .dataError 0)).core 0).rerun.isSome = true ∧
      ((eventAt (inBank1 c) (evK .dataError 0)).core 0).cur = true ∧ (r [e, e]).ends = [e, e] ∧
      e.1 = .commit ∧ (r [e, (.commit, 6, 9)]).ends = [e, (.commit, 6, 9)] ∧ e ≠ (.commit, 6, 9) := by decide +kernel
theorem witness_RetirementIsReported :
    (State.reset.core 5).task = none ∧ (State.reset.die 0).log.length < 4096 := by decide +kernel

/-- A task of one column of the grid and one code page, with the table entry of segment 0: V, PR, PW, PA, size 2 MiB. -/
def entry0 : DW := 0x9C00000000000000
def task1 : Task := { benchTask with table := [(0, entry0)], exchange := true }
def taskState (slot : Nat) (c : Core) : State :=
  { at_ slot { c with task := some 1 } with dies := [(0, { Die.reset with phase := 1, tasks := [task1] })] }

theorem witness_CodePagesLoad :
    let s (page frame : W) := taskState 5 (inBank1 { coreOf .reset with
      bank1 := regs [(1, page), (2, frame)], codeMap := [(3, 0x80000000)], loading := [7] })
    let size (t : State) := ((t.taskOf 0).map fun u => u.desc.codeSize).getD 0
    (s 0 0).cur.cur = true ∧ (s 0 0).guard false 0 = true ∧ ((s 0 60).rs 1 2).toNat = 60 ∧ size (s 1 0) ≤ ((s 1 0).rs 0 1).toNat * 4096 ∧
      ¬ size (s 0 59) ≤ ((s 0 59).rs 0 1).toNat * 4096 ∧ (s 0 59).cur.codeMap = [(3, 0x80000000)] ∧
      (0x80000000#32).getLsbD 31 = true ∧ (0x80000000#32).toNat % 16384 = 0 ∧ 7 ∈ (s 0 7).cur.loading ∧ 3 ∉ (s 0 3).cur.loading ∧
      (s 0 0).taskOf 0 = some task1 := by decide +kernel

/-! Supersteps, the mesh and the fabric. -/

theorem witness_SuperstepEventsHaveTheirEffect :
    let c : Core := { coreOf .reset with run := .phase 64 false }
    let s := { taskState 7 c with ev := evI .superstepStart 0 1 }
    let started : Task := { task1 with started := true }
    let t := { s with dies := [(0, { Die.reset with tasks := [started] })] }
    let u := { s with dies := [(0, { Die.reset with tasks := [{ started with stopped := some 64 }] })] }
    (s.core 0).run = .phase 64 false ∧ (State.reset.die 0).residents = [] ∧ (s.die 0).task 1 = some task1 ∧ task1.isResident = true ∧
      (s.die 0).holding = false ∧ (s.pkg 0).moves = [] ∧ (t.die 0).task 1 = some started ∧ started.stopped = none ∧
      t.taskArrived 0 started = false ∧ (s.die 0).log.length < 4096 ∧
      (u.die 0).task 1 = some { started with stopped := some 64 } := by decide +kernel

/-- Two cores of one layer in neighbouring places of a task of one by two columns; eight flits wait at the first's port to the
other. -/
def meshState : State :=
  let t : Task := { task1 with desc := { benchTask.desc with ny := 2 }, place := .resident [0, 1] }
  let fl : List Flit := List.replicate 8 ⟨1, false, 0, none⟩
  { at_ 6 (coreOf .reset) with
    dies := [(0, { Die.reset with phase := 1, tasks := [t] })]
    cores := [(0, { coreOf .reset with task := some 1, fifo := [(2, fl)] }), (1, { coreOf .reset with task := some 1, coord := 4 })] }

theorem witness_MeshFormsMoveFlits :
    let s := meshState
    s.compute = false ∧ s.cur.rerun = none ∧ s.cur.outLog[s.cur.outPos]? = none ∧ s.cur.outPos < 256 ∧ s.guard false 0 = true ∧
      (s.meshPeer 0 0 = none ∧ (s.meshPeer 0 2).isSome = true) ∧ s.sendWaits 0 2 8 = false ∧ s.takeWaits 0 2 8 = false ∧
      s.cur.undoCount + 32 * 8 ≤ 65536 := by decide +kernel

/-- The ports of a package in X, with links up. -/
def portsUp (p : Port) : List (Nat × Port) := [(0, { p with up := true }), (1, { Port.reset with up := true })]
/-- A pod of two packages in X, both ready, with their links up. -/
def podState (s : State) : State :=
  { s with dx := 2, pkgs := [0, 1].map fun p => (p, { Pkg.reset with ready := true, ports := portsUp .reset }) }

theorem witness_FabricFormsMoveFlits :
    let fl : List Flit := List.replicate 8 ⟨1, false, 0, some 9⟩
    let s := podState (taskState 6 { coreOf .reset with fifo := [(8, fl)] })
    s.compute = false ∧ s.cur.rerun = none ∧ s.cur.outLog[s.cur.outPos]? = none ∧ s.guard false 0 = true ∧
      s.nullPort 0 0 = false ∧ s.fsendWaits 0 0 8 = false ∧ s.frecvWaits 0 0 8 = false ∧ s.nullPort 0 2 = true := by decide +kernel
theorem witness_FlitEventsHaveTheirEffect :
    let x : LinkFlit := ⟨0, 0, 1, 0, [1]⟩
    let p : Port := { Port.reset with queue := [x], wire := [x] }
    let s := podState (taskState 6 (coreOf .reset))
    let t : State := { s with
      pkgs := [(0, { Pkg.reset with ports := portsUp p })], fab := 11
      ev := evI .fabricFlitDepart 0 0 }
    let back : State := { t with dx := 2, dies := [(2, { Die.reset with tasks := [task1] })], cores := [(1024, { Core.reset with task := some 1 })] }
    ((t.pkg 0).port 0).queue = [x] ∧ t.fab % 16 < 12 ∧ x.handed ≤ t.fab ∧ (t.pkg 0).inWindow t.fab = false ∧ t.nullPort 0 0 = false ∧
      ((back.pkg 0).port 0).wire = [x] ∧ back.portTo 0 0 = mkPkg 1 0 0 ∧
      ((back.pkg (back.portTo 0 0)).port (oppositePort 0)).spoil = false ∧
      ((eventAt { coreOf .reset with out := [(1, [⟨3, [1]⟩])] } ⟨.meshFlitArrive, 1, 0, 0, 1, false⟩).core 0).out = [(1, [⟨3, [1]⟩])] := by
  decide +kernel
theorem witness_LinkAndChannelEventsHaveTheirEffect :
    let m : Msg := { id := 3, src := 0, dst := 1, body := .beat 1, seen := false }
    let s (h : Nat) : State := { podState State.reset with msgs := [m], ev := ⟨.channelMessageReceive, 1, 3, h, 0, false⟩ }
    let bad : State := { s 1 with pkgs := [(0, { Pkg.reset with ready := true, ports := portsUp .reset }),
      (1, { Pkg.reset with ready := true, ports := [(1, { Port.reset with spoil := true })] })] }
    (s 0).msg 3 = some m ∧ ((s 0).path 0 1).length = 1 ∧ ((s 0).pkg 0).ready = true ∧ (s 0).nullPort 0 0 = false ∧
      (s 1).portTo 0 0 = 1 ∧ (((s 1).pkg 1).port 1).spoil = false ∧ (((s 1).pkg 1).port 1).unauth = false ∧
      ((s 1).pkg 1).ready = true ∧ m.seen = false ∧ ((bad.pkg 1).port 1).spoil = true ∧ bad.nullPort 0 0 = false := by decide +kernel

/-! Far memory. -/

/-- A far request of core 0 with everything but its kind at zero. -/
def farReq0 (kind : FarKind) : FarReq :=
  { id := 7, kind := kind, tag := 1, issued := 0, desc := 0, words := [], opnd := 0, slot := none, loc := 0, bw := 0, ent := 0,
    sent := 0, gent := 0, stage := .sent, orphan := false, pieces := [], code := 0, mis := false, count := 0, deliv := 0,
    first := none, old := 0, firstp := 0, nfin := 0, firstD := none, line := 0, waits := [], ncmd := 0, outcome := 0, refs := 0,
    blk := none, reason := 0, row := none, out := [], srcLeft := [], src := [] }
/-- Bit 48, the lowest of an entry's KEY field; bit 47, its TIER bit (R247). -/
def keyBit : Nat := 2 ^ 48
def tierBit : Nat := 2 ^ 47
/-- The box word of two packages in X at the pod's corner (R329). -/
def boxTwo : Nat := 2 ^ 9

/-- Core 0 issues a far form whose descriptor stands at 0 with these words. -/
def farForm (ws : List (Nat × Nat)) : State :=
  taskState 5 { coreOf .reset with sp := ws.foldl (fun m x => m.setNat (4 * x.1) 4 x.2) [] }

/-- What every accepted form asks for holds of these states (R244, R268, R270). -/
def ready (s : State) (n al : Nat) : Bool :=
  !s.compute && s.guard false 0 && decide (s.cur.farHeld < 768) && decide ((s.rs 0 63).toNat % al = 0) &&
    decide ((s.rs 0 63).toNat + 4 * n ≤ 0x400000) && s.cur.outLog[s.cur.outPos]?.isNone && decide (s.cur.outPos < 256)

theorem witness_FarFormsAreAccepted_tiles :
    let s := farForm [(5, 63), (8, 1), (9, 64)]
    let d := TileDesc.ofWords (Spec.words s 0 16)
    let r := taskState 5 { ringCore 0 false with sp := Memory.setNat [] 8 4 (2 ^ 31) }
    let e := TileDesc.ofWords (Spec.words r 0 16)
    ready s 16 64 = true ∧ d.dring = false ∧ d.bad false (s.ringTail d.dq).slotsz d.spoff (entKey entry0) = false ∧
      d.bad true (s.ringTail d.dq).slotsz d.spoff (entKey entry0) = false ∧ d.rows = 1 ∧ d.faddr = 0 ∧ d.span = 64 ∧ d.guard = 0 ∧
      sget 0 s.myTable 0 = entry0 ∧ entry0.getLsbD 63 = true ∧ entry0.getLsbD 60 = true ∧ entry0.getLsbD 59 = true ∧
      entry0.getLsbD 58 = true ∧ 64 ≤ 2 ^ (21 + (entry0.extractLsb' 54 4).toNat) ∧ entDup entry0 = false ∧
      (e.dring = true ∧ (r.ringTail e.dq).ok = true ∧ (r.ringTail e.dq).full = false ∧
        e.bad false (r.ringTail e.dq).slotsz (e.spoff + (r.ringTail e.dq).slotAt (r.ringTail e.dq).tail) (entKey entry0) = false) := by decide +kernel
theorem witness_FarFormsAreAccepted_guards_and_atomics :
    let s := farForm []
    let x := farForm [(2, 1)]
    let w := Spec.words s 0 12
    ready s 8 32 = true ∧ ready s 12 16 = true ∧ (w.getD 0 0).toNat % 64 = 0 ∧ (w.getD 1 0).toNat < 2 ^ 10 ∧ (w.getD 2 0).toNat < 2 ∧
      w.getD 6 0 = 0 ∧ w.getD 7 0 = 0 ∧ w.getD 2 0 = 0 ∧ (Spec.words x 0 8).getD 2 0 = 1 ∧ w.getD 9 0 = 0 ∧ w.getD 10 0 = 0 ∧
      w.getD 11 0 = 0 ∧ Spec.far (w.getD 0 0) (w.getD 1 0) = 0 := by decide +kernel
theorem witness_FarFormsAreAccepted_near :
    ∀ x ∈ [(FarKind.nmzero, 0), (.nmcopy, 4096), (.nmsadd, 4096), (.nmsgd, 4096), (.nmcmp, 4096)],
    let s := farForm [(2, x.2)]
    let d := NmDesc.ofWords (Spec.words s 0 16)
    ready s 16 64 = true ∧ d.bad x.1 = false ∧ d.misplaced x.1 s.myTable = false ∧
      (∀ r ∈ d.ranges x.1, r.va % 2 ^ 30 + r.len ≤ 2 ^ 21 ∧ r.va / 2 ^ 30 = 0) := by decide +kernel
theorem witness_FarFormsAreAccepted_blocks_and_tloadz :
    let s := { farForm [] with dies := [(0, { Die.reset with phase := 1, tasks := [{ task1 with desc := { benchTask.desc with bk := true } }] })] }
    let l := { farForm [(6, 65536)] with dies := s.dies }
    let z := farForm [(5, 1), (6, 2)]
    let zd := SloeDesc.ofWords (Spec.words z 0 16)
    ready s 16 64 = true ∧ (BkDesc.ofWords (Spec.words s 0 16)).bad .bkalloc (Spec.words s 0 16) 128 0 = false ∧
      ((s.taskOf 0).map fun u => u.desc.bk) = some true ∧
      (let d := BkDesc.ofWords (Spec.words l 0 16)
       d.len = 65536 → d.bad .bkload (Spec.words l 0 16) 128 0 = false) ∧
      ready z 16 64 = true ∧ zd.ntiles = 1 := by decide +kernel
theorem witness_FarFormsRefuseAndTrap :
    let s := farForm [(5, 63), (8, 1), (9, 64)]
    let unmapped := { s with dies := [(0, { Die.reset with phase := 1, tasks := [{ task1 with table := [] }] })] }
    let past := farForm [(0, 0x1FFFE0), (5, 63), (8, 1), (9, 64)]
    let noRead := { s with dies := [(0, { Die.reset with phase := 1, tasks := [{ task1 with table := [(0, 0x8C00000000000000)] }] })] }
    let bad := farForm [(15, 1)]
    let held := { s with cores := [(0, { (s.core 0) with far := List.replicate 768 (farReq0 .tload) })] }
    (TileDesc.ofWords (Spec.words bad 0 16)).bad false 128 0 0 = true ∧ (sget 0 unmapped.myTable 0).getLsbD 63 = false ∧
      (let d := TileDesc.ofWords (Spec.words past 0 16)
       d.bad false 128 0 0 = false ∧ 2 ^ 21 < d.faddr % 2 ^ 30 + d.span) ∧
      ((sget 0 noRead.myTable 0).getLsbD 63 = true ∧ (sget 0 noRead.myTable 0).getLsbD 60 = false) ∧ 768 ≤ held.cur.farHeld := by
  decide +kernel

/-! The events of far memory. -/

theorem witness_FarLinesReadBackAndGuardsAreTaken :
    (List.replicate 64 (0 : Byte)).length = 64 ∧ entKey entry0 = 0 ∧ entKey (entry0 ||| BitVec.ofNat 64 (keyBit)) ≠ 0 ∧
      entTier entry0 = false ∧ (64 : Nat) / 64 ≠ 0 / 64 ∧ (64 : Nat) / 2 ^ 30 = 0 / 2 ^ 30 ∧
      State.reset.lineAbsent entry0 0 = false ∧
      State.reset.lineAbsent (entry0 ||| 40000#64) 0 = true := by decide +kernel

/-- Core 0 with far requests, at an event of one. -/
def farEvents (l : List FarReq) (e : Ev) : State := { taskState 5 { coreOf .reset with far := l } with ev := e }
def farEvent (r : FarReq) (e : Ev) : State := farEvents [r] e
/-- The same with the line of an address of segment 0 marked poisoned. -/
def marked (s : State) (va : Nat) : State :=
  { s with pkgs := [(0, { Pkg.reset with hbmPoison := [(hbmKey entry0 (halfOf 0) va / 64, true)] })] }
/-- The same with the guard at address 0 of segment 0 held by core 0 exclusively. -/
def guarded (s : State) : State := s.writeGuard 0 entry0 (halfOf 0) 0 { Guard.ofBytes [] with mode := 2, owner := coreId 0 }

def piece0 : Piece := { line := 0, at_ := [(0, 0x100, 0)], idx := 0, data := [7], bad := false, stage := 0 }
def load0 : FarReq := { farReq0 .tload with pieces := [piece0], ent := entry0 }
def store0 : FarReq := { farReq0 .tstore with pieces := [piece0], ent := entry0, gent := entry0 }

theorem witness_TileTransferEventsHaveTheirEffect :
    let s (r : FarReq) (w : Nat) (b : Bool) := farEvent r ⟨.tileTransferComplete, 0, 7, 0, w, b⟩
    let none? (s : State) := (s.readLine (pkgOf 0) entry0 (halfOf 0) 0).isNone
    ((s load0 1 false).core 0).farReq 7 = some load0 ∧ load0.pieces[0]? = some piece0 ∧
      ((s load0 1 false).core 0).farBlocked 7 0 = false ∧ none? (s load0 1 false) = false ∧
      none? (marked (s load0 1 false) 0) = true ∧ ((marked (s load0 1 false) 0).core 0).farReq 7 = some load0 ∧
      ((marked (s store0 1 false) 0).core 0).farBlocked 7 0 = false ∧ none? (marked (s store0 1 false) 0) = true ∧
      piece0.at_.length ≤ piece0.data.length ∧ (piece0.at_.map (·.1)).Nodup ∧
      (((piece0.at_.zip piece0.data).map fun x => (x.1.1, x.2)).map (·.1)).eraseDups.length < 64 ∧
      load0.orphan = false ∧ piece0.bad = false ∧ store0.kind = .tstore ∧ store0.pieces = [piece0] ∧
      (let h : FarReq := { load0 with stage := .held }
       ((s h 0 false).core 0).farReq 7 = some h ∧ mustHold (((s h 0 false).core 0).far.takeWhile fun q => q.id ≠ 7) h.kind = false) := by
  decide +kernel
theorem witness_TileTransferEventsHaveTheirEffect_guard :
    let s := farEvent store0 ⟨.taggedStoreAtGuard, 0, 7, 0, 0, false⟩
    let g (s : State) := s.readGuard (pkgOf 0) entry0 (halfOf 0) 0
    (s.core 0).farBlocked 7 0 = false ∧ (TileDesc.ofWords store0.words).guard = 0 ∧ (g s).map (·.mode) = some 0 ∧
      (g (guarded s)).map (fun x => (x.mode, x.owner)) = some (2, coreId 0) ∧ (g (marked s 0)).isNone = true := by
  decide +kernel
theorem witness_TileTransferEventsHaveTheirEffect_behind :
    let a : FarReq := { farReq0 .tstore with id := 3, pieces := [piece0], ent := entry0, srcLeft := [4] }
    let s := podState (farEvents [a, load0] ⟨.remoteMemoryHop, 0, 7, 0, 0, false⟩)
    (s.core 0).farReq 7 = some load0 ∧ (s.core 0).farBlocked 7 0 = true ∧ s.mustFollow 0 load0 0 = true ∧
      (podState (farEvent load0 ⟨.remoteMemoryHop, 0, 7, 0, 0, false⟩)).mustFollow 0 load0 0 = false := by decide +kernel
/-- An entry of a segment of package 1, and of package 2 in X. -/
def entryOn (x : Nat) : DW := entry0 ||| BitVec.ofNat 64 (x * 2 ^ 34)
theorem witness_TileTransferEventsHaveTheirEffect_hops :
    let r : FarReq := { load0 with ent := entryOn 2 }
    let s : State := podState (farEvent r ⟨.remoteMemoryHop, 0, 7, 0, 1, false⟩)
    let far := { s with dx := 5 }
    let spoiled := { s with pkgs := [(0, { Pkg.reset with ports := portsUp .reset }), (1, { Pkg.reset with ports := [(1, { Port.reset with spoil := true })] })] }
    let copies := { s with pkgs := [(0, { Pkg.reset with ports := portsUp .reset }), (1, { Pkg.reset with ports := portsUp .reset, copying := some (0, s.deviceState 1) })] }
    let near : FarReq := { load0 with ent := entryOn 1 }
    r.target 0 = 2 ∧ (far.path 0 2).length = 2 ∧ far.nullPort 0 0 = false ∧ far.portTo 0 0 = 1 ∧
      ((far.pkg 1).port 1).spoil = false ∧ (farEvent r s.ev).nullPort 0 0 = true ∧ near.target 0 = 1 ∧ (s.path 0 1).length = 1 ∧
      ((spoiled.pkg 1).port 1).spoil = true ∧ spoiled.nullPort 0 0 = false ∧ (copies.pkg 1).copying.isSome = true ∧
      (s.pkg 1).copying.isNone = true := by decide +kernel
theorem witness_GuardAndAtomicEventsHaveTheirEffect :
    let r : FarReq := { farReq0 .gacq with gent := entry0, ent := entry0 }
    let s := farEvent r ⟨.gacqAtGuard, 0, 7, 0, 0, false⟩
    let a : FarReq := { farReq0 .fadd with id := 3, ent := entry0, words := List.replicate 12 0 }
    let behind := farEvents [a, { farReq0 .fadd with ent := entry0 }] s.ev
    (s.core 0).farReq 7 = some r ∧ (s.readGuard (pkgOf 0) r.gent (halfOf 0) 0).isSome = true ∧
      ((marked s 0).readGuard (pkgOf 0) r.gent (halfOf 0) 0).isNone = true ∧ r.kind = .gacq ∧ r.code < 16 ∧
      ((marked s 0).core 0).farBlocked 7 0 = false ∧ ((marked s 0).readLine (pkgOf 0) r.ent (halfOf 0) 0).isNone = true ∧
      ((s.core 0).farBlocked 7 0 = false ∧ ((s.readLine (pkgOf 0) r.ent (halfOf 0) 0).map (·.length)) = some 64) ∧
      (behind.core 0).farBlocked 7 0 = true ∧ (behind.core 0).farReq 7 = some { farReq0 .fadd with ent := entry0 } := by
  decide +kernel
theorem witness_NearMemoryEventsHaveTheirEffect :
    let r : FarReq := { farReq0 .nmcopy with ent := entry0, sent := entry0, words := (List.replicate 16 0).set 2 4096 }
    let s := farEvent r ⟨.nmLineStep, 0, 7, 0, 0, false⟩
    let q := { s with pkgs := [(0, { Pkg.reset with nmu := [(0, [(0, 7)])] })] }
    let f : FarReq := farReq0 .nmfence
    let g : FarReq := { r with words := (r.words.set 7 64) }
    let line? (s : State) (va : Nat) := (s.readLine (pkgOf 0) entry0 (halfOf 0) va).isSome
    let a : FarReq := { farReq0 .tstore with id := 3, pieces := [piece0], ent := entry0 }
    (s.core 0).farReq 7 = some r ∧ (s.core 0).farBlocked 7 0 = false ∧ (s.core 0).farBlocked 7 4096 = false ∧
      (NmDesc.ofWords r.words).src = 4096 ∧ (NmDesc.ofWords r.words).dst = 0 ∧ (NmDesc.ofWords r.words).guard = 0 ∧
      (NmDesc.ofWords g.words).guard ≠ 0 ∧ g.code ≠ 4 ∧
      (s.readGuard (pkgOf 0) entry0 (halfOf 0) (NmDesc.ofWords g.words).guard).isSome = true ∧
      line? s 0 = true ∧ line? s 4096 = true ∧ line? (marked s 4096) 4096 = false ∧ line? (marked s 0) 0 = false ∧
      ((farEvents [a, r] s.ev).core 0).farBlocked 7 0 = true ∧
      (sget [] (q.pkg (entPkg entry0)).nmu (entStack entry0)).length = 1 ∧ r.kind.isNm = true ∧ r.code < 16 ∧
      (f.waits = [] ∧ f.code ≠ 2 ∧ (coreOf .reset).statusPending f.id = false) := by decide +kernel
theorem witness_BlockAndSloeEventsHaveTheirEffect :
    let r : FarReq := { farReq0 .bkshare with words := (List.replicate 16 0).set 2 1 }
    let b : Bramble := { Bramble.reset with keys := [(0, some 5)], refs := [(5, 1)] }
    let s := { farEvent r ⟨.brambleDirectoryOp, 0, 7, 0, 1, false⟩ with pkgs := [(0, { Pkg.reset with bramble := b })] }
    let st : FarReq := { farReq0 .bkstore with pieces := [piece0], blk := some 5 }
    let ld : FarReq := { farReq0 .bkload with id := 8, pieces := [piece0], blk := some 5 }
    let both : Core := { coreOf .reset with far := [st, ld] }
    (s.core 0).farReq 7 = some r ∧ (∀ q ∈ (s.core 0).far, q.id < r.id → q.stage ≠ .sent ∧ q.stage ≠ .held) ∧
      sget none b.keys (BkDesc.ofWords r.words).key = some 5 ∧ sget none b.keys (BkDesc.ofWords r.words).key2 = none ∧ b.ref 5 < 65535 ∧
      b.keys.length < 4194304 ∧ both.farReq 7 = some st ∧ both.farReq 8 = some ld ∧ both.blockBusy st 0 = false ∧
      both.blockBusy ld 0 = true ∧ ({ both with far := [ld] } : Core).blockBusy ld 0 = false ∧
      st.pieces[0]? = some piece0 ∧ st.blk = some 5 ∧ sget false b.poison ((5 * 65536 + 0) / 64) = false ∧ (farReq0 .bkfree).pieces = [] ∧
      (sget 0 b.uses 6 = 0 ∧ b.ref 6 = 0) := by decide +kernel
theorem witness_BlockAndSloeEventsHaveTheirEffect_tile :
    let p : Piece := ⟨0, [], 0, [], false, 0⟩
    let z : FarReq := { farReq0 .tloadz with
      sent := entry0, ent := entry0, words := ((List.replicate 16 0).set 5 1).set 6 2, pieces := [p] }
    let s := farEvent z ⟨.tloadzComplete, 0, 7, 0, 1, false⟩
    let a : FarReq := { farReq0 .tstore with id := 3, pieces := [piece0], ent := entry0 }
    (s.core 0).farReq 7 = some z ∧ z.kind = .tloadz ∧ z.row = none ∧ z.code < 16 ∧ z.pieces[s.ev.j]? = some p ∧
      (s.core 0).farBlocked 7 p.line = false ∧ ((farEvents [a, z] s.ev).core 0).farBlocked 7 p.line = true := by decide +kernel

/-! Collectives. -/

/-- A collective descriptor: all-gather or all-reduce of 16 elements over two packages in X; input at 0x1000, output at 0x2000. -/
def collWords : List (Nat × Nat) := [(1, boxTwo), (2, 0x1000), (3, 0x2000), (4, 16)]
theorem witness_CollectiveFormsAreAccepted :
    let s := podState (farForm collWords)
    let w := Spec.words s 0 16
    let d := CollDesc.ofWords w
    ready s 16 64 = true ∧ d.count = 2 ∧ s.badGroup d 0 = false ∧ d.bad .ag (w.getD 5 0) (w.getD 6 0) ((s.rankOf d 0).getD 0) = false ∧
      s.cur.colls < 256 ∧ (CollDesc.ofWords (Spec.words s 0 2)).rsvd = false ∧ s.badGroup (CollDesc.ofWords (Spec.words s 0 2)) 0 = false := by
  decide +kernel
theorem witness_WireSumsDoNotDependOnOrder :
    let ps : Parts := [some ([1, 2], []), none]
    ps.length ≤ 8192 ∧ ps.Perm [none, some ([1, 2], [])] := ⟨by decide, List.Perm.swap _ _ _⟩
def grant0 (v : Option CollOutcome) (start : Nat) : Grant := { term := 1, csn := 0, start := start, void_ := v }
def coll0 (g : Option Grant) (l : Bool) : PkgColl :=
  { id := 2, core := 0, far := 7, tag := 1, ctag := 0, kind := .ag, words := (List.replicate 16 0).set 1 (BitVec.ofNat 32 boxTwo), issued := 0, grant := g,
    late_ := l, running := false, input := [], lost := [] }
/-- Core 0 with a collective at its package, at an event of it. -/
def collState (pc : PkgColl) (u : Medlar) (e : Ev) : State :=
  { podState (farEvent (farReq0 .coll) e) with pkgs := [(0, { Pkg.reset with ready := true, ports := portsUp .reset, medlar := u, colls := [pc] })] }

theorem witness_CollectiveEventsHaveTheirEffect :
    let r := farReq0 .coll
    let q : PrimReq := { pkg := 0, core := 0, far := 7, id := 0, kind := .ag, word1 := BitVec.ofNat 32 boxTwo, fields := [] }
    let m : Msg := { id := 3, src := 0, dst := 0, body := .request 1 0 q, seen := false }
    let s := { podState (farEvent r ⟨.collRequestAtPrimary, 0, 7, 0, 0, true⟩) with msgs := [m] }
    let t := { s with ev := ⟨.collRequestAtPrimary, 0, 3, 0, 0, false⟩, pkgs := [(0, { Pkg.reset with medlar := { Medlar.reset with primary := true } })] }
    (s.core 0).farReq s.ev.i = some r ∧ r.outcome ≠ 5 ∧ t.msg t.ev.i = some m ∧ (t.pkg 0).medlar.primary = true ∧
      (t.pkg 0).medlar.colls = [] ∧ (t.pkg 0).medlar.down = [] ∧
      1 < (CollDesc.ofWords ([0, q.word1, 0, 0] ++ q.fields)).count := by decide +kernel
theorem witness_CollectiveEventsHaveTheirEffect_grant :
    ∀ g ∈ [grant0 none 10, grant0 (some .cancelled) 10, grant0 none 0],
    let m : Msg := { id := 3, src := 0, dst := 0, body := .grant 0 7 2 g, seen := false }
    let s := { collState (coll0 none false) .reset ⟨.grantReceived, 0, 3, 0, 0, false⟩ with msgs := [m], fab := 5 }
    s.msg s.ev.i = some m ∧ (s.pkg 0).medlar.term ≤ g.term ∧ (s.pkg 0).coll 2 = some (coll0 none false) ∧
      (coll0 none false).running = false ∧ ({ (s.pkg 0).medlar with term := 0 } : Medlar).term < g.term := by decide +kernel
theorem witness_CollectiveEventsHaveTheirEffect_window :
    ∀ l ∈ [true, false],
    let pc := coll0 (some (grant0 none 10)) l
    let s := collState pc .reset ⟨.collectiveComplete, 0, 7, 2, 1, false⟩
    let st := collState pc .reset ⟨.collectiveStart, 0, 2, 1, 0, false⟩
    (s.core 0).farReq 7 = some (farReq0 .coll) ∧ (s.pkg 0).coll 2 = some pc ∧ pc.grant = some (grant0 none 10) ∧
      (st.pkg 0).coll st.ev.i = some pc ∧ (grant0 none 10).void_ = none ∧ (coll0 (some (grant0 (some .cancelled) 10)) l).grant.bind (·.void_) = some .cancelled ∧
      (farReq0 .coll).orphan = false ∧ (farReq0 .coll).code < 16 ∧
      ((s.pkg 0).colls.find? fun x => x.core = 0 ∧ x.far = 7) = some pc := by decide +kernel
theorem witness_SequencerEventsHaveTheirEffect :
    let r := farReq0 .ccancel
    let m : Msg := { id := 3, src := 0, dst := 0, body := .cancel 0 7 1 0 0, seen := false }
    let s := { farEvent r ⟨.cancelAtPrimary, 0, 7, 0, 1, true⟩ with msgs := [m] }
    let u : Medlar := { Medlar.reset with primary := true }
    let t := { podState s with pkgs := [(0, { Pkg.reset with ready := true, medlar := u })], ev := ⟨.cancelAtPrimary, 0, 3, 0, 0, false⟩ }
    let v : Medlar := { Medlar.reset with standby := true, lastBeat := some 0 }
    (s.core 0).farReq s.ev.i = some r ∧ s.ev.b = true ∧ s.ev.w = 1 ∧ t.msg t.ev.i = some m ∧
      (t.pkg 0).medlar.primary = true ∧ (t.pkg 0).medlar.colls = [] ∧ (t.pkg 0).medlar.awaiting = [] ∧ (t.pkg 0).ready = true ∧
      (Pkg.reset).ready = false ∧ t.ev.b = false ∧ (u.term ≤ 1 ∧ u.term < 2) ∧
      (v.standby = true ∧ v.primary = false ∧ ∀ f, v.lastBeat = some f → f + 64000 ≤ 64000) ∧
      ({ u with resumeBy := some 5 } : Medlar).resumeBy.isSome = true := by
  refine ⟨?_, ?_, ?_, ?_, ?_, ?_, ?_, ?_, ?_, ?_, ?_, ⟨?_, ?_, fun f h => ?_⟩, ?_⟩
  all_goals first | decide +kernel | exact (Option.some.inj h) ▸ Nat.le_refl _

/-! The package and its host. -/

theorem witness_OwnershipEventsHaveTheirEffect :
    let p : Pkg := { Pkg.reset with ownerValid := true, owner := 1, handover := some (2, 5) }
    let at_ (p : Pkg) (a j v : Nat) : State := { event ⟨.registerWrite, 0, a, j, v, false⟩ with pkgs := [(0, p)], fab := 640000000 }
    let own (s : State) := (s.pkg 0).ownerValid && decide ((s.pkg 0).owner.toNat = s.ev.i % 4)
    (∀ j ∈ [0x20, 0x24, 0x28, 0x38, 0x10008, 0x2007C, 0x14], own (at_ p 1 j 7) = true ∧ ((at_ p 1 j 7).pkg 0).recov = false) ∧
      own (at_ p 2 0x20 7) = false ∧ own (at_ { p with handover := none } 2 0x10 0) = false ∧ (Pkg.reset).ownerValid = false ∧
      (Pkg.reset).handover = none ∧ (BitVec.ofNat 32 (at_ p 1 0x18 16).ev.w).getLsbD 4 = true ∧
      ((BitVec.ofNat 4 0b1000).getLsbD 3 = true ∧ ∀ x < 3, (BitVec.ofNat 4 0b1000).getLsbD x = false) ∧
      ((at_ p 1 0 0).pkg 0).lastBeat + 640000000 ≤ (at_ p 1 0 0).fab ∧ p.handover = some (2, 5) ∧ 5 ≤ (at_ p 1 0 0).fab := by
  decide +kernel
theorem witness_HostCommandsHaveTheirEffect :
    let c (words : List W) : HostCmd := { slot := 0, agent := 1, words := words, acceptSeq := 3, waiting := false }
    let p (words : List W) : Pkg := { Pkg.reset with ownerValid := true, owner := 1, cmd := some (c words), host := [(0x100, 0)] }
    let s (words : List W) : State := { event (evK .submit 0) with
      pkgs := [(0, p words)], dies := [(0, { Die.reset with tasks := [{ task1 with place := .queued }] })] }
    ((s []).pkg 0).cmd = some (c []) ∧ (c []).waiting = false ∧ ((s []).pkg 0).duplicateOf (c []) = none ∧
      2 ≤ ((c [0, 0, 0, 2]).word 3).toNat ∧ ((c []).word 3).toNat < 2 ∧ ((c []).word 4).toNat < 16 ∧ ((s []).die 0).task 0 = none ∧
      (((s []).die 0).task ((c [0, 0, 0, 0, 1]).word 4)).isSome = true ∧ ({ task1 with place := .queued } : Task).isResident = false ∧
      (Pkg.reset).slot0 = none ∧ ((c []).word 4).toNat ≤ 976562 ∧ (c []).addr 3 % 64 = 0 ∧ (c []).addr 3 < 2 ^ 42 := by decide +kernel
theorem witness_PackageEventsHaveTheirEffect :
    let s := event ⟨.firmwareWrite, 0, 2, 0, 9, true⟩
    let both : Pkg := { Pkg.reset with fwA := none, fwB := none }
    s.canonical ∧ (s.pkg 0).fwA = some 0 ∧ (s.pkg 0).cmd = none ∧ both.fwA = none ∧ both.fwB = none ∧
      ({ both with recov := true } : Pkg).recov = true ∧ (s.ev.i = 2 ∨ s.ev.i = 3) ∧ s.ev.b = true ∧ s.ev.j ≠ 1 ∧
      (0 < (s.pkg 0).tierPorts ∧ (s.pkg 0).tierPorts ≤ 6) ∧
      ({ s.pkg 0 with copying := some (1, s.deviceState 0) } : Pkg).copying = some (1, s.deviceState 0) := by
  refine ⟨⟨?_, ?_, ?_, ?_⟩, ?_⟩ <;> decide +kernel
theorem witness_PackageEventsHaveTheirEffect_move :
    let tierEntry : DW := entry0 ||| BitVec.ofNat 64 tierBit
    ∀ m ∈ [({ id := 2, old := tierEntry, new := entry0 } : Move), { id := 2, old := entry0, new := tierEntry }],
    ∀ l ∈ [[], [task1]],
    let s : State := { event ⟨.segmentMoveComplete, 0, 2, 0, 0, false⟩ with
      pkgs := [(0, { Pkg.reset with moves := [m], copying := none })], dies := [(0, { Die.reset with phase := 1, tasks := l })] }
    s.canonical ∧ ((s.pkg 0).moves.find? fun m => m.id = s.ev.i) = some m ∧ (entTier m.old = true ∨ m.old.getLsbD 61 = false) ∧
      entDup m.new = false ∧ ((s.die 0).residents = [] ↔ l = []) ∧
      (s.pkg 0).hbm.wf = true ∧ (s.pkg 0).tier.wf = true := by
  intro _ m hm l hl
  simp only [List.mem_cons, List.not_mem_nil, or_false] at hm hl
  rcases hm with rfl | rfl <;> rcases hl with rfl | rfl <;> refine ⟨⟨?_, ?_, ?_, ?_⟩, ?_⟩ <;> decide +kernel

/-! Encoding, the step and the whole machine. -/

theorem witness_NopStandsInEverySlot :
    (1#32).extractLsb' 26 6 = 0#6 ∧ 1#32 ≠ 0#32 ∧ (decodeBundleWords 0x03000000 [0, 0]).toOption.isSome = true ∧
      (Header.ofWord 0x03000000).words - 1 ≤ [0#32, 0#32].length := by decide +kernel
theorem witness_BaseAndStageNamesAreRotated : (7 : Nat) < 8 ∧ 8 ≤ 15 ∧ (15 : Nat) < 16 ∧ (at_ 0 (coreOf .reset)).guard false 0 = true := by
  decide
theorem witness_RecoveryTakesSignedFirmwareOnly :
    let s : State := { event ⟨.ownClaim, 0, 3, 0, 0b1100, false⟩ with pkgs := [(0, { Pkg.reset with recov := true })] }
    (s.pkg 0).recov = true ∧ (s.ev.i = 2 ∨ s.ev.i = 3) ∧ s.ev.w % 4 = 0 ∧ s.ev.b = false ∧ (State.reset.pkg 0).recov = false := by
  decide +kernel
theorem witness_DecodeAndEncodeAgree :
    (Instr.iadd ⟨false, 15, 63, 63, 32, true, false, true⟩).wf = true ∧ opMap (.iadd ⟨false, 15, 63, 63, 32, true, false, true⟩) = some .s ∧
      decodeSlot .s (word [(6, 1), (1, 0), (4, 15), (6, 63), (6, 63), (6, 32), (1, 1), (1, 0), (1, 1)]) =
        .ok (.iadd ⟨false, 15, 63, 63, 32, true, false, true⟩) ∧ opMap .rollback = none ∧ Instr.rollback ≠ .nop := by decide +kernel

/-- The machine about to issue MSWAP at core 0. -/
def aboutToSwap : State := State.reset.withFetchWord 32 0x0C000000
theorem witness_AStepRunsTheDecodedInstruction :
    let s := aboutToSwap
    let c := s.core 0
    s.todo = [.issue 0] ∧ c.run = .issue ∧ c.bank.loop.act = false ∧ c.debugPend = false ∧
      (c.bundleBytes c.cur c.pc.toNat).isSome = true ∧
      (((c.bundleBytes c.cur c.pc.toNat).bind fun bs => (decodeBundle bs).toOption).map fun x => x.1.slots) =
        some [(.m, .mswap ⟨false, 0⟩)] ∧
      decodeTrap c.cur (s.die 0).compute [(.m, .mswap ⟨false, 0⟩)] = none ∧ State.reset.dx ≤ 32 ∧ State.reset.dy ≤ 16 ∧
      (State.reset.todo.head?).isSome = true := by decide +kernel
theorem witness_EveryStepKeepsTheCanonicalForm : aboutToSwap.canonical := by
  refine ⟨?_, ?_, ?_, ?_⟩ <;> decide +kernel
theorem witness_EveryStepKeepsTheLocalMemoriesCanonical : Spec.localMemories State.reset := fun k => by
  have h : (Core.reset.sp.wf = true ∧ Core.reset.imem.wf = true) := by decide +kernel
  exact h
theorem witness_AFalseGuardDoesNothing :
    let s := at_ 0 (inBank1 (coreOf .reset))
    (guardOf (.mttask ⟨true, 0, 1, 2, true⟩) = some (true, 0) ∧ s.guard true 0 = false ∧
      Spec.guardChooses (.mttask ⟨true, 0, 1, 2, true⟩) = false) ∧ Spec.reachesItsGuard s (.mttask ⟨true, 0, 1, 2, true⟩) := by
  simp only [Spec.reachesItsGuard]; decide
theorem witness_AFalseGuardDoesNothing_superstep_and_loop :
    Spec.reachesItsGuard (at_ 3 (coreOf .reset)) (.mclr ⟨true, 0, 1⟩) ∧
    Spec.reachesItsGuard (exchangeAt 6 (coreOf .reset)) (.nmfence ⟨true, 0, 1, 2⟩) ∧
    Spec.reachesItsGuard (at_ 7 (coreOf .reset)) (.ret ⟨true, 0⟩) ∧
    Spec.reachesItsGuard (at_ 7 (coreOf { Bank.reset with loop := { LoopRegs.reset with act := true } })) (.lexit ⟨true, 0⟩) := by
  simp only [Spec.reachesItsGuard]; decide
theorem witness_IssueChangesNoFileAndNoMemory :
    Spec.encoded (.stw ⟨false, 0, 1, 0, 0⟩) ∧ ∃ t, exec (.stw ⟨false, 0, 1, 0, 0⟩) (at_ 4 (coreOf .reset)) = .next t :=
  ⟨.inr ⟨.c0, rfl⟩, ⟨_, rfl⟩⟩

/-! ### Witnesses of the single clauses of the widened statements -/

/-! Reruns and retirement. -/

def taskCore : Core := { coreOf .reset with task := some 1, ckpt := some ckpt0 }
def ended0 : RunEnd × Nat × BitVec 64 := (.commit, 5, 9)
def rerun0 (l : List (RunEnd × Nat × BitVec 64)) : Rerun := ⟨5, 9, false, l⟩

theorem witness_DataErrorsRunTheIntervalTwice_of_bank_zero :
    let s := eventAt (inBank1 taskCore) (evB .dataError 0 0 true)
    let b := eventAt { taskCore with run := .rollback 9 (.trap trap0) } (evK .dataError 0)
    (s.core 0).task.isSome = true ∧ (s.core 0).ckpt.isSome = true ∧ (s.core 0).cur = true ∧ s.ev.b = true ∧
      (s.core 0).rerun = none ∧ (s.core 0).run = .issue ∧ (b.core 0).cur = false ∧ (b.core 0).rerun = none ∧
      (b.core 0).run = .rollback 9 (.trap trap0) := by decide +kernel
theorem witness_RerunsStartAndEnd :
    let at_ (r : Run) (l : Option Rerun) : State := eventAt { taskCore with run := r, rerun := l } (evK .rollback 0)
    (∀ x ∈ [(Run.drain 0 .dataError, none), (.drain 0 .rerunB, some (rerun0 [ended0])), (.drain 0 (.trap trap0), some (rerun0 [])),
        (.drain 0 (.trap trap0), some (rerun0 [ended0])), (.issue, some (rerun0 [])), (.issue, some (rerun0 [ended0])),
        (.rollback 9 .dataError, some (rerun0 []))],
      ((at_ x.1 x.2).core 0).ckpt = some ckpt0 ∧ ((at_ x.1 x.2).core 0).run = x.1 ∧ ((at_ x.1 x.2).core 0).rerun = x.2 ∧
        ((at_ x.1 x.2).core 0).cur = false ∧ ((at_ x.1 x.2).col 0).blocked = false) ∧
      (∀ n, ({ ckpt0 with after := .issue } : Ckpt).after ≠ .barWait n) ∧
      (({ at_ (.rollback 9 .dataError) none with columns := [(0, { Column.reset with fault := true })] } : State).col 0).blocked = true := by
  refine ⟨?_, ?_, ?_⟩
  · decide +kernel
  · intro n h; cases h
  · decide +kernel
theorem witness_RerunsAreCompared :
    let t : RunEnd × Nat × BitVec 64 := (.trap trap0, 5, 9)
    let s := eventAt { taskCore with rerun := some (rerun0 [t, t]), run := .rollback 9 (.trap trap0) } (evK .rerunCompare 0)
    (s.core 0).rerun = some (rerun0 [t, t]) ∧ (s.core 0).run = .rollback 9 (.trap trap0) ∧ (rerun0 [t, t]).ends = [t, t] ∧
      t.1 = .trap trap0 ∧ ({ rerun0 [ended0, ended0] with disagree := true } : Rerun).disagree = true ∧ ended0.1 = .commit ∧
      (rerun0 [ended0, t]).ends = [ended0, t] ∧ ended0 ≠ t := by decide +kernel
theorem witness_RetirementIsReported_of_a_task :
    let s : State := taskState 7 (coreOf .reset)
    (s.core 0).task = some 1 ∧ (s.die 0).task 1 = some task1 ∧ (s.die 0).log.length < 4096 ∧ 0 ∈ s.taskCores 0 task1 := by
  decide +kernel
theorem witness_CheckpointsRecordBankZero_halt :
    let s := eventAt { coreOf .reset with run := .halt false } (evB .checkpointCommit 0 0 true)
    (s.core 0).cur = false ∧ (s.core 0).rerun = none ∧ (s.core 0).run = .halt false ∧ s.ev.b = true := by decide +kernel

/-! The column and the mesh. -/

def columnState (sp : Memory) : State := at_ 5 { coreOf (regs [(2, 0x400000), (3, 1)]) with sp := sp }
def columnRing (isFull : Bool) : State := at_ 5 { ringCore 0 isFull with sp := Memory.setNat [] 8 4 (2 ^ 31) }
theorem witness_ColumnFormsTrap :
    let s := columnState []
    let d := CopyDesc.ofBits (BitVec.ofNat 512 (s.cur.sp.nat 0 64))
    let bad := columnState (Memory.setNat [] 20 4 0x10000)
    let ring (s : State) := CopyDesc.ofBits (BitVec.ofNat 512 (s.cur.sp.nat 0 64))
    s.cur.cur = false ∧ s.guard false 0 = true ∧ (s.rs 0 3).toNat % 64 ≠ 0 ∧
      ((s.rs 0 2).toNat % 64 = 0 ∧ 0x400000 < (s.rs 0 2).toNat + 64) ∧ (s.rs 0 63).toNat = 0 ∧ d.dring = false ∧
      (CopyDesc.ofBits (BitVec.ofNat 512 (bad.cur.sp.nat 0 64))).rsvd = true ∧ ¬ (s.rs 1 2).toNat < 4096 ∧
      ((at_ 5 (ringCore 18 true)).ringTail 0).ok = false ∧
      ((ring (columnRing true)).dring = true ∧ (ring (columnRing true)).dq = 0 ∧ ((columnRing true).ringTail 0).ok = true ∧
        ((columnRing true).ringTail 0).full = true ∧ ((columnRing false).ringTail 0).full = false) ∧
      (0 < d.srcHi + 1 ∧ 4096 ≤ (s.rs 0 2).toNat) ∧
      ((s.rs 0 3).toNat % 16 ≠ 0 ∧ (s.rs 0 2).toNat % 16 = 0 ∧ 0x400000 < (s.rs 0 2).toNat + 16) ∧
      (BitVec.ofNat 32 (s.cur.sp.nat (0 + 4 * 3) 4)).toNat = 0 := by decide +kernel
theorem witness_SuperstepEventsHaveTheirEffect_residue :
    let s : State := { meshState with ev := evK .phaseCounterAdvance 0 }
    let d := s.die 0
    let ks := (d.residents.map (s.taskCores 0)).flatten
    ks.Nodup ∧ 0 ∈ ks ∧ ((s.core 0).fifoOf 2).length = 8 ∧ d.log = [] ∧ d.residue = [] := by decide +kernel

/-! The traps and refusals of the far forms. -/

def farCore (ws : List (Nat × Nat)) : Core := { coreOf .reset with sp := ws.foldl (fun m x => m.setNat (4 * x.1) 4 x.2) [] }
def farHere (ws : List (Nat × Nat)) (e : Option DW) (held : Nat) : State :=
  { taskState 5 { farCore ws with far := List.replicate held (farReq0 .tload) } with
    dies := [(0, { Die.reset with phase := 1, tasks := [{ task1 with
      desc := { benchTask.desc with bk := decide (held ≠ 1) }, table := (e.map fun x => (0, x)).toList }] })] }
def dupEntry : DW := entry0 ||| 0x4000000000000000

theorem witness_FarDescriptorsAreInPlace :
    let s := taskState 5 (coreOf (regs [(2, 0x400000), (3, 1)]))
    let r (isFull : Bool) := taskState 5 { ringCore 0 isFull with sp := Memory.setNat (Memory.setNat [] 8 4 (2 ^ 31)) 16 12 (2 ^ 31 + 2 ^ 95) }
    s.compute = false ∧ s.cur.cur = false ∧ s.guard false 0 = true ∧
      (∀ x ∈ Spec.farForms, (s.rs 0 3).toNat % x.2.2 ≠ 0 ∧ (s.rs 0 2).toNat % x.2.2 = 0 ∧ 0x400000 < (s.rs 0 2).toNat + 4 * x.2.1) ∧
      (s.rs 0 3).toNat % 32 ≠ 0 ∧ (s.rs 0 2).toNat % 32 = 0 ∧ 0x400000 < (s.rs 0 2).toNat + 32 ∧
      (∀ f ∈ [true, false], let w := Spec.words (r f) 0 16
        (TileDesc.ofWords w).dring = true ∧ (BkDesc.ofWords w).dring = true ∧ (SloeDesc.ofWords w).dring = true ∧
          ((r f).ringTail (TileDesc.ofWords w).dq).ok = true ∧ ((r f).ringTail (TileDesc.ofWords w).dq).full = f) ∧
      ((at_ 5 (ringCore 18 true)).ringTail 0).ok = false := by decide +kernel
theorem witness_TileGuardAndAtomicFormsTrap :
    let s := farHere [(5, 63), (8, 1), (9, 64)] (some entry0) 0
    let w (s : State) := Spec.words s 0 16
    let d (s : State) := TileDesc.ofWords (w s)
    let bad (s : State) := (d s).bad true 128 (d s).spoff 0
    let past := farHere [(0, 0x1FFFE0), (5, 63), (8, 1), (9, 64)] (some entry0) 0
    let valid (s : State) := (sget 0 s.myTable 0).getLsbD 63
    s.compute = false ∧ s.cur.cur = false ∧ s.guard false 0 = true ∧ bad s = false ∧ (d s).rows ≠ 0 ∧ (d s).guard = 0 ∧
      bad (farHere [(15, 1)] (some entry0) 0) = true ∧ valid (farHere [] none 0) = false ∧
      (valid past = true ∧ bad past = false ∧ 2 ^ 21 < (d past).faddr % 2 ^ 30 + (d past).span) ∧
      (sget 0 (farHere [] (some 0x8000000000000000) 0).myTable 0).getLsbD 59 = false ∧
      entDup (sget 0 (farHere [] (some dupEntry) 0).myTable 0) = true ∧
      ((w (farHere [] none 0)).getD 6 0 = 0 ∧ (w (farHere [(6, 1)] none 0)).getD 6 0 ≠ 0) ∧
      ((w (farHere [(9, 1)] none 0)).getD 9 0 ≠ 0 ∧ (w (farHere [] none 0)).getD 9 0 = 0) := by decide +kernel
theorem witness_PackageMemoryAndCollectiveFormsTrap :
    let w (ws : List (Nat × Nat)) := Spec.words (farHere ws (some entry0) 0) 0 16
    let nm (ws : List (Nat × Nat)) := NmDesc.ofWords (w ws)
    let table (e : DW) : SMap DW := [(0, e)]
    (∀ x ∈ Spec.nearForms, (nm [(15, 1)]).bad x.2 = true) ∧
      (∀ x ∈ [(FarKind.nmzero, 0), (.nmcopy, 4096), (.nmsadd, 4096), (.nmsgd, 4096), (.nmcmp, 4096)],
        (nm [(2, x.2)]).bad x.1 = false ∧ (nm [(2, x.2)]).misplaced x.1 (table (entry0 ||| BitVec.ofNat 64 tierBit)) = true) ∧
      (∀ x ∈ Spec.blockForms, (BkDesc.ofWords (w [(7, 1)])).bad x.2 (w [(7, 1)]) 128 0 = true) ∧
      ((BkDesc.ofWords (w [])).bad .bkalloc (w []) 128 0 = false ∧ (BkDesc.ofWords (w [(5, 64)])).bad .bkload (w [(5, 64)]) 128 0 = false) ∧
      ((farHere [] none 1).taskOf 0).map (·.desc.bk) = some false ∧
      ((SloeDesc.ofWords (w [(15, 1)])).bad ((farHere [] none 0).ringTail 0) 0 0 = true ∧
        (SloeDesc.ofWords (w [(5, 1), (8, 2)])).bad ((farHere [] none 0).ringTail 0) 0 0 = false) ∧
      (∀ x ∈ Spec.collForms, (CollDesc.ofWords (w [(15, 1)])).bad x.2 0 0 0 = true) ∧
      ((CollDesc.ofWords (w [(2, 0x1000), (3, 0x2000), (4, 16)])).bad .ag 0 0 0 = false ∧
        (farHere [] none 0).badGroup (CollDesc.ofWords (w [(1, boxTwo), (2, 0x1000), (3, 0x2000), (4, 16)])) 0 = true) ∧
      (CollDesc.ofWords ((w [(1, 1)]).take 2)).rsvd = true ∧ (CollDesc.ofWords ((w [(1, boxTwo)]).take 2)).rsvd = false := by
  decide +kernel
theorem witness_FarFormsWithoutAnEntryAreRefused :
    let s (ws : List (Nat × Nat)) := farHere ws (some entry0) 768
    let tile := s [(5, 63), (8, 1), (9, 64)]
    let d := TileDesc.ofWords (Spec.words tile 0 16)
    let ok (s : State) := !s.compute && s.guard false 0 && decide (768 ≤ s.cur.farHeld) && s.cur.rerun.isNone &&
      s.cur.outLog[s.cur.outPos]?.isNone && decide (s.cur.outPos < 256)
    ok tile = true ∧ ok (s []) = true ∧ d.bad true 128 d.spoff 0 = false ∧ d.guard = 0 ∧ d.span = 64 ∧
      ((sget 0 tile.myTable 0 = entry0) ∧ ((tile.taskOf 0).map (·.desc.bk)) = some true) ∧
      ((Spec.words (s []) 0 8).all (· == 0)) = true ∧
      (SloeDesc.ofWords (Spec.words (s [(5, 1), (8, 2)]) 0 16)).bad ((s []).ringTail 0) 0 0 = false := by decide +kernel

/-! The events of far memory, clause by clause. -/

theorem witness_TileTransferEventsHaveTheirEffect_source :
    let r : FarReq := { store0 with srcLeft := [4], pieces := [piece0] }
    let s := farEvent r ⟨.tileTransferComplete, 0, 7, 4, 0, false⟩
    let l := farEvent { store0 with pieces := [{ piece0 with stage := 1 }] } ⟨.tileTransferComplete, 0, 7, 0, 1, false⟩
    (s.core 0).farReq 7 = some r ∧ s.ev.b = false ∧ s.ev.w = 0 ∧ (r.srcLeft.filter (· ≠ s.ev.j)) = [] ∧
      (l.core 0).farBlocked 7 0 = false ∧ (l.readLine (pkgOf 0) entry0 (halfOf 0) 0).isSome = true ∧
      (TileDesc.ofWords store0.words).guard = 0 ∧
      (∀ x ∈ ([{ piece0 with stage := 1 }] : List Piece).set 0 { piece0 with stage := 2 }, x.stage = 2) := by decide +kernel
theorem witness_NearMemoryEventsHaveTheirEffect_guard :
    let words : List W := ((List.replicate 16 0).set 2 4096).set 7 64
    let r : FarReq := { farReq0 .nmcopy with ent := entry0, sent := entry0, gent := entry0, words := words, stage := .sent }
    let a : FarReq := { farReq0 .grel with id := 3, gent := entry0, ent := entry0, words := (List.replicate 8 0).set 0 64 }
    let e : Ev := evI .nmCommandAtNmu 0 7
    let s := farEvent r e
    let held := s.writeGuard 0 entry0 (halfOf 0) 64 { Guard.ofBytes [] with mode := 2, owner := coreId 0 }
    let g (s : State) := s.readGuard (pkgOf 0) r.gent (halfOf 0) 64
    let queued := { s with pkgs := [(0, { Pkg.reset with nmu := [(0, [(3, 9)])] })] }
    (s.core 0).farReq 7 = some r ∧ r.stage ≠ .queued ∧ (NmDesc.ofWords r.words).guard = 64 ∧ (s.core 0).farBlocked 7 64 = false ∧
      ((farEvents [a, r] e).core 0).farBlocked 7 64 = true ∧ (∀ q ∈ (s.core 0).far, q.id < r.id → q.kind.isNm = true → q.stage ≠ .sent) ∧
      (g held).map (fun x => (x.mode, x.owner)) = some (2, coreId 0) ∧ (g s).map (·.mode) = some 0 ∧ sget [] (s.pkg (entPkg entry0)).nmu (entStack entry0) = [] ∧
      sget [] (queued.pkg (entPkg entry0)).nmu (entStack entry0) = [(3, 9)] ∧ (∀ x ∈ s.agenda, x.ev ≠ evI .nmLineStep 0 7) := by
  decide +kernel
theorem witness_NearMemoryEventsHaveTheirEffect_fence :
    let q : FarReq := { farReq0 .nmfence with id := 9, waits := [7] }
    let r : FarReq := { farReq0 .nmcopy with code := 2, count := 3 }
    let s := farEvents [r, q] (evB .nmCommandComplete 0 7 true)
    let f : FarReq := { farReq0 .nmfence with code := 2, count := 3 }
    (s.core 0).farReq 7 = some r ∧ s.ev.b = true ∧ r.kind.isNm = true ∧ r.orphan = false ∧ q ∈ (s.core 0).far ∧ q.id ≠ r.id ∧
      r.id ∈ q.waits ∧ (∀ n ∈ q.waits, n = r.id) ∧ f.waits = [] ∧ f.code = 2 := by decide +kernel

/-- Core 0 with block forms, at an event of one, and the block store of its package. -/
def blockState (l : List FarReq) (e : Ev) (b : Bramble) : State :=
  { farEvents l e with pkgs := [(0, { Pkg.reset with bramble := b })] }
def blockReq (kind : FarKind) : FarReq := { farReq0 kind with words := (List.replicate 16 0).set 2 1 }
def emptyStore : Bramble := { Bramble.reset with pool := [(0, 9)] }
def sharedStore (pool : Nat) : Bramble := { Bramble.reset with keys := [(0, some 5)], refs := [(5, 2)], pool := [(0, pool)] }

theorem witness_BlockDirectoryAnswers :
    let e : Ev := evI .brambleDirectoryOp 0 7
    let free (b : Bramble) (r : FarReq) := sget none b.keys (BkDesc.ofWords r.words).key
    let early : FarReq := { blockReq .bkxlat with id := 3 }
    (∀ k ∈ [FarKind.bkalloc, .bkxlat, .bkshare, .bkfree, .bkload, .bkstore],
      let s := blockState [blockReq k] e emptyStore
      (s.core 0).farReq 7 = some (blockReq k) ∧ (blockReq k).kind.isBk = true ∧ free emptyStore (blockReq k) = none ∧
        free (sharedStore 9) (blockReq k) = some 5 ∧
        (∀ q ∈ (s.core 0).far, q.id < 7 → q.kind.isBk = true → q.stage ≠ .sent ∧ q.stage ≠ .held)) ∧
      (∃ q ∈ ((blockState [early, blockReq .bkfree] e emptyStore).core 0).far, q.id < 7 ∧ q.kind.isBk = true ∧ q.stage = .sent) ∧
      (∀ x < 8, Bramble.reset.free x = 0) ∧ 0 < emptyStore.free 0 ∧ ¬ 4194304 ≤ emptyStore.keys.length := by decide +kernel
theorem witness_BlockDirectoryAnswers_shared :
    let b := sharedStore 9
    let st : FarReq := { blockReq .bkstore with id := 3, stage := .queued, blk := some 5, pieces := [piece0] }
    let c (l : List FarReq) : Core := { coreOf .reset with far := l }
    b.ref 5 = 2 ∧ (({ b with refs := [(5, 1)] } : Bramble).ref 5 = 1) ∧ sget none b.keys (BkDesc.ofWords (blockReq .bkshare).words).key2 = none ∧
      sget none ({ b with keys := [(0, some 5), (2 ^ 24, some 6)] } : Bramble).keys (BkDesc.ofWords (blockReq .bkshare).words).key2 = some 6 ∧
      65535 ≤ ({ b with refs := [(5, 65535)] } : Bramble).ref 5 ∧ (sharedStore 1).free 0 = 0 ∧ 0 < b.free 0 ∧
      (c [st, blockReq .bkstore]).storesTo (blockReq .bkstore) (some 5) = true ∧
      (c [blockReq .bkstore]).storesTo (blockReq .bkstore) (some 5) = false ∧
      (swf 0 b.refs = true ∧ swf 0#8 b.data = true ∧ swf false b.poison = true ∧ sget 0 b.pool 0 ≤ 976562) := by decide +kernel
theorem witness_BlockAccessesMoveTheirLines :
    let line (n : Nat) : Piece := { piece0 with data := List.replicate 64 7, stage := n }
    let st : FarReq := { blockReq .bkstore with stage := .queued, blk := some 5, pieces := [line 0], srcLeft := [4] }
    let ld : FarReq := { blockReq .bkload with stage := .queued, blk := some 5, pieces := [line 0] }
    let done : FarReq := { ld with pieces := [line 2] }
    let ev (j w : Nat) (b : Bool) : Ev := ⟨.brambleComplete, 0, 7, j, w, b⟩
    let zombie : Bramble := { sharedStore 9 with keys := [], refs := [], zombie := [5], uses := [(5, 1)] }
    ((blockState [st] (ev 4 0 false) (sharedStore 9)).core 0).farReq 7 = some st ∧ st.pieces[0]? = some (line 0) ∧
      ((blockState [ld] (ev 0 1 false) (sharedStore 9)).core 0).farReq 7 = some ld ∧
      ((blockState [st] (ev 0 1 false) (sharedStore 9)).core 0).blockBusy st 0 = false ∧
      ((blockState [{ st with id := 3 }, ld] (ev 0 1 false) (sharedStore 9)).core 0).blockBusy ld 0 = true ∧
      (∀ w ∈ [2, 3], (ev 0 w false).w ≥ 2) ∧ ld.orphan = false ∧ done.pieces ≠ [] ∧ done.blk = some 5 ∧
      ((blockState [done] (ev 0 3 true) zombie).core 0).farReq 7 = some done ∧ 5 ∈ zombie.zombie ∧
      (∀ i x, i ≠ 0 → ld.pieces[i]? = some x → x.stage = 2) ∧
      (sget 0 zombie.uses 5 = 1 ∧ zombie.ref 5 = 0) := by
  have one : ∀ (p : Piece) (i : Nat) (x : Piece), i ≠ 0 → [p][i]? = some x → x.stage = 2 := fun p i x h g => by
    cases i with
    | zero => exact absurd rfl h
    | succ n => exact absurd g (by simp)
  refine ⟨?_, ?_, ?_, ?_, ?_, ?_, ?_, ?_, ?_, ?_, ?_, one _, ?_⟩ <;> decide +kernel
theorem witness_BlockStoreStaysCanonical :
    Spec.blocksCanonical (sharedStore 9) ∧
      ∃ t, exec .blockReturnToPool (blockState [] (evI .blockReturnToPool 0 5) (sharedStore 9)) = .next t := by
  refine ⟨⟨by decide, by decide, by decide, fun x => ?_⟩, _, rfl⟩
  by_cases h : x = 0
  · subst h; decide
  · simp [sharedStore, sget, Ne.symm h]
theorem witness_TloadzEventsHaveTheirEffect :
    let first (v : Nat) (bad : Bool) : Piece := ⟨0, [], 0, bytesOfNat 8 v ++ List.replicate 56 0, bad, 2⟩
    let line (bad : Bool) : Piece := ⟨4096, [], 0, List.replicate 64 0, bad, 2⟩
    let z (ps : List Piece) : FarReq := { farReq0 .tloadz with
      sent := entry0, ent := entry0, words := ((List.replicate 16 0).set 2 4096).set 8 2, pieces := ps }
    (z [first 0 true]).sloeEntry = none ∧
      (∀ v ∈ [2 ^ 63, 2 ^ 60 + 2 ^ 61, 2 ^ 61, 2 ^ 60 + 64 * 2 ^ 40, 64 * 2 ^ 40, 2 ^ 40 - 1],
        (z [first v false]).sloeEntry = some v) ∧ entBytes entry0 < 4096 + (2 ^ 40 - 1) ∧
      (z [first (64 * 2 ^ 40) false]).sloeMore.length = 1 ∧ (z [first (2 ^ 61) false]).sloeMore = [] ∧
      (z [first (64 * 2 ^ 40) false, line true]).sloeRead.2 = 0 ∧
      (z [first (64 * 2 ^ 40) false, line false]).sloeRead.2 = 64 := by decide +kernel
theorem witness_SloeTilesDecodeTheirCanonicalCodes :
    let lens : List Nat := [1, 1] ++ List.replicate 14 0
    let xs := List.replicate 128 1
    lens.length = 16 ∧ (∀ n ∈ lens, n ≤ 12) ∧ ((lens.filter (· ≠ 0)).map fun n => 2 ^ (12 - n)).sum ≤ 4096 ∧
      (∀ x ∈ xs, x < 16 ∧ lens.getD x 0 ≠ 0) ∧ streamBits (List.replicate 16 0xFF) = (xs.map (Spec.sloeBits lens)).flatten ++ [] := by
  decide +kernel

/-! Collectives and the package. -/

theorem witness_RanksHaveTheirPlaces :
    let d := CollDesc.ofWords [0, BitVec.ofNat 32 boxTwo]
    let s := podState State.reset
    s.dx ≤ 32 ∧ s.dy ≤ 16 ∧ s.dz ≤ 16 ∧ d.nx ≤ s.dx ∧ d.ny ≤ s.dy ∧ d.nz ≤ s.dz ∧ 1 < d.nx ∧ 0 < d.ny ∧ 0 < d.nz := by
  decide +kernel
theorem witness_WireWordsAreConverted :
    let d (w5 : Nat) := CollDesc.ofWords [0, 0, 0, 0, 0, BitVec.ofNat 32 w5]
    (d (2 ^ 21)).win = true ∧ (d (2 ^ 20)).wout = true ∧ (d 0).wout = false ∧ (2 ^ 63 : BitVec 64).toInt = -(2 ^ 63) ∧
      (2 ^ 49 - 1 : Int) < (2 ^ 50 : BitVec 64).toInt ∧ (-(2 ^ 50) : BitVec 64).toInt < -(2 ^ 49 - 1) := by decide +kernel
theorem witness_CollectivesDeliverTheirResults :
    let d (w5 : Nat) := CollDesc.ofWords [0, BitVec.ofNat 32 boxTwo, 0, 0x2000, 16, BitVec.ofNat 32 w5]
    let ps : Parts := List.replicate 2 (some (List.replicate 64 0, [(0, 0)]))
    (∀ k ∈ [(CollKind.ar, 2 ^ 20, 128), (.rs, 2 ^ 20, 64), (.ag, 0, 32), (.bc, 0, 16)],
      ps.length = (d k.2.1).count ∧ (d k.2.1).count ≤ 8192 ∧ 1 < (d k.2.1).count ∧ (List.replicate k.2.2 (0 : Byte)).length = (d k.2.1).outBytes k.1) ∧
      0 < (d 0).n := by decide +kernel
theorem witness_LostFlitsPoisonWhatTheyCarried :
    let d := CollDesc.ofWords [0, BitVec.ofNat 32 boxTwo]
    let ps (l : List (Nat × Nat)) : Parts := [some ([], l), some ([], [])]
    let back : Parts := [some ([], []), some ([], [(3, 1)])]
    (ps []).length = d.count ∧ d.root < d.count ∧ 1 < d.count ∧ (∀ x ∈ ps [], ∃ bs, x = some (bs, [])) ∧
      (cameOver 0 (d.place 0) (d.place 1) = true ∧ (ps [(3, 0)]).lostAt 0 3 0 = true) ∧
      (onReturn (d.place 1) (d.place 1) = true ∧ returnPort (d.place 1) = some 1 ∧ back.lostAt 1 3 1 = true) ∧
      (∀ x < d.count, (ps []).getD x none ≠ none) ∧ ([none, some ([], [])] : Parts).getD 0 none = none := by
  refine ⟨?_, ?_, ?_, fun x h => ⟨[], by simpa using h⟩, ?_⟩ <;> decide +kernel
theorem witness_PackageEventsHaveTheirEffect_slow_and_dirty :
    let dirty : DW := entry0 ||| BitVec.ofNat 64 tierBit ||| 1#64 <<< 61
    let s : State := { event (evI .deviceCheckpointCommit 0 0) with
      dies := [(0, { Die.reset with phase := 1, slow := true, tasks := [{ task1 with table := [(0, dirty)] }] })]
      pkgs := [(0, { Pkg.reset with copying := some (1, State.reset.deviceState 0) })] }
    s.canonical ∧ (s.die 0).slow = true ∧ (entTier dirty = true ∧ dirty.getLsbD 61 = true) ∧ (s.pkg 0).copying.isSome = true ∧
      (s.die 0).residents ≠ [] := by
  refine ⟨⟨?_, ?_, ?_, ?_⟩, ?_⟩ <;> decide +kernel

/-! ### Witnesses of the statements and clauses added last -/

/-! Elements, operands, cells and blocks. -/

/-- Each branch of the encodings is met: a code, the largest, an infinity, a point of the grid, the ends of a log format. -/
theorem witness_ValuesAreEncodedOnce :
    fp16.encode .rne false 0 (.fin false 1 0 false) = (0x3C00, Flags.none) ∧
      fp16.encode .rne false 0 (.fin false 1 16 false) = (0x7C00, ⟨false, true, false, true, true⟩) ∧
      fp16.encode .rtz false 0 (.fin false 1 16 false) = (0x7BFF, ⟨false, true, false, true, false⟩) ∧
      e4m3.inf = none ∧ fp16.inf = some 0x7C00 ∧ encodeInt 8 .rne 0 (.fin true 5 (-1) false) = (-2, ⟨false, false, false, true, false⟩) ∧
      log8.encode 0 .rne 0 (.fin false 1 0 false) = (64, Flags.none) ∧ (log8.encode 0 .rne 0 (.fin true 1 40 false)).1 = 255 ∧
      log8.encode 0 .rup 0 (.fin false 1 (-40) false) = (1, ⟨false, false, true, true, false⟩) := by decide
theorem witness_OperandsCarryTheirScale :
    Spec.codeNumber 5 127 = none ∧ Spec.codeNumber 15 5 = some 5 ∧ ((4 : Nat) < 6 ∧ (6 : Nat) < 10) ∧
      (load7.wfmt < 10 ∧ storedBits load7.fmt = 8) ∧ (10 ≤ ({ load7 with wfmt := 10, fmt := 2 } : Load).wfmt ∧ storedBits 2 = 4) := by
  refine ⟨rfl, ?_, ?_, ?_, ?_⟩ <;> decide
theorem witness_CellsMultiplyAndLinesAdd :
    (Opd.log true 8 ≠ .zero ∧ Opd.nan ≠ .zero) ∧ Spec.operand (.num (.fin false 3 0 false)) = some 3 ∧
      (∀ na la nw lw, ¬ ((Opd.num (.fin false 3 0 false)) = .log na la ∧ Opd.log true 8 = .log nw lw)) ∧
      Spec.power 8 = 2 := by
  refine ⟨by decide, ?_, (fun _ _ _ _ h => by cases h.1), ?_⟩
  · norm_num [Spec.operand, Spec.real, Spec.exactly]
  · norm_num [Spec.power, Spec.exactly]
/-- A run of an only element 1 and zeros: the greatest exponent is 0. -/
theorem witness_BlocksAndRowsAreEncoded :
    let xs : List XVal := .fin false 1 0 false :: List.replicate 15 (.zero false)
    xs.length = 16 ∧ Spec.proper (.fin false 1 0 false) 1 ∧ Spec.proper (.zero false) 0 ∧
      (selectBlock .b4i 0 xs).1 = 7678 ∧ ((List.replicate 8 0).length % 8 = 0) ∧ (-(2 ^ 63) : Int) ≤ 0 := by
  refine ⟨by decide, ⟨?_, ?_⟩, ⟨rfl, ?_⟩, by decide, by decide, by decide⟩
  · norm_num [Spec.real, Spec.exactly]
  · rintro _ _ _ _ h; cases h; decide
  · rintro _ _ _ _ h; cases h

/-! Barriers, banks and copies. -/

theorem witness_LoggedArrivalsAreCheckedAndNotMadeAgain :
    ∀ l ∈ [[3], [3, 3], [5]], ∀ r ∈ [none, some (rerun0 [])],
    let b := barrierState 2
    let s : State := { b with cores := b.cores.map fun x => (x.1, { x.2 with barLog := l, rerun := r }) }
    s.guard false 0 = true ∧ s.barMismatch 3 = false ∧ s.ictx.trap = none ∧ s.cur.cur = false ∧ s.cur.retired = false ∧
      s.cur.barLog[s.cur.barPos]? = some (l.headD 0) ∧ s.cur.rerun = r := by decide
theorem witness_BankOperationsTakeARowACycle :
    ∀ k ∈ [BankKind.zero, .copy, .cmp, .lupd], ∀ j ∈ [0, 1, 127],
    let o := bankOpOf k []
    let s := engineState o j false
    (s.col 0).queue = o :: [] ∧ s.ev.b = false ∧ o.started = none ∧ o.enter ≤ (s.die 0).clk ∧ (s.col 0).engineFree ≤ (s.die 0).clk ∧
      ¬ ({ o with enter := 1 } : BankOp).enter ≤ (s.die 0).clk ∧ (s.col 0).badWords (128 * j) 128 = [] ∧
      (s.col 0).badWords (16384 * 4 + 128 * j) 128 = [] := by decide +kernel
theorem witness_LogUpdatesFollowTheirRule :
    let o : BankOp := { bankOpOf .lupd [] with grad := Memory.setNat (Memory.setNat [] 0 4 0x7F800000) 4 4 0x7FC00000 }
    let row : List Byte := [1, 130, 0, 127] ++ List.replicate 124 255
    row.length = 128 ∧ 0 < o.dmax ∧ o.dmax < 128 ∧ Spec.real (fp32.decode o.kappa.toNat) = some 0 ∧
      fp32.decode (o.grad.nat 0 4) = .inf false ∧ fp32.decode (o.grad.nat 4 4) = .nan ∧
      Spec.real (fp32.decode (o.grad.nat 8 4)) = some 0 ∧ (row.getD 2 0).toNat % 128 = 0 ∧ 128 ≤ (row.getD 1 0).toNat := by
  refine ⟨by decide, by decide, by decide, rfl, by decide, by decide, rfl, by decide, by decide⟩
theorem witness_BusCopiesMoveTheirBeats :
    ∀ kind ∈ [CopyKind.ss 1, .bs 0, .sb 0],
    let cp := { copy1 0x3FF with kind := kind, started := some 0, req := some 0 }
    let s : State := { copyState 0x3FF [] with ev := evB .busBeat 0 0 false }
    let t (cp : Copy) (f : Bool) : State := { s with
      cores := [(0, { s.core 0 with portBusy := true, seq := { (s.core 0).seq with queue := [cp] } })]
      columns := [(0, { Column.reset with fault := f })] }
    let u := t cp false
    (u.core 0).seq.queue = cp :: [] ∧ u.ev.b = false ∧ (u.core 0).portBusy = true ∧ (u.col 0).slotOwner (u.clkOf 0) = layerOf 0 ∧
      ((t cp true).col 0).blocked = true ∧ (u.col 0).blocked = false ∧ (u.core 0).busLoad = none ∧ (u.core 0).seqStopped 0 = false ∧
      cp.req.isSome = true ∧ cp.reading = true ∧ ({ cp with reading := false } : Copy).reading = false ∧
      128 * (Spec.runAt cp.db (CopyDesc.ofBits cp.desc).cnt (CopyDesc.ofBits cp.desc).dstr cp.run / 128 + cp.beat) <
        Spec.runAt cp.db (CopyDesc.ofBits cp.desc).cnt (CopyDesc.ofBits cp.desc).dstr cp.run + (CopyDesc.ofBits cp.desc).run + 1 ∧
      ({ cp with flight := [(2, 0x10000, [1], false)] } : Copy).flight = (2, 0x10000, [1], false) :: [] := by decide +kernel
/-- VBCPY into a ring, and with four copies queued, and in bank 1; an LUPD with four operations accepted. -/
theorem witness_BusAndBankForms_ring_and_full :
    let s (full : Bool) : State := columnRing full
    let d := CopyDesc.ofBits (BitVec.ofNat 512 ((s false).cur.sp.nat 0 64))
    let c := copyState 0x3FF (List.replicate 4 (copy1 1))
    (s false).guard false 0 = true ∧ d.dring = true ∧
      (d.busDest 1 (layerOf 0) ((s false).ringTail d.dq) ((s false).col 0) 0).toOption.isSome = true ∧
      (s false).cur.cur = false ∧ (s false).cur.seq.ticket < 2 ^ 24 ∧ (s false).cur.seq.queue.length < 4 ∧
      4 ≤ c.cur.seq.queue.length ∧ (at_ 5 (inBank1 (coreOf .reset))).cur.cur = true ∧
      4 ≤ (at_ 5 { coreOf .reset with bankOps := 4 }).cur.bankOps := by decide +kernel

/-! Control registers, images and tasks. -/

theorem witness_ControlRegistersReadTheirMaps :
    let c : Core := { coreOf .reset with codeMap := [(3, 0x80000007)], loading := [4], cpsel := 4 }
    swf 0 (at_ 0 c).cur.bank.flags = true ∧ swf 0 c.codeMap = true ∧ c.ctlForbidden 0x09 5 = true ∧ c.ctlForbidden 0x09 4 = false ∧
      c.ctlForbidden 0x1D 60 = true ∧ c.ctlForbidden 0x1D 59 = false ∧ c.ctlForbidden 0x1E 0x80000009 = true ∧
      { c with loading := [] }.ctlForbidden 0x1E 0x80000007 = true ∧ { c with loading := [] }.ctlForbidden 0x1E 0x80000008 = false := by
  decide
/-- The header of an image with two ranges, one of them empty. -/
def imageHeader (i : Nat) : W :=
  ([0x4B574349, 0x00010512, 0x40, 1, 2, 0x340080, 0, 0, 0x80, 0x80, 0x1000, 0] : List W).getD i 0
theorem witness_ImagesHoldAndRestoreTheCore :
    headerOk imageHeader = true ∧ headerOk (fun i => if i = 6 then 1 else imageHeader i) = false ∧
      ({ Core.reset with ranges := [(0x80, 0x80)] } : Core).ranges.length ≤ 16 := by decide
/-- A resident task of one column whose four cores have halted or not, and a queued one on a die with a free grid. -/
theorem witness_BoundariesRetireImageAndPlace :
    let at_ (r : Run) (hold : Bool) : State := { State.reset with
      ev := evK .boundaryComplete 0
      cores := [0, 128, 256, 384].map fun k => (k, { Core.reset with task := some 1, run := r })
      dies := [(0, { Die.reset with phase := 1, tasks := [task1], holdReq := hold })] }
    let s := at_ (.halt true) false
    (s.die 0).tasks = [task1] ∧ task1.isResident = true ∧ task1.stopped = none ∧
      task1.desc.nx ≤ min 8 (Spec.sites (s.die 0)).length ∧ (∀ j ∈ s.taskCores 0 task1, (s.core j).run = .halt true) ∧
      ¬ (∀ j ∈ (at_ (.phase 64 false) true).taskCores 0 task1, ((at_ (.phase 64 false) true).core j).run = .halt true) ∧
      ((at_ (.phase 64 false) true).die 0).holdReq = true := by decide +kernel
theorem witness_BoundariesRetireImageAndPlace_placement :
    let u : Task := { task1 with place := .queued, exchange := true }
    let s : State := { State.reset with
      ev := evK .emptyBoundary 0, dies := [(0, { Die.reset with tasks := [u], qslice := [(0, 1000)] })] }
    (s.die 0).tasks = [u] ∧ (s.die 0).holdReq = false ∧ (s.die 0).rewrites = [] ∧ u.queue < 16 ∧ s.taskReady 0 u = true ∧
      u.exchange = !(s.die 0).phase.getLsbD 0 ∧ ((s.die 0).placeFor u.desc []).isSome = true := by decide +kernel

/-! Far descriptors, boots. -/

theorem witness_TileLoadsRefuseAndTrap_ring :
    let w (v : Nat) : State := { farHere [(2, 2 ^ 31), (15, v)] (some entry0) 0 with
      cores := [(0, { ringCore 0 false with task := some 1, sp := (farCore [(2, 2 ^ 31), (5, 0), (8, 1), (9, 1), (15, v)]).sp })] }
    let d (s : State) := TileDesc.ofWords (Spec.words s 0 16)
    let loc (s : State) := (d s).spoff + (s.ringTail (d s).dq).slotAt (s.ringTail (d s).dq).tail
    ∀ v ∈ [0, 1], (d (w v)).dring = true ∧ ((w v).ringTail (d (w v)).dq).ok = true ∧ ((w v).ringTail (d (w v)).dq).full = false ∧
      (d (w v)).bad false ((w v).ringTail (d (w v)).dq).slotsz (loc (w v)) 0 = decide (v = 1) ∧ (d (w v)).rows ≠ 0 ∧
      (w v).guard false 0 = true ∧ (w v).compute = false := by decide +kernel
theorem witness_DescriptorFieldsAreChecked :
    (TileDesc.ofWords [0, 0x400]).bad false 0 0 0 = true ∧ (TileDesc.ofWords []).bad false 0 0 0 = false ∧
      (NmDesc.ofWords []).bad .nmzero = false ∧ (NmDesc.ofWords [1]).bad .nmzero = true ∧ FarKind.bkload ∈ Spec.blockForms.map (·.2) ∧
      (0 < State.reset.dx ∧ 0 < State.reset.dy ∧ 0 < State.reset.dz) := by decide
/-- A boot after a trip with a checkpoint committed, from slot B alone, and with a command pending. -/
theorem witness_BootsFinishWhatWasPending :
    let c (op : W) : HostCmd := { slot := 0, agent := 1, words := [op], acceptSeq := 3, waiting := false }
    let p : Pkg := { Pkg.reset with fwA := none, fwB := some 9, cmd := some (c 4), lastSlot := some 1, slot1 := some (State.reset.deviceState 0) }
    let s : State := { event ⟨.bootComplete, 0, 0, 0, 0, true⟩ with pkgs := [(0, p)] }
    let again : State := { s with ev := ⟨.bootComplete, 0, 0, 1, 0, false⟩ }
    s.canonical ∧ (s.pkg 0).fwA = none ∧ (s.pkg 0).fwB = some 9 ∧ s.ev.j ≠ 1 ∧ s.ev.b = true ∧ (s.pkg 0).lastSlot = some 1 ∧
      (if (1 : Nat) = 0 then (s.pkg 0).slot0 else (s.pkg 0).slot1) = some (State.reset.deviceState 0) ∧
      (s.pkg 0).cmd = some (c 4) ∧ (c 4).op ∈ [0x04, 0x08, 0x0B, 0x0D] ∧ (c 9).op ∉ [0x04, 0x08, 0x0B, 0x0D] ∧ again.ev.j = 1 ∧
      (Pkg.reset).cmd = none := by
  refine ⟨⟨?_, ?_, ?_, ?_⟩, ?_⟩ <;> decide +kernel
theorem witness_TileTransferEventsHaveTheirEffect_failed_line :
    let r : FarReq := { store0 with pieces := [{ piece0 with bad := true }] }
    let s := farEvent r ⟨.tileTransferComplete, 0, 7, 0, 1, false⟩
    (s.core 0).farReq 7 = some r ∧ r.pieces[s.ev.j]? = some { piece0 with bad := true } ∧ s.ev.w = 1 ∧ s.ev.b = false ∧
      (s.core 0).farBlocked 7 piece0.line = false ∧ r.kind = .tstore ∧ (r.kind = .tstore ∧ s.ev.j < 2 ^ 32) := by decide +kernel
/-- A data error before run A, between the runs, within one, and in the cycle of a checkpoint. -/
theorem witness_DataErrorsRunTheIntervalTwice_of_a_rerun :
    ∀ x ∈ [(Run.rollback 9 .dataError, []), (.drain 0 .rerunB, [ended0]), (.issue, []), (.drain 0 (.trap trap0), [])],
    let s := eventAt { taskCore with run := x.1, rerun := some (rerun0 x.2) } (evK .dataError 0)
    let c := eventAt { taskCore with run := .drain 0 .dataError } (evK .checkpointCommit 0)
    (s.core 0).cur = false ∧ (s.core 0).rerun.isSome = true ∧ (s.core 0).run = x.1 ∧ (c.core 0).run = .drain 0 .dataError := by
  decide +kernel

end Sys2Proof.Tests
end

section
/-! What the issue of an instruction leaves alone: the register files of both banks, the local memories and the matrix storage of
every core, the weight banks and the far memory (00_scope.md R4; 03_core_state.md R65; 09_core_faults.md R202).  All of it is
gathered in one value, so that "nothing of it changes" is an equation that the shared operations rewrite along. -/

namespace Sys2Proof.Machine

/-! ### The storage of the machine -/

/-- A bank without its loop registers, lane flags and lane generators: the registers that only a result's arrival writes. -/
def Bank.files (b : Bank) : Bank := { b with loop := .reset, flags := [], gen := [] }

theorem sameFiles_iff_files (a b : Bank) : Spec.sameFiles a b ↔ b.files = a.files :=
  ⟨fun h => (congrArg Bank.files (show { b with loop := a.loop, flags := a.flags, gen := a.gen } = a from h) :),
    fun h => (congrArg (fun x : Bank => { x with loop := a.loop, flags := a.flags, gen := a.gen }) h :)⟩

/-- What a core stores: the register files of its banks, its scratchpad and instruction memory, its accumulator tiles, weight
planes and statistics buffer. -/
structure CoreStorage where
  bank0 : Bank
  bank1 : Bank
  sp : Memory
  imem : Memory
  tiles : SMap (BitVec 8192)
  planes : SMap (BitVec 4096)
  stat : SMap W

def Core.storage (c : Core) : CoreStorage := ⟨c.bank0.files, c.bank1.files, c.sp, c.imem, c.tiles, c.planes, c.stat⟩

/-- What the machine stores: the storage of every core, every weight bank, and the memories of every package. -/
structure Storage where
  core : Nat → CoreStorage
  banks : Nat → Memory
  far : Nat → Memory × Memory × Memory

/-- The far memory that a package holds: its HBM, its second tier and its host's memory. -/
def Pkg.farStorage (p : Pkg) : Memory × Memory × Memory := (p.hbm, p.tier, p.host)

def State.storage (s : State) : Storage :=
  ⟨fun k => (s.core k).storage, fun k => (s.col k).banks, fun k => (s.pkg k).farStorage⟩

/-! ### Updates of a core that keep its storage

A lemma that unfolding proves is proved by `(rfl)`: so `simp` rewrites by it with a proof, and can use it for the functions that
`storage_upd` and its like take. -/

theorem storage_of_sameButPend {c d : Core} (h : c.sameButPend d) : d.storage = c.storage :=
  (congrArg Core.storage (show { d with pend := c.pend } = c from h) :)

@[simp] theorem storage_send (c : Core) (left : Nat) (k : PendKind) : (c.send left k).storage = c.storage := (rfl)

@[simp] theorem storage_sendTo (c : Core) (left : Nat) (b : Bool) (k : PendKind) :
    (c.sendTo left b k).storage = c.storage := (rfl)

@[simp] theorem storage_lastUse (c : Core) (file : Nat) (bit : Bool) (r : BitVec 6) :
    (c.lastUse file bit r).storage = c.storage := storage_of_sameButPend (lastUse_sameButPend c file bit r)

@[simp] theorem storage_relR (c : Core) (f : FmtR) : (c.relR f).storage = c.storage := by simp [Core.relR]

@[simp] theorem storage_sendWord (c : Core) (id a : Nat) (w : W) : (c.sendWord id a w).storage = c.storage := (rfl)

@[simp] theorem storage_advHead (c : Core) (q : Nat) (r : Ring) : (c.advHead q r).storage = c.storage := (rfl)

@[simp] theorem storage_advTail (c : Core) (q : Nat) (r : Ring) : (c.advTail q r).storage = c.storage := (rfl)

@[simp] theorem storage_countUndo (c : Core) (n : Nat) : (c.countUndo n).storage = c.storage := by
  unfold Core.countUndo; split <;> rfl

@[simp] theorem storage_countAcc (c : Core) (t : Nat) : (c.countAcc t).storage = c.storage := by
  unfold Core.countAcc; split <;> rfl

@[simp] theorem storage_modTile (c : Core) (t : Nat) (f : TileCtl → TileCtl) : (c.modTile t f).storage = c.storage := (rfl)

@[simp] theorem storage_sign (c : Core) (ws : List (BitVec 64)) : (c.sign ws).storage = c.storage := by
  unfold Core.sign; split <;> rfl

@[simp] theorem storage_logOut (c : Core) (op dst len : Nat) (dg : BitVec 64) (result : W) :
    (c.logOut op dst len dg result).storage = c.storage := by
  unfold Core.logOut
  split
  · rfl
  · exact storage_sign c _

@[simp] theorem storage_take (c : Core) (port n : Nat) : (c.take port n).storage = c.storage := by
  unfold Core.take; dsimp only; split <;> rfl

@[simp] theorem storage_takeMesh (c : Core) (port n y : Nat) : (c.takeMesh port n y).storage = c.storage :=
  (storage_take (c.countUndo (32 * n)) port n).trans (storage_countUndo c _)

@[simp] theorem storage_logTile (c : Core) (kind : CopyKind) : (c.logTile kind).storage = c.storage := (rfl)

/-- A change of the executing bank that keeps its files keeps the core's storage. -/
theorem storage_modBank (c : Core) {f : Bank → Bank} (h : ∀ b, (f b).files = b.files) : (c.modBank f).storage = c.storage := by
  unfold Core.modBank Core.modBankN Core.setBankN Core.bankN
  cases c.cur <;> simp [Core.storage, h]

@[simp] theorem storage_modLoop (c : Core) (f : LoopRegs → LoopRegs) : (c.modLoop f).storage = c.storage :=
  storage_modBank c fun _ => rfl

theorem files_advanceGens (b : Bank) (n : Nat) : (b.advanceGens n).files = b.files := rfl

theorem files_clearLane (b : Bank) (l : Nat) (mask : BitVec 5) : (b.clearLane l mask).files = b.files := rfl

/-- What every step of a fold keeps, the fold keeps. -/
theorem foldl_keeps {σ α β : Type} (p : σ → β) (l : List α) {f : σ → α → σ} (hf : ∀ s x, p (f s x) = p s) (s : σ) :
    p (l.foldl f s) = p s := by
  induction l generalizing s with
  | nil => rfl
  | cons x r ih => exact (ih (f s x)).trans (hf s x)

/-! ### Updates of the state that keep its storage -/

theorem storage_setCore (s : State) (k : Nat) {c : Core} (h : c.storage = (s.core k).storage) :
    (s.setCore k c).storage = s.storage := by
  have hc : ∀ j, ((s.setCore k c).core j).storage = (s.core j).storage := fun j => by
    rw [core_setCore]; split
    · next e => rw [e, h]
    · rfl
  simp [State.storage, hc]

theorem storage_modCore (s : State) (k : Nat) {f : Core → Core} (h : ∀ c, (f c).storage = c.storage) :
    (s.modCore k f).storage = s.storage := storage_setCore s k (h _)

@[simp] theorem storage_upd (s : State) {f : Core → Core} (h : ∀ c, (f c).storage = c.storage) :
    (s.upd f).storage = s.storage := storage_modCore s _ h

theorem storage_modCol (s : State) (k : Nat) {f : Column → Column} (h : ∀ x, (f x).banks = x.banks) :
    (s.modCol k f).storage = s.storage := by
  have hc : ∀ j, ((s.modCol k f).col j).banks = (s.col j).banks := fun j => by
    rw [col_modCol]; split
    · next e => rw [e, h]
    · rfl
  simp [State.storage, hc]

theorem storage_modPkg (s : State) (k : Nat) {f : Pkg → Pkg} (h : ∀ p, (f p).farStorage = p.farStorage) :
    (s.modPkg k f).storage = s.storage := by
  have hp : ∀ j, ((s.modPkg k f).pkg j).farStorage = (s.pkg j).farStorage := fun j => by
    rw [pkg_modPkg]; split
    · next e => rw [e, h]
    · rfl
  simp [State.storage, hp]

@[simp] theorem storage_modDie (s : State) (k : Nat) (f : Die → Die) : (s.modDie k f).storage = s.storage := (rfl)

@[simp] theorem storage_schedule (s : State) (dom : Domain) (t : Nat) (e : Ev) : (s.schedule dom t e).storage = s.storage := (rfl)

@[simp] theorem storage_scheduleCore (s : State) (k t : Nat) (e : Ev) : (s.scheduleCore k t e).storage = s.storage := (rfl)

@[simp] theorem storage_scheduleFab (s : State) (t : Nat) (e : Ev) : (s.scheduleFab t e).storage = s.storage := (rfl)

@[simp] theorem storage_unschedule (s : State) (p : Ev → Bool) : (s.unschedule p).storage = s.storage := (rfl)

@[simp] theorem storage_tick (s : State) : s.tick.storage = s.storage := (rfl)

@[simp] theorem storage_post (s : State) (die kind : Nat) (task core cause tpc cpc : W) (dr : List DrainRec) :
    (s.post die kind task core cause tpc cpc dr).storage = s.storage := (rfl)

@[simp] theorem storage_give (s : State) (d : BitVec 6) (v : W) : (s.give d v).storage = s.storage :=
  storage_upd s fun _ => rfl

@[simp] theorem storage_foldl {α : Type} (l : List α) {f : State → α → State} (hf : ∀ s x, (f s x).storage = s.storage)
    (s : State) : (l.foldl f s).storage = s.storage := foldl_keeps State.storage l hf s

/-! ### Traps, faults and retirement (R201, R205, R216, R250): what a task leaves behind on its cores stays as it was -/

@[simp] theorem storage_repay (s : State) (port : Nat) (fs : List Flit) : (s.repay port fs).storage = s.storage :=
  storage_foldl fs (fun s f => by cases f.credit <;> rfl) s

@[simp] theorem storage_dropFabric (s : State) (k : Nat) : (s.dropFabric k).storage = s.storage :=
  storage_foldl _ (fun s _ => (storage_modCore _ k fun _ => by rfl).trans (storage_repay s _ _)) s

@[simp] theorem storage_noteResidue (s : State) (k : Nat) : (s.noteResidue k).storage = s.storage := by
  unfold State.noteResidue
  exact (storage_modCore _ k fun _ => by rfl).trans (storage_modDie s _ _)

@[simp] theorem storage_vacateCores (s : State) (ks : List Nat) : (s.vacateCores ks).storage = s.storage := by
  refine storage_foldl ks (fun s k => ?_) s
  rw [storage_unschedule]
  refine (storage_modCol _ _ fun _ => by rfl).trans ((storage_modCore _ _ fun _ => by rfl).trans ?_)
  rw [storage_dropFabric, storage_noteResidue]

@[simp] theorem storage_abortTask (s : State) (die : Nat) (tag : W) (hold : Bool) :
    (s.abortTask die tag hold).storage = s.storage := by
  unfold State.abortTask
  split
  · rfl
  · exact storage_vacateCores s _

@[simp] theorem storage_handlerFault (s : State) (k slot : Nat) (pc : PC) : (s.handlerFault k slot pc).storage = s.storage := by
  unfold State.handlerFault
  simp only [storage_abortTask, storage_post]
  exact storage_modCore s k fun _ => by rfl

@[simp] theorem storage_markRetired (s : State) (k : Nat) (tag : W) : (s.markRetired k tag).storage = s.storage := by
  unfold State.markRetired
  simp only [storage_modDie, storage_post]
  exact storage_modCore s k fun _ => by rfl

@[simp] theorem storage_retireCore (s : State) (k : Nat) : (s.retireCore k).storage = s.storage := by
  unfold State.retireCore
  dsimp only
  split <;> simp

@[simp] theorem storage_beginTrap (s : State) (k : Nat) (t : TrapInfo) : (s.beginTrap k t).storage = s.storage := by
  unfold State.beginTrap
  dsimp only
  split
  · exact storage_handlerFault s k _ _
  · exact storage_setCore s k rfl

@[simp] theorem storage_trap (s : State) (code : Nat) : (s.trap code).storage = s.storage := storage_beginTrap s _ _

@[simp] theorem storage_trapAt (s : State) (code : Nat) (pc : PC) : (s.trapAt code pc).storage = s.storage :=
  storage_beginTrap s _ _

@[simp] theorem storage_disagree (s : State) (k : Nat) : (s.disagree k).storage = s.storage := by
  unfold State.disagree
  split
  · exact storage_modCore s k fun _ => rfl
  · exact storage_retireCore s k

/-! ### Outbound operations and stores (R181, R208, R211) -/

/-- An outbound operation keeps the storage when its sending and its repetition from the log do. -/
@[simp] theorem storage_outOp (s : State) (op dst len : Nat) (data : List Byte) (result : W) {act : State → State}
    {quiet : OutEntry → State → State} (ha : ∀ t, (act t).storage = t.storage) (hq : ∀ e t, (quiet e t).storage = t.storage) :
    (s.outOp op dst len data result act quiet).storage = s.storage := by
  rcases outOp_cases s op dst len data result act quiet with ⟨_, e⟩ | ⟨_, _, e⟩ | ⟨x, _, _, e⟩ | ⟨_, _, e⟩ <;> rw [e] <;>
    simp [ha, hq]

@[simp] theorem storage_mcastStore (s : State) (op a : Nat) (bs : List Byte) : (s.mcastStore op a bs).storage = s.storage := by
  simp [State.mcastStore]

@[simp] theorem storage_localStore (s : State) (a : Nat) (bs : List Byte) : (s.localStore a bs).storage = s.storage := by
  unfold State.localStore
  split <;> simp

@[simp] theorem storage_storeAt (s : State) (op : Nat) (ea align : Int) (bs : List Byte) :
    (s.storeAt op ea align bs).storage = s.storage := by
  unfold State.storeAt
  split
  · simp
  · split <;> simp

/-! ### Copies, bank operations, barriers and flits (R134, R192, R234, R253, R343) -/

@[simp] theorem storage_enqueueCopy (s : State) (k : Nat) (kind : CopyKind) (desc : BitVec 512) (db : Nat)
    (slot : Option RingSlot) (ticket : Nat) : (s.enqueueCopy k kind desc db slot ticket).storage = s.storage := by
  unfold State.enqueueCopy
  dsimp only
  split
  · exact (storage_scheduleCore _ _ _ _).trans (storage_modCore s k fun _ => by rfl)
  · exact storage_modCore s k fun _ => by rfl

@[simp] theorem storage_acceptOp (s : State) (kind : BankKind) (a b gbase : Nat) (kappa : W) (dmax : Nat) :
    (s.acceptOp kind a b gbase kappa dmax).storage = s.storage := by
  unfold State.acceptOp
  rw [storage_scheduleCore]
  exact (storage_upd _ fun _ => by rfl).trans (storage_modCol s _ fun _ => by rfl)

@[simp] theorem storage_bankOp (op : Nat) (kind : BankKind) (d : BitVec 6) (logged : Bool) (dst len a b gbase : Nat) (kappa : W)
    (dmax : Nat) (s : State) : (bankOp op kind d logged dst len a b gbase kappa dmax s).storage = s.storage := by
  unfold bankOp
  dsimp only
  cases logged <;> cases decide (s.cur.bankOps < 4) <;> simp

@[simp] theorem storage_arrive (s : State) (n : Nat) : (s.arrive n).storage = s.storage := by
  have harr : ∀ c : Core, (let b := c.modBar n fun b => b.arrived (layerOf s.ictx.core)
      if b.cur then b else { b with barLog := b.barLog ++ [n], barPos := b.barPos + 1 }).storage = c.storage := fun c => by
    dsimp only; split <;> rfl
  unfold State.arrive
  dsimp only
  split
  · simp
  · split
    · have hp : (s.upd fun c => { c with barPos := c.barPos + 1 }).storage = s.storage := storage_upd s fun _ => by rfl
      split <;> simp [hp]
    · split
      · simp
      · split
        · simp
        · split <;> simp only [storage_schedule, storage_scheduleCore] <;> exact storage_upd s harr

@[simp] theorem storage_barWait (s : State) (n : Nat) : (s.barWait n).storage = s.storage := by
  unfold State.barWait
  split
  · exact storage_upd s fun _ => rfl
  · rfl

@[simp] theorem storage_sendMesh (s : State) (k port : Nat) (fs : List (BitVec 256)) :
    (s.sendMesh k port fs).storage = s.storage := by
  unfold State.sendMesh
  split
  · rfl
  · exact (storage_foldl _ (fun _ _ => by rfl) _).trans
      ((storage_modCore _ _ fun _ => by rfl).trans (storage_modCore s _ fun _ => by rfl))

@[simp] theorem storage_receive (s : State) (un : Bool) (d : BitVec 6) (fl : BitVec 3) (fs : List (BitVec 256)) :
    (s.receive un d fl fs).storage = s.storage := by
  unfold State.receive
  split
  · rfl
  · exact storage_upd s fun _ => rfl

@[simp] theorem storage_departAt (s : State) (pkg port f : Nat) : (s.departAt pkg port f).storage = s.storage := by
  unfold State.departAt
  dsimp only
  split <;> rfl

@[simp] theorem storage_sendFabric (s : State) (k port : Nat) (fs : List (BitVec 256)) :
    (s.sendFabric k port fs).storage = s.storage := by
  unfold State.sendFabric
  dsimp only
  split
  · rfl
  · rw [storage_departAt]
    exact (storage_modPkg _ _ fun _ => by rfl).trans (storage_modCore s _ fun _ => by rfl)

/-! ### Far requests (R270, R271, R284, R345) -/

@[simp] theorem storage_farMessage (s : State) (k : Nat) (r : FarReq) (j : Nat) (reply : Bool) :
    (s.farMessage k r j reply).storage = s.storage := by
  unfold State.farMessage
  dsimp only
  split <;> rfl

@[simp] theorem storage_launchPieces (s : State) (k : Nat) (r : FarReq) : (s.launchPieces k r).storage = s.storage := by
  unfold State.launchPieces
  split
  · exact storage_foldl _ (fun s j => storage_farMessage s k r j false) s
  · exact storage_foldl _ (fun _ _ => by rfl) s

@[simp] theorem storage_tileEnd (s : State) (k id : Nat) : (s.tileEnd k id).storage = s.storage := (rfl)

@[simp] theorem storage_modFar (s : State) (k id : Nat) (f : FarReq → FarReq) : (s.modFar k id f).storage = s.storage :=
  storage_modCore s k fun _ => rfl

@[simp] theorem storage_markDirty (s : State) (k : Nat) (vas : List Nat) : (s.markDirty k vas).storage = s.storage := by
  unfold State.markDirty
  split <;> rfl

@[simp] theorem storage_sendFar (k id : Nat) (s : State) : (sendFar k id s).storage = s.storage := by
  unfold sendFar
  split
  · rfl
  · next r _ =>
    dsimp only
    split <;> (repeat' split) <;> simp

/-- Accepting a request keeps the storage when its mark does: the request is sent by `sendFar`. -/
@[simp] theorem storage_acceptFar (s : State) (d : BitVec 6) (r : FarReq) {mark : State → State}
    (hm : ∀ t, (mark t).storage = t.storage) : (s.acceptFar d r mark sendFar).storage = s.storage := by
  have hs : ∀ (t : State) (stage : FarStage), (t.upd fun c =>
      ({ c with far := c.far ++ [{ r with stage := stage }], nextId := r.id + 1 } : Core).sendWord r.id r.statusAddr 0).storage =
        t.storage := fun t _ => storage_upd t fun _ => rfl
  unfold State.acceptFar
  dsimp only
  split
  · simp
  · split
    · exact (storage_give _ d 1).trans ((hs _ .held).trans (hm s))
    · exact (storage_sendFar _ _ _).trans ((storage_give _ d 1).trans ((hs _ .sent).trans (hm s)))

@[simp] theorem storage_replayFar (s : State) (d : BitVec 6) (kind : FarKind) (desc : Nat) (e : OutEntry) :
    (s.replayFar d kind desc e).storage = s.storage := by
  unfold State.replayFar
  dsimp only
  split
  · simp
  · split
    · simp
    · exact (storage_upd _ fun c => by split <;> simp).trans (storage_give s d _)

@[simp] theorem storage_outFar (s : State) (op : Nat) (d : BitVec 6) (r : FarReq) (dst len : Nat) (data : List Byte)
    {mark : State → State} (hm : ∀ t, (mark t).storage = t.storage) :
    (s.outFar op d r dst len data mark sendFar).storage = s.storage := by
  have hl : ∀ t : State, (t.upd fun c => c.logFar r.id).storage = t.storage := fun t => storage_upd t fun _ => rfl
  refine storage_outOp s _ _ _ _ _ (fun t => ?_) fun e t => storage_replayFar t d _ _ e
  split
  · rw [storage_acceptFar _ d r hm]
    split
    · rfl
    · exact hl t
  · simp

/-! ### Outcomes that keep the storage -/

/-- Where an outcome is a next state, the storage there is that of s. -/
def Out.keepsStorage (o : Out) (s : State) : Prop := ∀ t, o = .next t → t.storage = s.storage

@[simp] theorem keepsStorage_next (t s : State) : Out.keepsStorage (.next t) s ↔ t.storage = s.storage :=
  ⟨fun h => h t rfl, fun h _ e => by cases e; exact h⟩

theorem keepsStorage_self (s : State) : Out.keepsStorage (.next s) s := (keepsStorage_next s s).2 rfl

theorem keepsStorage_trap (s : State) (code : Nat) : Out.keepsStorage (.next (s.trap code)) s :=
  (keepsStorage_next _ s).2 (storage_trap s code)

theorem keepsStorage_ite {p : Prop} [Decidable p] {o q : Out} {s : State} (ho : o.keepsStorage s) (hq : q.keepsStorage s) :
    Out.keepsStorage (if p then o else q) s := by
  split <;> assumption

theorem bank1Only_keepsStorage {s : State} {f : State → Out} (h : Out.keepsStorage (f s) s) :
    Out.keepsStorage (bank1Only s f) s :=
  keepsStorage_ite h (keepsStorage_trap s _)

theorem exchangeOnly_keepsStorage {s : State} {f : State → Out} (h : Out.keepsStorage (f s) s) :
    Out.keepsStorage (exchangeOnly s f) s :=
  keepsStorage_ite (keepsStorage_trap s _) h

theorem computeOnly_keepsStorage {s : State} {f : State → Out} (h : Out.keepsStorage (f s) s) :
    Out.keepsStorage (computeOnly s f) s :=
  keepsStorage_ite h (keepsStorage_trap s _)

theorem notInLoop_keepsStorage {s : State} {f : State → Out} (h : Out.keepsStorage (f s) s) :
    Out.keepsStorage (notInLoop s f) s :=
  keepsStorage_ite (keepsStorage_trap s _) h

/-! ### The scalar slot -/

theorem sOp_keepsStorage (f : FmtR) (lat : Nat) (g : W → W → W) (s : State) : Out.keepsStorage (sOp f lat g s) s := by
  unfold sOp
  dsimp only
  split <;> simp

theorem sUn_keepsStorage (f : FmtRA) (g : W → W) (s : State) : Out.keepsStorage (sUn f g s) s := by
  unfold sUn
  dsimp only
  split <;> simp

theorem sGet_keepsStorage (gn : Bool) (g : BitVec 4) (d : BitVec 6) (r : W) (s : State) :
    Out.keepsStorage (sGet gn g d r s) s := by
  unfold sGet
  split <;> simp

theorem sCmp_keepsStorage (f : FmtP) (c : W → W → Bool) (s : State) : Out.keepsStorage (sCmp f c s) s := by
  simp [sCmp]

theorem execSel_keepsStorage (f : FmtR) (s : State) : Out.keepsStorage (execSel f s) s := by
  simp [execSel]

theorem execMtc_keepsStorage (f : FmtMtc) (s : State) : Out.keepsStorage (execMtc f s) s := by
  refine keepsStorage_ite (keepsStorage_trap s _) (keepsStorage_ite (keepsStorage_ite (keepsStorage_trap s _) ?_) ?_) <;> simp

theorem execMtp_keepsStorage (f : FmtMtp) (s : State) : Out.keepsStorage (execMtp f s) s := by
  unfold execMtp
  dsimp only
  split <;> simp

theorem execMtb_keepsStorage (f : FmtMtb) (s : State) : Out.keepsStorage (execMtb f s) s := by
  unfold execMtb
  dsimp only
  split <;> simp

theorem execMtq_keepsStorage (f : FmtMtq) (s : State) : Out.keepsStorage (execMtq f s) s := by
  unfold execMtq
  dsimp only
  split <;> simp

theorem execMftask_keepsStorage (f : FmtMftask) (s : State) : Out.keepsStorage (execMftask f s) s :=
  bank1Only_keepsStorage (sGet_keepsStorage _ _ _ _ s)

theorem execMttask_keepsStorage (f : FmtMttask) (s : State) : Out.keepsStorage (execMttask f s) s := by
  refine bank1Only_keepsStorage ?_
  dsimp only
  split <;> simp

theorem execTrapi_keepsStorage (f : FmtTrapi) (s : State) : Out.keepsStorage (execTrapi f s) s := by
  unfold execTrapi
  split <;> simp

theorem execRft_keepsStorage (s : State) : Out.keepsStorage (execRft s) s :=
  bank1Only_keepsStorage ((keepsStorage_next _ _).2 (storage_upd s fun _ => by rfl))

/-! ### The branch slot: of a bank it writes the loop registers only (R124) -/

theorem transfer_keepsStorage (gn : Bool) (g : BitVec 4) (target : State → PC) (call : Bool) (s : State) :
    Out.keepsStorage (transfer gn g target call s) s := by
  refine notInLoop_keepsStorage ?_
  split
  · exact (keepsStorage_next _ _).2 (storage_upd s fun _ => by cases call <;> rfl)
  · simp

theorem execLoop_keepsStorage (f : FmtLoop) (s : State) : Out.keepsStorage (execLoop f s) s := by
  refine notInLoop_keepsStorage (keepsStorage_ite (keepsStorage_self s) ?_)
  dsimp only
  split
  · simp
  · exact keepsStorage_ite ((keepsStorage_next _ _).2 (storage_upd s fun c => storage_modLoop c _)) (by simp)

theorem execLinc_keepsStorage (f : FmtLinc) (s : State) : Out.keepsStorage (execLinc f s) s := by
  refine notInLoop_keepsStorage (keepsStorage_ite (keepsStorage_self s) ?_)
  split <;> simp

theorem execLexit_keepsStorage (f : FmtG) (s : State) : Out.keepsStorage (execLexit f s) s := by
  have leave : ∀ after : PC, Out.keepsStorage
      (.next (s.upd fun c => { c.modLoop (fun l => { l with linc := [], act := false }) with pc := after })) s :=
    fun _ => (keepsStorage_next _ _).2 (storage_upd s fun c => storage_modLoop c _)
  refine keepsStorage_ite (keepsStorage_trap s _) (keepsStorage_ite (keepsStorage_self s) ?_)
  dsimp only
  split
  · exact leave _
  · split
    · simp
    · exact leave _

theorem execRot_keepsStorage (f : FmtRot) (s : State) : Out.keepsStorage (execRot f s) s := by
  unfold execRot
  split <;> simp

theorem execBarr_keepsStorage (f : FmtBB) (s : State) : Out.keepsStorage (execBarr f s) s := by
  unfold execBarr
  split <;> simp

theorem execBwait_keepsStorage (f : FmtBB) (s : State) : Out.keepsStorage (execBwait f s) s := by
  unfold execBwait
  split <;> simp

theorem execBsync_keepsStorage (f : FmtBB) (s : State) : Out.keepsStorage (execBsync f s) s := by
  unfold execBsync
  dsimp only
  split
  · split <;> simp
  · simp

theorem phaseWith_keepsStorage (gn : Bool) (g : BitVec 4) (budget : Nat) (s : State) :
    Out.keepsStorage (phaseWith gn g budget s) s := by
  refine notInLoop_keepsStorage ?_
  split
  · exact (keepsStorage_next _ _).2
      ((storage_upd s fun _ => by rfl : (s.upd fun c => { c with run := .phase budget false }).storage = s.storage))
  · simp

theorem execHalt_keepsStorage (f : FmtG) (s : State) : Out.keepsStorage (execHalt f s) s := by
  refine notInLoop_keepsStorage (keepsStorage_ite (keepsStorage_self s) (keepsStorage_ite ?_ ?_))
  · rw [keepsStorage_next, storage_abortTask]
    exact (storage_upd _ fun _ => by rfl).trans (storage_post s _ _ _ _ _ _ _ _)
  · exact (keepsStorage_next _ _).2 (storage_upd s fun _ => by rfl)

/-! ### The vector slots: of a bank they clear lane flags only (R149) -/

theorem vIssue_keepsStorage (s : State) (gs : BitVec 5) (d : BitVec 6) (lat : Nat) (form : VForm) (a b c : VReg)
    {rel : Core → Core} (hr : ∀ k, (rel k).storage = k.storage) : Out.keepsStorage (vIssue s gs d lat form a b c rel) s := by
  unfold vIssue
  split <;> simp [hr]

theorem vBin_keepsStorage (f : FmtVR) (lat : Nat) (form : VForm) (s : State) : Out.keepsStorage (vBin f lat form s) s :=
  vIssue_keepsStorage s _ _ _ _ _ _ _ fun _ => by simp

theorem vFma_keepsStorage (f : FmtVR) (t : FTy) (s : State) : Out.keepsStorage (vFma f t s) s :=
  vIssue_keepsStorage s _ _ _ _ _ _ _ fun _ => by simp

theorem vLanes_keepsStorage (f : FmtVR) (lat : Nat) (g : VReg → VReg → Nat → W) (s : State) :
    Out.keepsStorage (vLanes f lat g s) s := vIssue_keepsStorage s _ _ _ _ _ _ _ fun _ => by simp

theorem vLogic_keepsStorage (f : FmtVR) (g : W → W → W) (s : State) : Out.keepsStorage (vLogic f g s) s :=
  vLanes_keepsStorage f 4 _ s

theorem vUn_keepsStorage (f : FmtVRA) (lat : Nat) (form : VForm) (s : State) : Out.keepsStorage (vUn f lat form s) s :=
  vIssue_keepsStorage s _ _ _ _ _ _ _ fun _ => by simp

theorem vCmp_keepsStorage (f : FmtVP) (c : W → W → Bool) (s : State) : Out.keepsStorage (vCmp f c s) s := by
  simp [vCmp]

theorem vCvt_keepsStorage (f : FmtVC) (sat : Bool) (s : State) : Out.keepsStorage (vCvt f sat s) s := by
  simp [vCvt]

theorem execVsel_keepsStorage (f : FmtVSel) (s : State) : Out.keepsStorage (execVsel f s) s :=
  vIssue_keepsStorage s _ _ _ _ _ _ _ fun _ => by simp

theorem execVflg_keepsStorage (f : FmtVFlg) (s : State) : Out.keepsStorage (execVflg f s) s := by
  unfold execVflg
  split
  · simp
  · rw [keepsStorage_next]
    refine storage_upd s fun c => (storage_send _ _ _).trans (storage_modBank c fun b => foldl_keeps Bank.files _ (fun b l => ?_) b)
    split
    · exact files_clearLane b _ _
    · rfl

theorem execVbmax_keepsStorage (f : FmtVBMax) (s : State) : Out.keepsStorage (execVbmax f s) s := by
  simp [execVbmax]

theorem execVbcvt_keepsStorage (f : FmtVBCvt) (s : State) : Out.keepsStorage (execVbcvt f s) s := by
  simp [execVbcvt]

theorem execVqdual_keepsStorage (f : FmtVQDual) (s : State) : Out.keepsStorage (execVqdual f s) s := by
  simp [execVqdual]

theorem execVdq_keepsStorage (f : FmtVDq) (s : State) : Out.keepsStorage (execVdq f s) s := by
  simp [execVdq]

theorem execVstr_keepsStorage (f : FmtVStr) (s : State) : Out.keepsStorage (execVstr f s) s := by
  simp [execVstr]

theorem execVstw_keepsStorage (f : FmtVStw) (s : State) : Out.keepsStorage (execVstw f s) s := by
  unfold execVstw
  split <;> simp

/-! ### The matrix slot: of a bank it advances the lane generators only (R174) -/

theorem execMldw_keepsStorage (f : FmtMldw) (s : State) : Out.keepsStorage (execMldw f s) s := by
  refine keepsStorage_ite (keepsStorage_self s) (keepsStorage_ite (keepsStorage_trap s _) ?_)
  split
  · exact keepsStorage_trap s _
  · refine keepsStorage_ite (keepsStorage_trap s _) (keepsStorage_ite (keepsStorage_trap s _) ?_)
    rw [keepsStorage_next, storage_scheduleCore]
    exact storage_upd s fun _ => by rfl

theorem execMldwb_keepsStorage (f : FmtMldwb) (s : State) : Out.keepsStorage (execMldwb f s) s := by
  refine keepsStorage_ite (keepsStorage_self s) (keepsStorage_ite (keepsStorage_trap s _) ?_)
  rw [keepsStorage_next, storage_scheduleCore]
  exact storage_upd s fun _ => by rfl

theorem execMswap_keepsStorage (f : FmtG) (s : State) : Out.keepsStorage (execMswap f s) s := by
  unfold execMswap
  split
  · exact (keepsStorage_next _ _).2 (storage_upd s fun _ => by rfl)
  · simp

theorem mstream_keepsStorage (f : FmtMstream) (back : Bool) (s : State) : Out.keepsStorage (mstream f back s) s := by
  refine computeOnly_keepsStorage (keepsStorage_ite (keepsStorage_self s) (keepsStorage_ite (keepsStorage_trap s _)
    (keepsStorage_ite (keepsStorage_trap s _) (keepsStorage_ite (keepsStorage_trap s _)
      (keepsStorage_ite (keepsStorage_trap s _) ?_)))))
  rw [keepsStorage_next]
  split
  · exact (storage_scheduleCore _ _ _ _).trans (storage_upd s fun c => storage_countAcc c _)
  · exact storage_upd s fun c => storage_countAcc c _

theorem execMclr_keepsStorage (f : FmtMclr) (s : State) : Out.keepsStorage (execMclr f s) s := by
  refine computeOnly_keepsStorage (keepsStorage_ite (keepsStorage_self s) (keepsStorage_ite (keepsStorage_trap s _) ?_))
  rw [keepsStorage_next, storage_scheduleCore]
  exact storage_upd s fun c => storage_countAcc c _

theorem execMsetp_keepsStorage (f : FmtMsetp) (s : State) : Out.keepsStorage (execMsetp f s) s := by
  have hp : (s.upd fun c => (if f.rsc then c.countAcc f.t.toNat else c).modTile f.t.toNat
      fun x => { x with p := f.p }).storage = s.storage := storage_upd s fun c => by cases f.rsc <;> simp
  refine keepsStorage_ite (keepsStorage_self s) (keepsStorage_ite (keepsStorage_trap s _) (keepsStorage_ite ?_ ?_))
  · rw [keepsStorage_next, storage_scheduleCore]
    exact (storage_upd _ fun _ => by rfl).trans hp
  · exact (keepsStorage_next _ _).2 hp

theorem execMdrain_keepsStorage (f : FmtMdrain) (s : State) : Out.keepsStorage (execMdrain f s) s := by
  refine computeOnly_keepsStorage (keepsStorage_ite (keepsStorage_self s) (keepsStorage_ite (keepsStorage_trap s _)
    (keepsStorage_ite (keepsStorage_trap s _) (keepsStorage_ite (keepsStorage_trap s _)
      (keepsStorage_ite (keepsStorage_trap s _) ?_)))))
  rw [keepsStorage_next, storage_scheduleCore]
  refine storage_upd s fun c => ?_
  have hacc : (if f.clr then c.countAcc f.t.toNat else c).storage = c.storage := by split <;> simp
  dsimp only
  split
  · exact (storage_modBank _ fun b => files_advanceGens b _).trans hacc
  · exact hacc

theorem execMflg_keepsStorage (f : FmtMflg) (s : State) : Out.keepsStorage (execMflg f s) s := by
  unfold execMflg
  split <;> simp

theorem execMclrf_keepsStorage (f : FmtMclrf) (s : State) : Out.keepsStorage (execMclrf f s) s := by
  unfold execMclrf
  split <;> simp

/-! ### Local memory: a store is on its way when its instruction has issued (R181) -/

theorem loadS_keepsStorage (gn : Bool) (g : BitVec 4) (d : BitVec 6) (n : Nat) (ext : Nat → W) (ea : State → Int) (s : State) :
    Out.keepsStorage (loadS gn g d n ext ea s) s := by
  refine keepsStorage_ite (keepsStorage_self s) ?_
  split <;> simp

theorem storeS_keepsStorage (gn : Bool) (g : BitVec 4) (op n : Nat) (d : BitVec 6) (ea : State → Int) (s : State) :
    Out.keepsStorage (storeS gn g op n d ea s) s := by
  unfold storeS
  split <;> simp

theorem loadV_keepsStorage (gn : Bool) (g : BitVec 4) (u : Bool) (d : BitVec 6) (ea : State → Int) (s : State) :
    Out.keepsStorage (loadV gn g u d ea s) s := by
  refine keepsStorage_ite (keepsStorage_self s) ?_
  split <;> simp

theorem storeV_keepsStorage (gn : Bool) (g : BitVec 4) (op : Nat) (u : Bool) (d : BitVec 6) (ea : State → Int) (s : State) :
    Out.keepsStorage (storeV gn g op u d ea s) s := by
  unfold storeV
  split <;> simp

theorem gather_keepsStorage (u : Bool) (f : FmtC0R) (s : State) : Out.keepsStorage (gather u f s) s := by
  refine keepsStorage_ite (keepsStorage_self s) ?_
  dsimp only
  split <;> simp

theorem scatter_keepsStorage (op : Nat) (u : Bool) (f : FmtC0R) (s : State) : Out.keepsStorage (scatter op u f s) s := by
  refine keepsStorage_ite (keepsStorage_self s) ?_
  dsimp only
  split
  · exact keepsStorage_trap s _
  · refine keepsStorage_ite (keepsStorage_trap s _) ?_
    rw [keepsStorage_next]
    refine (storage_foldl _ (fun t x => by simp) _).trans ?_
    split <;> simp

theorem ringPush_keepsStorage (u : Bool) (f : FmtC0Q) (s : State) : Out.keepsStorage (ringPush u f s) s := by
  refine keepsStorage_ite (keepsStorage_self s) (keepsStorage_ite (keepsStorage_trap s _)
    (keepsStorage_ite (keepsStorage_trap s _) (keepsStorage_ite (keepsStorage_trap s _)
      (keepsStorage_ite (keepsStorage_trap s _) ?_))))
  exact (keepsStorage_next _ _).2 (storage_upd s fun c => by cases f.adv <;> simp)

theorem ringPop_keepsStorage (u : Bool) (f : FmtC0Q) (s : State) : Out.keepsStorage (ringPop u f s) s := by
  refine keepsStorage_ite (keepsStorage_self s) (keepsStorage_ite (keepsStorage_trap s _)
    (keepsStorage_ite (keepsStorage_trap s _) (keepsStorage_ite (keepsStorage_trap s _) ?_)))
  exact (keepsStorage_next _ _).2 (storage_upd s fun c => by cases f.adv <;> simp)

theorem spAtomic_keepsStorage (gn : Bool) (g : BitVec 4) (op : Nat) (d : BitVec 6) (ea : State → Int) (s : State) :
    Out.keepsStorage (spAtomic gn g op d ea s) s := by
  refine keepsStorage_ite (keepsStorage_self s) ?_
  split
  · exact keepsStorage_trap s _
  · exact keepsStorage_ite (keepsStorage_trap s _) (by simp)

/-! ### The copy sequencer and the column -/

theorem execCpyld_keepsStorage (f : FmtGA) (s : State) : Out.keepsStorage (execCpyld f s) s := by
  refine keepsStorage_ite (keepsStorage_self s) ?_
  split
  · exact keepsStorage_trap s _
  · exact keepsStorage_ite (by simp) (keepsStorage_trap s _)

theorem execCpygo_keepsStorage (f : FmtD) (s : State) : Out.keepsStorage (execCpygo f s) s := by
  refine keepsStorage_ite (keepsStorage_self s) (keepsStorage_ite (by simp) (keepsStorage_ite (keepsStorage_trap s _) ?_))
  dsimp only
  split
  · exact keepsStorage_trap s _
  · exact keepsStorage_ite (by simp) ((keepsStorage_next _ _).2 (by split <;> simp))

theorem execCpystat_keepsStorage (f : FmtD) (s : State) : Out.keepsStorage (execCpystat f s) s := by
  unfold execCpystat
  split <;> simp

theorem vbcpy_keepsStorage (sub : Nat) (f : FmtDAB) (s : State) : Out.keepsStorage (vbcpy sub f s) s := by
  refine keepsStorage_ite (keepsStorage_self s) ?_
  dsimp only
  split
  · exact keepsStorage_trap s _
  · split
    · exact keepsStorage_trap s _
    · refine keepsStorage_ite (by simp) (keepsStorage_ite ?_ ?_) <;> simp [apply_ite State.storage]

theorem execWbtag_keepsStorage (f : FmtDA) (s : State) : Out.keepsStorage (execWbtag f s) s :=
  keepsStorage_ite (keepsStorage_self s) (keepsStorage_ite (keepsStorage_trap s _) (by simp))

theorem bankForm_keepsStorage (gn : Bool) (g : BitVec 4) (op : Nat) (kind : BankKind) (d : BitVec 6) (logged : Bool) (wa wb : W)
    (s : State) : Out.keepsStorage (bankForm gn g op kind d logged wa wb s) s := by
  refine keepsStorage_ite (keepsStorage_self s) ?_
  dsimp only
  split <;> simp

theorem execLupd_keepsStorage (f : FmtDA) (s : State) : Out.keepsStorage (execLupd f s) s := by
  refine keepsStorage_ite (keepsStorage_self s) (keepsStorage_ite (keepsStorage_trap s _)
    (keepsStorage_ite (keepsStorage_trap s _) ?_))
  dsimp only
  split
  · exact keepsStorage_trap s _
  · exact keepsStorage_ite (keepsStorage_trap s _) (by simp)

theorem execWbfence_keepsStorage (f : FmtD) (s : State) : Out.keepsStorage (execWbfence f s) s :=
  keepsStorage_ite (keepsStorage_self s) (keepsStorage_ite (by simp)
    ((keepsStorage_next _ _).2 (storage_upd s fun _ => by rfl)))

/-! ### Far memory: a form reads its descriptor, is checked, and sends a request (R268, R270) -/

theorem tileForm_keepsStorage (store : Bool) (f : FmtDA) (s : State) : Out.keepsStorage (tileForm store f s) s := by
  refine exchangeOnly_keepsStorage (keepsStorage_ite (keepsStorage_self s) ?_)
  dsimp only
  split
  · exact keepsStorage_trap s _
  · refine keepsStorage_ite (keepsStorage_trap s _) (keepsStorage_ite (keepsStorage_trap s _)
      (keepsStorage_ite (keepsStorage_trap s _) ?_))
    split
    · exact keepsStorage_trap s _
    · refine keepsStorage_ite (keepsStorage_trap s _) (keepsStorage_ite ?_ ?_)
      · exact (keepsStorage_next _ _).2 (storage_outFar s _ _ _ _ _ _ fun _ => by split <;> simp)
      · exact (keepsStorage_next _ _).2 (storage_acceptFar s _ _ fun _ => by split <;> simp)

theorem guardForm_keepsStorage (release : Bool) (sub : Nat) (gn : Bool) (g : BitVec 4) (d a : BitVec 6) (b : W) (s : State) :
    Out.keepsStorage (guardForm release sub gn g d a b s) s := by
  refine exchangeOnly_keepsStorage (keepsStorage_ite (keepsStorage_self s) ?_)
  dsimp only
  split
  · exact keepsStorage_trap s _
  · refine keepsStorage_ite (keepsStorage_trap s _) ?_
    split
    · exact keepsStorage_trap s _
    · simp

theorem farAtomic_keepsStorage (kind : FarKind) (sub : Nat) (f : FmtDA) (s : State) :
    Out.keepsStorage (farAtomic kind sub f s) s := by
  refine exchangeOnly_keepsStorage (keepsStorage_ite (keepsStorage_self s) ?_)
  dsimp only
  split
  · exact keepsStorage_trap s _
  · refine keepsStorage_ite (keepsStorage_trap s _) ?_
    split
    · exact keepsStorage_trap s _
    · exact keepsStorage_ite (keepsStorage_trap s _) (by simp)

theorem execFstat_keepsStorage (f : FmtD) (s : State) : Out.keepsStorage (execFstat f s) s := by
  unfold execFstat
  split <;> simp

theorem nmForm_keepsStorage (kind : FarKind) (sub : Nat) (f : FmtDA) (s : State) :
    Out.keepsStorage (nmForm kind sub f s) s := by
  refine exchangeOnly_keepsStorage (keepsStorage_ite (keepsStorage_self s) ?_)
  dsimp only
  split
  · exact keepsStorage_trap s _
  · refine keepsStorage_ite (keepsStorage_trap s _) ?_
    split
    · exact keepsStorage_trap s _
    · refine keepsStorage_ite (keepsStorage_trap s _) ?_
      exact (keepsStorage_next _ _).2 (storage_outFar s _ _ _ _ _ _ fun _ => by split <;> simp)

theorem execNmfence_keepsStorage (f : FmtDA) (s : State) : Out.keepsStorage (execNmfence f s) s := by
  refine exchangeOnly_keepsStorage (keepsStorage_ite (keepsStorage_self s) ?_)
  dsimp only
  split <;> simp

theorem bkForm_keepsStorage (kind : FarKind) (op sub : Nat) (f : FmtDA) (s : State) :
    Out.keepsStorage (bkForm kind op sub f s) s := by
  refine exchangeOnly_keepsStorage (keepsStorage_ite (keepsStorage_self s) ?_)
  dsimp only
  split
  · exact keepsStorage_trap s _
  · refine keepsStorage_ite (keepsStorage_trap s _) (keepsStorage_ite (keepsStorage_trap s _)
      (keepsStorage_ite (keepsStorage_trap s _) (keepsStorage_ite (keepsStorage_trap s _) (keepsStorage_ite ?_ (by simp)))))
    exact (keepsStorage_next _ _).2 (storage_acceptFar s _ _ fun _ => by split <;> simp)

theorem execTloadz_keepsStorage (f : FmtDA) (s : State) : Out.keepsStorage (execTloadz f s) s := by
  refine exchangeOnly_keepsStorage (keepsStorage_ite (keepsStorage_self s) ?_)
  dsimp only
  split
  · exact keepsStorage_trap s _
  · refine keepsStorage_ite (keepsStorage_trap s _) (keepsStorage_ite (keepsStorage_trap s _)
      (keepsStorage_ite (keepsStorage_trap s _) ?_))
    split
    · exact keepsStorage_trap s _
    · exact (keepsStorage_next _ _).2 (storage_acceptFar s _ _ fun _ => by split <;> simp)

theorem collForm_keepsStorage (k : CollKind) (f : FmtDA) (s : State) : Out.keepsStorage (collForm k f s) s := by
  refine exchangeOnly_keepsStorage (keepsStorage_ite (keepsStorage_self s) ?_)
  dsimp only
  split
  · exact keepsStorage_trap s _
  · refine keepsStorage_ite (keepsStorage_trap s _) (keepsStorage_ite (keepsStorage_trap s _) ?_)
    refine (keepsStorage_next _ _).2 (storage_outFar s _ _ _ _ _ _ fun t => ?_)
    split
    · rfl
    · exact storage_upd t fun _ => by rfl

theorem execCcancel_keepsStorage (f : FmtDA) (s : State) : Out.keepsStorage (execCcancel f s) s := by
  refine exchangeOnly_keepsStorage (keepsStorage_ite (keepsStorage_self s) ?_)
  dsimp only
  split
  · exact keepsStorage_trap s _
  · exact keepsStorage_ite (keepsStorage_trap s _) (keepsStorage_ite (keepsStorage_trap s _) (by simp))

theorem execCstat_keepsStorage (f : FmtD) (s : State) : Out.keepsStorage (execCstat f s) s := by
  unfold execCstat
  split <;> simp

theorem execCpld_keepsStorage (f : FmtDAB) (s : State) : Out.keepsStorage (execCpld f s) s := by
  refine bank1Only_keepsStorage (keepsStorage_ite (keepsStorage_self s) (keepsStorage_ite (by simp) (keepsStorage_ite (by simp)
    (keepsStorage_ite (by simp) ?_))))
  rw [keepsStorage_next, storage_scheduleCore, storage_tick, storage_give]
  exact storage_upd s fun _ => by rfl

/-! ### Mesh and fabric flits (R255, R343) -/

theorem execXsend_keepsStorage (f : FmtX) (s : State) : Out.keepsStorage (execXsend f s) s :=
  exchangeOnly_keepsStorage (keepsStorage_ite (keepsStorage_self s) (by simp))

theorem execXrecv_keepsStorage (f : FmtX) (s : State) : Out.keepsStorage (execXrecv f s) s :=
  exchangeOnly_keepsStorage (keepsStorage_ite (keepsStorage_self s) (keepsStorage_ite (keepsStorage_self s)
    (keepsStorage_ite (keepsStorage_trap s _) (by simp))))

theorem execXfwd_keepsStorage (f : FmtXFwd) (s : State) : Out.keepsStorage (execXfwd f s) s := by
  refine exchangeOnly_keepsStorage (keepsStorage_ite (keepsStorage_self s) (keepsStorage_ite (keepsStorage_trap s _) ?_))
  rw [keepsStorage_next, storage_outOp _ _ _ _ _ _ (fun t => storage_sendMesh t _ _ _) fun _ _ => rfl]
  split <;> simp

theorem execFsend_keepsStorage (f : FmtX) (s : State) : Out.keepsStorage (execFsend f s) s :=
  exchangeOnly_keepsStorage (keepsStorage_ite (keepsStorage_self s) (by simp))

theorem execFrecv_keepsStorage (f : FmtX) (s : State) : Out.keepsStorage (execFrecv f s) s :=
  exchangeOnly_keepsStorage (keepsStorage_ite (keepsStorage_self s) (by simp))

/-! ### The issue of an instruction -/

/-- The forms go by the shared operation that each of them is; an event has no encoding. -/
theorem exec_keepsStorage {i : Instr} (h : Spec.encoded i) (s : State) : Out.keepsStorage (exec i s) s := by
  unfold exec
  cases i with
  | nop => exact keepsStorage_self s
  | iadd f | isub f | imul f | imulh f | imulhu f | and f | or f | xor f | andn f | shl f | shr f | sra f | rotl f
  | min f | max f | minu f | maxu f | shadd1 f | shadd2 f | shadd3 f | iadds f | isubs f => exact sOp_keepsStorage _ _ _ s
  | clz f | popc f | mov f => exact sUn_keepsStorage _ _ s
  | sel f => exact execSel_keepsStorage _ s
  | cmpeq f | cmpne f | cmplt f | cmple f | cmpltu f | cmpleu f | cmpbit f => exact sCmp_keepsStorage _ _ s
  | mfc f | mfp f | mfb f | mfq f => exact sGet_keepsStorage _ _ _ _ s
  | mtc f => exact execMtc_keepsStorage _ s
  | mtp f => exact execMtp_keepsStorage _ s
  | mtb f => exact execMtb_keepsStorage _ s
  | mtq f => exact execMtq_keepsStorage _ s
  | mftask f => exact execMftask_keepsStorage _ s
  | mttask f => exact execMttask_keepsStorage _ s
  | trapi f => exact execTrapi_keepsStorage _ s
  | rft => exact execRft_keepsStorage s
  | br f | call f | bri f | calli f | ret f => exact transfer_keepsStorage _ _ _ _ s
  | loop f => exact execLoop_keepsStorage _ s
  | linc f => exact execLinc_keepsStorage _ s
  | lexit f => exact execLexit_keepsStorage _ s
  | rot f => exact execRot_keepsStorage _ s
  | barr f => exact execBarr_keepsStorage _ s
  | bwait f => exact execBwait_keepsStorage _ s
  | bsync f => exact execBsync_keepsStorage _ s
  | phase f | phaseRg f => exact phaseWith_keepsStorage _ _ _ s
  | halt f => exact execHalt_keepsStorage _ s
  | vaddF32 f | vaddF16 f | vaddBf16 f | vsubF32 f | vsubF16 f | vsubBf16 f | vmulF32 f | vmulF16 f | vmulBf16 f
  | vminF32 f | vminF16 f | vminBf16 f | vmaxF32 f | vmaxF16 f | vmaxBf16 f | viminI32 f | viminI16 f | viminI8 f
  | vimaxI32 f | vimaxI16 f | vimaxI8 f | viaddI32 f | viaddI16 f | viaddI8 f | visubI32 f | visubI16 f | visubI8 f
  | vimulI32 f | vimulI16 f | vimulI8 f => exact vBin_keepsStorage _ _ _ s
  | vfmaF32 f | vfmaF16 f | vfmaBf16 f => exact vFma_keepsStorage _ _ s
  | vand f | vor f | vxor f | vandn f | vshl f | vshr f | vsra f => exact vLogic_keepsStorage _ _ s
  | vperm f | vbcst f => exact vLanes_keepsStorage _ _ _ s
  | vsel f => exact execVsel_keepsStorage _ s
  | vredAddF32 f | vredMaxF32 f | vredMinF32 f | vredAddI32 f | vredMaxI32 f | vredMinI32 f | vexp2 f | vlog2 f
  | vrcp f | vrsq f | vmov f => exact vUn_keepsStorage _ _ _ s
  | vflg f => exact execVflg_keepsStorage _ s
  | vcvt f | vcvts f => exact vCvt_keepsStorage _ _ s
  | vbmax f => exact execVbmax_keepsStorage _ s
  | vbcvt f => exact execVbcvt_keepsStorage _ s
  | vqdual f => exact execVqdual_keepsStorage _ s
  | vdq f => exact execVdq_keepsStorage _ s
  | vstr f => exact execVstr_keepsStorage _ s
  | vstw f => exact execVstw_keepsStorage _ s
  | vfcmpeq f | vfcmpne f | vfcmplt f | vfcmple f | vfcmpun f | vicmpeq f | vicmpne f | vicmplt f | vicmple f
  | vicmpltu f | vicmpleu f => exact vCmp_keepsStorage _ _ s
  | mldw f => exact execMldw_keepsStorage _ s
  | mldwb f => exact execMldwb_keepsStorage _ s
  | mswap f => exact execMswap_keepsStorage _ s
  | mstream f | mstreamb f => exact mstream_keepsStorage _ _ s
  | mclr f => exact execMclr_keepsStorage _ s
  | msetp f => exact execMsetp_keepsStorage _ s
  | mdrain f => exact execMdrain_keepsStorage _ s
  | mflg f => exact execMflg_keepsStorage _ s
  | mclrf f => exact execMclrf_keepsStorage _ s
  | ldw f | ldwReg f | ldh f | ldhReg f | ldhu f | ldhuReg f | ldb f | ldbReg f | ldbu f | ldbuReg f =>
    exact loadS_keepsStorage _ _ _ _ _ _ s
  | stw f | stwReg f | sth f | sthReg f | stb f | stbReg f => exact storeS_keepsStorage _ _ _ _ _ _ s
  | vldV0 f | vldV0Reg f | vldV1 f | vldV1Reg f => exact loadV_keepsStorage _ _ _ _ _ s
  | vstV0 f | vstV0Reg f | vstV1 f | vstV1Reg f => exact storeV_keepsStorage _ _ _ _ _ _ s
  | vgthV0 f | vgthV1 f => exact gather_keepsStorage _ _ s
  | vsctV0 f | vsctV1 f => exact scatter_keepsStorage _ _ _ s
  | qpushV0 f | qpushV1 f => exact ringPush_keepsStorage _ _ s
  | qpopV0 f | qpopV1 f => exact ringPop_keepsStorage _ _ s
  | spadd f | spaddReg f | spmax f | spmaxReg f | spswp f | spswpReg f => exact spAtomic_keepsStorage _ _ _ _ _ s
  | cpyld f => exact execCpyld_keepsStorage _ s
  | cpygo f => exact execCpygo_keepsStorage _ s
  | cpystat f => exact execCpystat_keepsStorage _ s
  | vbcpySs f | vbcpyBs f | vbcpySb f => exact vbcpy_keepsStorage _ _ s
  | wbzero f | wbcopy f | wbcmp f => exact bankForm_keepsStorage _ _ _ _ _ _ _ _ s
  | wbfence f => exact execWbfence_keepsStorage _ s
  | lupd f => exact execLupd_keepsStorage _ s
  | wbtag f => exact execWbtag_keepsStorage _ s
  | tload f | tstore f => exact tileForm_keepsStorage _ _ s
  | tloadz f => exact execTloadz_keepsStorage _ s
  | gacq f | gacqX f | gacqS f | grel f | grelX f | grelS f => exact guardForm_keepsStorage _ _ _ _ _ _ _ s
  | fadd f | fcas f | fswap f => exact farAtomic_keepsStorage _ _ _ s
  | nmsadd f | nmsgd f | nmzero f | nmcopy f | nmcmp f => exact nmForm_keepsStorage _ _ _ s
  | nmfence f => exact execNmfence_keepsStorage _ s
  | bkalloc f | bkxlat f | bkshare f | bkfree f | bkload f | bkstore f => exact bkForm_keepsStorage _ _ _ _ s
  | fstat f => exact execFstat_keepsStorage _ s
  | collAr f | collRs f | collAg f | collBc f => exact collForm_keepsStorage _ _ s
  | ccancel f => exact execCcancel_keepsStorage _ s
  | cstat f => exact execCstat_keepsStorage _ s
  | cpld f => exact execCpld_keepsStorage _ s
  | xsend f => exact execXsend_keepsStorage _ s
  | xrecv f => exact execXrecv_keepsStorage _ s
  | xfwd f => exact execXfwd_keepsStorage _ s
  | fsend f => exact execFsend_keepsStorage _ s
  | frecv f => exact execFrecv_keepsStorage _ s
  | _ => obtain h | ⟨_, h⟩ := h <;> cases h

/-- Settles O60: the equation of the two storages that `exec_keepsStorage` gives, read part by part. -/
theorem issueChangesNoFileAndNoMemory : Obligations.IssueChangesNoFileAndNoMemory := by
  intro i s t hi ht
  have h : t.storage = s.storage := exec_keepsStorage hi s t ht
  refine ⟨fun k => ?_, fun k => congrFun (congrArg Storage.banks h) k, fun k => ?_⟩
  · have hk : (t.core k).storage = (s.core k).storage := congrFun (congrArg Storage.core h) k
    injection hk with h0 h1 hsp himem htiles hplanes hstat
    exact ⟨(sameFiles_iff_files _ _).2 h0, (sameFiles_iff_files _ _).2 h1, hsp, himem, htiles, hplanes, hstat⟩
  · have hk : (t.pkg k).farStorage = (s.pkg k).farStorage := congrFun (congrArg Storage.far h) k
    injection hk with hhbm h'
    injection h' with htier hhost
    exact ⟨hhbm, htier, hhost⟩

end Sys2Proof.Machine
end

section
/-! Base registers and stage predicates under rotation, the state right after reset, and why the canonical form of the local
memories is not an invariant alone (03_core_state.md R60, R67, R77 to R79). -/

namespace Sys2Proof.Machine

/-! ### Rotated names (R67) -/

/-- MFB's word: the base register below, zeros above (R67). -/
theorem extract_zeroExtend_base (x : BitVec 23) :
    (x.zeroExtend 32).extractLsb' 0 23 = x ∧ (x.zeroExtend 32).extractLsb' 23 9 = 0#9 := by
  constructor
  · ext i hi
    simp [hi, Nat.lt_trans hi (show 23 < 32 by decide)]
  · ext i hi
    simp

/-- A stage predicate's name selects the rotated physical predicate (R67). -/
theorem readP_stage (b : Bank) {n : Nat} (h : 8 ≤ n) : b.readP n = b.p.getLsbD (8 + (n - 8 + b.prb.toNat) % 8) := by
  rw [Bank.readP, physP, if_neg (by omega), beq_false_of_ne (by omega), Bool.false_or]

/-- The predicates p1 to p7 are not rotated (R67). -/
theorem readP_unrotated (b : Bank) {n : Nat} (h : 1 ≤ n) (h8 : n < 8) : b.readP n = b.p.getLsbD n := by
  rw [Bank.readP, physP, if_pos h8, beq_false_of_ne (by omega), Bool.false_or]

/-- A result sent by the executing core is what the statements write as `sent` (R80). -/
theorem upd_send_eq_sent (s : State) (left : Nat) (k : PendKind) :
    (s.upd fun c => c.send left k) = Spec.sent s [(left, k)] [] :=
  congrArg (fun l => s.setCore s.ictx.core (Spec.pending s.cur l)) (List.append_nil _).symm

/-- A core that sends a result and releases its source where the last-use bit says so (R64, R80). -/
theorem send_lastUse_eq_pending (c : Core) (left : Nat) (k : PendKind) (file : Nat) (bit : Bool) (r : BitVec 6) :
    (c.send left k).lastUse file bit r = Spec.pending c (c.pend ++ [⟨left, c.cur, c.cur, k⟩] ++
      if bit && decide (r.toNat < 48) then [⟨0, c.cur, c.cur, .release file r⟩] else []) := by
  rw [Core.lastUse]
  split
  · rfl
  · rw [List.append_nil]; rfl

/-- A result and the release of its source, sent by the executing core (R64, R80). -/
theorem upd_send_lastUse_eq_sent (s : State) (left : Nat) (k : PendKind) (file : Nat) (bit : Bool) (r : BitVec 6) :
    (s.upd fun c => (c.send left k).lastUse file bit r) = Spec.sent s [(left, k)] [(file, bit, r)] := by
  refine congrArg (s.setCore s.ictx.core) ((send_lastUse_eq_pending _ left k file bit r).trans ?_)
  by_cases h : (bit && decide (r.toNat < 48)) = true
  · rw [if_pos h, List.filter_cons_of_pos (by exact h)]; rfl
  · rw [if_neg h, List.filter_cons_of_neg (by exact h)]; rfl

/-- Settles O50: the names are read through `physB` and `physP`, and MFB and MTB send what they name. -/
theorem baseAndStageNamesAreRotated : Obligations.BaseAndStageNamesAreRotated := by
  refine ⟨fun b n _ => rfl, fun b n h _ => readP_stage b h, fun b n h h8 => readP_unrotated b h h8, fun f s hg => ?_,
    fun f s hg => ?_⟩
  · refine ⟨(s.cur.bank.readB f.n.toNat).zeroExtend 32, ?_, extract_zeroExtend_base _⟩
    rw [show exec (.mfb f) s = sGet f.gn f.g f.d ((s.cur.bank.readB f.n.toNat).zeroExtend 32) s from rfl, sGet, if_pos hg,
      upd_send_eq_sent]
  · rw [show exec (.mtb f) s = execMtb f s from rfl, execMtb, if_pos hg, upd_send_lastUse_eq_sent]
    rfl

/-! ### Right after reset -/

theorem reset_canonical : State.reset.canonical := ⟨rfl, rfl, rfl, rfl⟩

theorem reset_localMemories : Spec.localMemories State.reset := fun _ => core_reset_memories

theorem reset_memoriesCanonical : State.reset.memoriesCanonical :=
  ⟨reset_localMemories, fun _ => column_reset_memories, fun _ => pkg_reset_memories⟩

theorem readP_reset (n : Nat) : Bank.reset.readP n = (n == 0) := by
  simp [Bank.readP, Bank.reset]

/-- Settles O55: every part reads as its reset value, since nothing is listed. -/
theorem resetLeavesTheResetValues : Obligations.ResetLeavesTheResetValues := by
  refine ⟨reset_canonical, reset_memoriesCanonical, reset_localMemories, fun k => ?_, readP_reset, rfl, rfl, rfl, rfl, rfl,
    fun k => ⟨rfl, rfl, rfl, rfl⟩, fun d => ⟨rfl, rfl, rfl, rfl, ?_⟩, fun k => ?_⟩
  · exact ⟨rfl, rfl, rfl, rfl, rfl, rfl, rfl, rfl, rfl, rfl, rfl, rfl, rfl, rfl, rfl⟩
  · exact (by decide : ∀ q < 16, sget 0 Die.reset.qslice q = 0x00400000#32)
  · exact ⟨rfl, rfl, rfl, rfl, rfl, rfl, rfl, rfl, rfl, rfl, rfl, fun _ => rfl⟩

/-! ### The local memories of cores that are listed out of order (R78, R79; log 1, log 3) -/

/-- A machine whose list of cores is out of order: core 3 stands behind core 1030 of package 1, where no key reads it, and holds
a scratchpad that lists a zero byte; package 1 is about to be reset. -/
def outOfOrder : State :=
  { State.reset with
    cores := [(1030, Core.reset), (3, { Core.reset with sp := [(0, 0)] })],
    todo := [.op (evK .packageReset 1)] }

/-- Every core of it reads as a core after reset. -/
theorem core_outOfOrder (k : Nat) : outOfOrder.core k = Core.reset := by
  by_cases h : k < 1030
  · exact sget_cons_lt Core.reset _ _ h
  · by_cases h' : k = 1030
    · subst h'; exact sget_cons_eq ..
    · exact (sget_cons_gt _ _ _ (by omega)).trans (sget_cons_gt _ _ _ (by omega))

theorem localMemories_outOfOrder : Spec.localMemories outOfOrder := fun k => by
  rw [core_outOfOrder]; exact core_reset_memories

/-- The reset of package 1 clears core 1030, so that core 3 is read again with what stood hidden. -/
theorem sp_of_outOfOrder_reset :
    (({ outOfOrder with todo := [], ev := evK .packageReset 1 } : State).resetPackage 1 false).core 3 =
      { Core.reset with sp := [(0, 0)] } := by
  decide +kernel

/-- Refutes O57: where the list of the cores is out of order, the reset of a package can bring a core to light that no key read
before it, and with it a scratchpad that is not canonical. The statement does not ask for cores listed in order. -/
theorem not_everyStepKeepsTheLocalMemoriesCanonical : ¬ Obligations.EveryStepKeepsTheLocalMemoriesCanonical := by
  intro h
  have hstep : step outOfOrder =
      .next (({ outOfOrder with todo := [], ev := evK .packageReset 1 } : State).resetPackage 1 false) := rfl
  have hwf := (h _ _ localMemories_outOfOrder hstep 3).1
  rw [sp_of_outOfOrder_reset] at hwf
  exact absurd hwf (by decide)

end Sys2Proof.Machine
end

section

/-!
## The canonical form of the machine is kept by every step (R59, log 1)

An operation of the model changes a part only through the writes of the sparse maps (`setCore`, `modCol`, `modDie`,
`modPkg`, ...), each of which keeps the canonical form (`canonical_setCore` and its like, in the model's laws). One lemma per
operation says that its result is canonical; its proof follows the branches of the definition and cites the lemmas of the
operations it calls. `canonical_exec` collects the instructions and events, `canonical_step` the micro-steps.
-/
namespace Sys2Proof.Machine

/-- The state an outcome goes on with, if any, is in the canonical form. -/
def Out.canonical (o : Out) : Prop := ∀ t, o = .next t → t.canonical

theorem Out.canonical_next {s : State} (h : s.canonical) : Out.canonical (.next s) := fun _ ht => by
  cases ht
  exact h

/-- The state of an answer is in the canonical form. -/
def pairCanonical {α : Type} (x : State × α) : Prop := x.1.canonical

theorem canonical_update {s : State} (h : s.canonical) {fab dx dy dz primary standby : Nat} {msgs : List Msg} {msgId : Nat}
    {ictx : Ictx} {ev : Ev} {todo : List Micro} {agenda : List Due} {inputs : List Input} {fresh : Nat} :
    State.canonical ⟨s.cores, s.columns, s.dies, s.pkgs, fab, dx, dy, dz, primary, standby, msgs, msgId, ictx, ev, todo,
      agenda, inputs, fresh⟩ := h

theorem canonical_withCores {s : State} (h : s.canonical) {m : SMap Core} (hm : swf Core.reset m = true) :
    State.canonical { s with cores := m } := ⟨hm, h.2⟩

theorem canonical_ite {p : Prop} [Decidable p] {s t : State} (hs : s.canonical) (ht : t.canonical) :
    (if p then s else t).canonical := by
  split
  · exact hs
  · exact ht

theorem canonical_withSites {s : State} (h : s.canonical) {m : SMap Core} {n : SMap Column} (hm : swf Core.reset m = true)
    (hn : swf Column.reset n = true) : State.canonical { s with cores := m, columns := n } := ⟨hm, hn, h.2.2⟩

theorem canonical_optionStore (o : Option (List (Nat × Byte))) {s : State} {f : List (Nat × Byte) → State × Bool}
    (h : s.canonical) (hf : ∀ w, (f w).1.canonical) :
    (match o with
      | none => s
      | some w => (f w).1).canonical := by
  cases o with
  | none => exact h
  | some w => exact hf w

theorem Out.canonical_ite {p : Prop} [Decidable p] {o q : Out} (ho : Out.canonical o) (hq : Out.canonical q) :
    Out.canonical (if p then o else q) := by
  split
  · exact ho
  · exact hq

/-! ### Core accessors and scratchpad accesses -/

theorem canonical_atOnce {s : State} (h : s.canonical) (e : Ev) : (s.atOnce e).canonical :=
  canonical_update h

/-! ### Scalar instructions -/

theorem canonical_bank1Only {s : State} (h : s.canonical) {f : State → Out}
    (hf : ∀ t : State, t.canonical → Out.canonical (f t)) :
    Out.canonical (bank1Only s f) :=
  Out.canonical_ite (hf s h) (Out.canonical_next (canonical_trap h _))

theorem canonical_exchangeOnly {s : State} (h : s.canonical) {f : State → Out}
    (hf : ∀ t : State, t.canonical → Out.canonical (f t)) :
    Out.canonical (exchangeOnly s f) :=
  Out.canonical_ite (Out.canonical_next (canonical_trap h _)) (hf s h)

theorem canonical_computeOnly {s : State} (h : s.canonical) {f : State → Out}
    (hf : ∀ t : State, t.canonical → Out.canonical (f t)) :
    Out.canonical (computeOnly s f) :=
  Out.canonical_ite (hf s h) (Out.canonical_next (canonical_trap h _))

theorem canonical_sOp {s : State} (h : s.canonical) (f : FmtR) (lat : Nat) (g : W → W → W) : Out.canonical (sOp f lat g s) :=
  Out.canonical_ite (Out.canonical_next (canonical_upd h _)) (Out.canonical_next (canonical_upd h _))

theorem canonical_sUn {s : State} (h : s.canonical) (f : FmtRA) (g : W → W) : Out.canonical (sUn f g s) :=
  Out.canonical_ite (Out.canonical_next (canonical_upd h _)) (Out.canonical_next (canonical_upd h _))

theorem canonical_sGet {s : State} (h : s.canonical) (gn : Bool) (g : BitVec 4) (d : BitVec 6) (r : W) : Out.canonical
    (sGet gn g d r s) :=
  Out.canonical_ite (Out.canonical_next (canonical_upd h _)) (Out.canonical_next h)

theorem canonical_sCmp {s : State} (h : s.canonical) (f : FmtP) (c : W → W → Bool) : Out.canonical (sCmp f c s) :=
  Out.canonical_next (canonical_upd h _)

theorem canonical_writeCtl {s : State} (h : s.canonical) (k : Nat) (bank : Bool) (sel : BitVec 6) (v : W) :
    (s.writeCtl k bank sel v).canonical := by
  unfold State.writeCtl
  extract_lets onBank _ takeEffect
  have honBank : ∀ f, (onBank f).canonical := fun _ => canonical_modCore h _ _
  have htakeEffect : ∀ (u : State), u.canonical → (takeEffect u).canonical := fun _ ht => canonical_scheduleCore
    (canonical_unschedule ht _) _ _ _
  split
  · exact honBank _
  · exact honBank _
  · exact honBank _
  · exact canonical_modCol h _ _
  · exact htakeEffect _ (canonical_modCol h _ _)
  · exact htakeEffect _ (canonical_modCol h _ _)
  · exact canonical_modCore h _ _
  · exact canonical_modCore h _ _
  · exact canonical_modCore h _ _
  · exact canonical_modCore h _ _
  · exact canonical_modCore h _ _
  · exact canonical_modCore h _ _
  · exact canonical_modCore h _ _
  · exact canonical_ite (honBank _) h

theorem canonical_execSel {s : State} (h : s.canonical) (f : FmtR) : Out.canonical (execSel f s) :=
  Out.canonical_next (canonical_upd h _)

theorem canonical_execMtc {s : State} (h : s.canonical) (f : FmtMtc) : Out.canonical (execMtc f s) :=
  Out.canonical_ite (Out.canonical_next (canonical_trap h _))
    (Out.canonical_ite (Out.canonical_ite (Out.canonical_next (canonical_trap h _)) (Out.canonical_next (canonical_upd h _)))
    (Out.canonical_next (canonical_upd h _)))

theorem canonical_execMfp {s : State} (h : s.canonical) (f : FmtD) : Out.canonical (execMfp f s) :=
  canonical_sGet h _ _ _ _

theorem canonical_execMtp {s : State} (h : s.canonical) (f : FmtMtp) : Out.canonical (execMtp f s) :=
  Out.canonical_ite (Out.canonical_next (canonical_upd h _)) (Out.canonical_next (canonical_upd h _))

theorem canonical_execMtb {s : State} (h : s.canonical) (f : FmtMtb) : Out.canonical (execMtb f s) :=
  Out.canonical_ite (Out.canonical_next (canonical_upd h _)) (Out.canonical_next (canonical_upd h _))

theorem canonical_execMtq {s : State} (h : s.canonical) (f : FmtMtq) : Out.canonical (execMtq f s) :=
  Out.canonical_ite (Out.canonical_next (canonical_upd h _)) (Out.canonical_next (canonical_upd h _))

theorem canonical_execMftask {s : State} (h : s.canonical) (f : FmtMftask) : Out.canonical (execMftask f s) :=
  canonical_bank1Only h (fun _ ht => canonical_sGet ht _ _ _ _)

theorem canonical_execMttask {s : State} (h : s.canonical) (f : FmtMttask) : Out.canonical (execMttask f s) :=
  canonical_bank1Only h (fun _ ht => Out.canonical_ite (Out.canonical_next (canonical_upd ht _))
    (Out.canonical_next (canonical_upd ht _)))

theorem canonical_execTrapi {s : State} (h : s.canonical) (f : FmtTrapi) : Out.canonical (execTrapi f s) :=
  Out.canonical_ite (Out.canonical_next (canonical_trap h _)) (Out.canonical_next h)

theorem canonical_execRft {s : State} (h : s.canonical) : Out.canonical (execRft s) :=
  canonical_bank1Only h (fun _ ht => Out.canonical_next (canonical_upd ht _))

/-! ### Results becoming visible -/

theorem canonical_visible {s : State} (h : s.canonical) (k : Nat) (e : Pend) : (s.visible k e).canonical := by
  unfold State.visible
  extract_lets on
  have hon : ∀ f, (on f).canonical := fun _ => canonical_modCore h _ _
  split
  · exact hon _
  · exact hon _
  · exact hon _
  · exact canonical_modCore h _ _
  · exact canonical_modCore h _ _
  · exact hon _
  · exact hon _
  · exact hon _
  · exact hon _
  · exact hon _
  · exact canonical_writeCtl h _ _ _ _
  · exact hon _
  · exact hon _
  · exact canonical_modCore h _ _
  · exact canonical_modCore h _ _
  · exact hon _
  · exact h
  · exact h
  · exact h
  · exact h
  · exact h

theorem canonical_visibleAfter {s : State} (h : s.canonical) (k : Nat) (done : List Pend) (e : Pend) :
    (s.visibleAfter k done e).canonical := by
  unfold State.visibleAfter
  extract_lets s₁
  have h₁ : s₁.canonical := canonical_visible h _ _
  split
  · exact canonical_ite h₁ (canonical_foldl _ _ (fun _ _ hs => canonical_modCore hs _ _) h₁)
  · exact h₁

theorem canonical_showAll {s : State} (h : s.canonical) (k : Nat) (done l : List Pend) : (s.showAll k done l).canonical := by
  induction l generalizing s done with
  | nil => exact h
  | cons e l ih => exact ih (canonical_visibleAfter h k done e) _

theorem canonical_execResultVisible {s : State} (h : s.canonical) : Out.canonical (execResultVisible s) :=
  Out.canonical_next (canonical_showAll (canonical_setCore h _ _) _ _ _)

theorem canonical_execC0WriteApplied {s : State} (h : s.canonical) : Out.canonical (execC0WriteApplied s) :=
  Out.canonical_next (canonical_setCore h _ _)

theorem canonical_flushReleases {s : State} (h : s.canonical) (k : Nat) : (s.flushReleases k).canonical :=
  canonical_ite h (canonical_foldl _ _ (fun _ _ hs => canonical_modCore (canonical_visible hs _ _) _ _)
    (canonical_setCore h _ _))

theorem canonical_execVbcvtLateRead {s : State} (h : s.canonical) : Out.canonical (execVbcvtLateRead s) :=
  Out.canonical_next (canonical_flushReleases (canonical_modCore h _ _) _)

theorem canonical_execMulticastLand {s : State} (h : s.canonical) : Out.canonical (execMulticastLand s) := by
  unfold execMulticastLand
  extract_lets _ _ _ s₁
  have h₁ : s₁.canonical := canonical_setCore h _ _
  refine Out.canonical_next ?_
  refine canonical_foldl _ _ (fun s x hs => ?_) h₁
  split
  · exact canonical_foldl _ _ (fun _ _ hs₁ => canonical_ite (canonical_modCore hs₁ _ _) hs₁) hs
  · exact hs

/-! ### Local memory instructions -/

theorem canonical_mcastStore {s : State} (h : s.canonical) (op a : Nat) (bs : List Byte) : (s.mcastStore op a bs).canonical :=
  canonical_outOp h _ _ _ _ _ (fun _ ht => canonical_upd ht _) (fun _ _ ht => ht)

theorem canonical_localStore {s : State} (h : s.canonical) (a : Nat) (bs : List Byte) : (s.localStore a bs).canonical :=
  canonical_ite (canonical_trap h _) (canonical_upd h _)

theorem canonical_storeAt {s : State} (h : s.canonical) (op : Nat) (ea align : Int) (bs : List Byte) :
    (s.storeAt op ea align bs).canonical := by
  unfold State.storeAt
  split
  · exact canonical_trap h _
  · exact canonical_ite (canonical_mcastStore h _ _ _) (canonical_localStore h _ _)

theorem canonical_loadS {s : State} (h : s.canonical) (gn : Bool) (g : BitVec 4) (d : BitVec 6) (n : Nat) (ext : Nat → W)
    (ea : State → Int) : Out.canonical (loadS gn g d n ext ea s) := by
  unfold loadS
  split
  · exact Out.canonical_next h
  · split
    · exact Out.canonical_next (canonical_trap h _)
    · exact Out.canonical_next (canonical_upd h _)

theorem canonical_storeS {s : State} (h : s.canonical) (gn : Bool) (g : BitVec 4) (op n : Nat) (d : BitVec 6) (ea : State → Int)
    : Out.canonical (storeS gn g op n d ea s) :=
  Out.canonical_ite (Out.canonical_next h) (Out.canonical_next (canonical_storeAt h _ _ _ _))

theorem canonical_loadV {s : State} (h : s.canonical) (gn : Bool) (g : BitVec 4) (u : Bool) (d : BitVec 6) (ea : State → Int) :
    Out.canonical (loadV gn g u d ea s) := by
  unfold loadV
  split
  · exact Out.canonical_next h
  · split
    · exact Out.canonical_next (canonical_trap h _)
    · exact Out.canonical_next (canonical_upd h _)

theorem canonical_storeV {s : State} (h : s.canonical) (gn : Bool) (g : BitVec 4) (op : Nat) (u : Bool) (d : BitVec 6)
    (ea : State → Int) : Out.canonical (storeV gn g op u d ea s) :=
  Out.canonical_ite (Out.canonical_next h) (Out.canonical_next (canonical_storeAt h _ _ _ _))

theorem canonical_gather {s : State} (h : s.canonical) (u : Bool) (f : FmtC0R) : Out.canonical (gather u f s) := by
  unfold gather
  split
  · exact Out.canonical_next h
  · extract_lets _
    split
    · exact Out.canonical_next (canonical_trap h _)
    · exact Out.canonical_next (canonical_upd h _)

theorem canonical_scatter {s : State} (h : s.canonical) (op : Nat) (u : Bool) (f : FmtC0R) : Out.canonical
    (scatter op u f s) := by
  unfold scatter
  split
  · exact Out.canonical_next h
  · extract_lets _ _
    split
    · exact Out.canonical_next (canonical_trap h _)
    · exact Out.canonical_ite (Out.canonical_next (canonical_trap h _))
        (Out.canonical_next (canonical_foldl _ _ (fun _ _ hs => canonical_mcastStore hs _ _ _)
        (canonical_ite h (canonical_upd h _))))

theorem canonical_ringPush {s : State} (h : s.canonical) (u : Bool) (f : FmtC0Q) : Out.canonical (ringPush u f s) := by
  unfold ringPush
  split
  · exact Out.canonical_next h
  · extract_lets _ _ _
    split
    · exact Out.canonical_next (canonical_trap h _)
    · exact Out.canonical_ite (Out.canonical_next (canonical_trap h _))
        (Out.canonical_ite (Out.canonical_next (canonical_trap h _))
        (Out.canonical_ite (Out.canonical_next (canonical_trap h _)) (Out.canonical_next (canonical_upd h _))))

theorem canonical_ringPop {s : State} (h : s.canonical) (u : Bool) (f : FmtC0Q) : Out.canonical (ringPop u f s) := by
  unfold ringPop
  split
  · exact Out.canonical_next h
  · exact Out.canonical_ite (Out.canonical_next (canonical_trap h _))
      (Out.canonical_ite (Out.canonical_next (canonical_trap h _))
      (Out.canonical_ite (Out.canonical_next (canonical_trap h _)) (Out.canonical_next (canonical_upd h _))))

theorem canonical_spAtomic {s : State} (h : s.canonical) (gn : Bool) (g : BitVec 4) (op : Nat) (d : BitVec 6) (ea : State → Int)
    : Out.canonical (spAtomic gn g op d ea s) := by
  unfold spAtomic
  split
  · exact Out.canonical_next h
  · split
    · exact Out.canonical_next (canonical_trap h _)
    · exact Out.canonical_ite (Out.canonical_next (canonical_trap h _)) (Out.canonical_next (canonical_upd h _))

/-! ### Matrix instructions -/

theorem canonical_execMldw {s : State} (h : s.canonical) (f : FmtMldw) : Out.canonical (execMldw f s) := by
  unfold execMldw
  split
  · exact Out.canonical_next h
  · extract_lets _ _ _ _
    split
    · exact Out.canonical_next (canonical_trap h _)
    · split
      · exact Out.canonical_next (canonical_trap h _)
      · exact Out.canonical_ite (Out.canonical_next (canonical_trap h _))
          (Out.canonical_ite (Out.canonical_next (canonical_trap h _))
          (Out.canonical_next (canonical_scheduleCore (canonical_upd h _) _ _ _)))

theorem canonical_execMldwb {s : State} (h : s.canonical) (f : FmtMldwb) : Out.canonical (execMldwb f s) :=
  Out.canonical_ite (Out.canonical_next h)
    (Out.canonical_ite (Out.canonical_next (canonical_trap h _))
    (Out.canonical_next (canonical_scheduleCore (canonical_upd h _) _ _ _)))

theorem canonical_execMswap {s : State} (h : s.canonical) (f : FmtG) : Out.canonical (execMswap f s) :=
  Out.canonical_ite (Out.canonical_next (canonical_upd h _)) (Out.canonical_next h)

theorem canonical_execPlaneRowWrite {s : State} (h : s.canonical) : Out.canonical (execPlaneRowWrite s) := by
  unfold execPlaneRowWrite
  extract_lets _ _ _ _
  split
  · exact Out.canonical_next h
  · exact Out.canonical_ite (Out.canonical_next (canonical_ite (canonical_scheduleCore (canonical_setCore h _ _) _ _ _)
      (canonical_setCore h _ _))) (Out.canonical_next (canonical_scheduleCore (canonical_setCore h _ _) _ _ _))

theorem canonical_execPlaneLoadComplete {s : State} (h : s.canonical) : Out.canonical (execPlaneLoadComplete s) :=
  Out.canonical_next (canonical_modCore h _ _)

theorem canonical_mstream {s : State} (h : s.canonical) (f : FmtMstream) (back : Bool) : Out.canonical (mstream f back s) := by
  unfold mstream
  refine canonical_computeOnly h (fun t ht => ?_)
  split
  · exact Out.canonical_next ht
  · extract_lets _ _ _ _ _ _ _ s₂
    have h₂ : s₂.canonical := canonical_upd ht _
    split
    · exact Out.canonical_next (canonical_trap ht _)
    · split
      · exact Out.canonical_next (canonical_trap ht _)
      · exact Out.canonical_ite (Out.canonical_next (canonical_trap ht _))
          (Out.canonical_ite (Out.canonical_next (canonical_trap ht _))
          (Out.canonical_next (canonical_ite (canonical_scheduleCore h₂ _ _ _) h₂)))

theorem canonical_execStreamVectorBegin {s : State} (h : s.canonical) : Out.canonical (execStreamVectorBegin s) := by
  unfold execStreamVectorBegin
  extract_lets _ _ _
  split
  · exact Out.canonical_next h
  · split
    · exact Out.canonical_next h
    · extract_lets _ _ _ _ _ _ _ _ s₁ s₂ s₃
      have h₁ : s₁.canonical := canonical_setCore h _ _
      have h₂ : s₂.canonical := canonical_scheduleCore h₁ _ _ _
      have h₃ : s₃.canonical := canonical_ite (canonical_scheduleCore h₂ _ _ _) h₂
      split
      · exact Out.canonical_next h₃
      · exact Out.canonical_next (canonical_scheduleCore h₃ _ _ _)

theorem canonical_execLineSumAdd {s : State} (h : s.canonical) : Out.canonical (execLineSumAdd s) :=
  Out.canonical_next (canonical_modCore h _ _)

theorem canonical_execStreamRetire {s : State} (h : s.canonical) : Out.canonical (execStreamRetire s) :=
  Out.canonical_next (canonical_modCore h _ _)

theorem canonical_execMclr {s : State} (h : s.canonical) (f : FmtMclr) : Out.canonical (execMclr f s) :=
  canonical_computeOnly h (fun _ ht => Out.canonical_ite (Out.canonical_next ht)
    (Out.canonical_ite (Out.canonical_next (canonical_trap ht _))
    (Out.canonical_next (canonical_scheduleCore (canonical_upd ht _) _ _ _))))

theorem canonical_execMsetp {s : State} (h : s.canonical) (f : FmtMsetp) : Out.canonical (execMsetp f s) := by
  unfold execMsetp
  split
  · exact Out.canonical_next h
  · exact Out.canonical_ite (Out.canonical_next (canonical_trap h _))
      (Out.canonical_ite (Out.canonical_next (canonical_scheduleCore (canonical_upd (canonical_upd h _) _) _ _ _))
      (Out.canonical_next (canonical_upd h _)))

theorem canonical_execMflg {s : State} (h : s.canonical) (f : FmtMflg) : Out.canonical (execMflg f s) :=
  Out.canonical_ite (Out.canonical_next (canonical_upd h _)) (Out.canonical_next h)

theorem canonical_execMclrf {s : State} (h : s.canonical) (f : FmtMclrf) : Out.canonical (execMclrf f s) :=
  Out.canonical_ite (Out.canonical_next (canonical_upd h _)) (Out.canonical_next h)

theorem canonical_execMdrain {s : State} (h : s.canonical) (f : FmtMdrain) : Out.canonical (execMdrain f s) := by
  unfold execMdrain
  refine canonical_computeOnly h (fun t ht => ?_)
  split
  · exact Out.canonical_next ht
  · extract_lets _ _ _ _ _ _ _ _ s₂
    have h₂ : s₂.canonical := canonical_upd ht _
    split
    · exact Out.canonical_next (canonical_trap ht _)
    · split
      · exact Out.canonical_next (canonical_trap ht _)
      · exact Out.canonical_ite (Out.canonical_next (canonical_trap ht _))
          (Out.canonical_ite (Out.canonical_next (canonical_trap ht _)) (Out.canonical_next (canonical_scheduleCore h₂ _ _ _)))

theorem canonical_execDrainRowWrite {s : State} (h : s.canonical) : Out.canonical (execDrainRowWrite s) := by
  unfold execDrainRowWrite
  extract_lets _ _ _ _
  split
  · exact Out.canonical_next h
  · exact Out.canonical_ite (Out.canonical_next (canonical_scheduleCore (canonical_setCore h _ _) _ _ _))
      (Out.canonical_next (canonical_scheduleCore (canonical_setCore h _ _) _ _ _))

/-! ### Copies and the sequencer of a core -/

theorem canonical_enqueueCopy {s : State} (h : s.canonical) (k : Nat) (kind : CopyKind) (desc : BitVec 512) (db : Nat)
    (slot : Option RingSlot) (ticket : Nat) : (s.enqueueCopy k kind desc db slot ticket).canonical :=
  canonical_ite (canonical_scheduleCore (canonical_modCore h _ _) _ _ _) (canonical_modCore h _ _)

theorem canonical_execCpyld {s : State} (h : s.canonical) (f : FmtGA) : Out.canonical (execCpyld f s) := by
  unfold execCpyld
  split
  · exact Out.canonical_next h
  · split
    · exact Out.canonical_next (canonical_trap h _)
    · exact Out.canonical_ite (Out.canonical_next (canonical_upd h _)) (Out.canonical_next (canonical_trap h _))

theorem canonical_execCpygo {s : State} (h : s.canonical) (f : FmtD) : Out.canonical (execCpygo f s) := by
  unfold execCpygo
  split
  · exact Out.canonical_next h
  · extract_lets _ _ give _ _ _ _
    have hgive : ∀ v (u : State), u.canonical → (give v u).canonical := fun _ _ ht => canonical_upd ht _
    split
    · exact Out.canonical_next (hgive _ _ h)
    · split
      · exact Out.canonical_next (canonical_trap h _)
      · split
        · exact Out.canonical_next (canonical_trap h _)
        · exact Out.canonical_ite (Out.canonical_next (hgive _ _ h))
            (Out.canonical_next (hgive _ _
            (canonical_ite (canonical_upd (canonical_enqueueCopy h _ _ _ _ _ _) _) (canonical_enqueueCopy h _ _ _ _ _ _))))

theorem canonical_execCpystat {s : State} (h : s.canonical) (f : FmtD) : Out.canonical (execCpystat f s) :=
  Out.canonical_ite (Out.canonical_next (canonical_upd h _)) (Out.canonical_next h)

theorem canonical_writeBeat {s : State} (h : s.canonical) (k : Nat) (kind : CopyKind) (a : Nat) (bs : List Byte) :
    (s.writeBeat k kind a bs).canonical := by
  unfold State.writeBeat
  split
  · exact canonical_modCore h _ _
  · exact canonical_modCore h _ _
  · exact canonical_modCore h _ _
  · exact canonical_modCol h _ _

theorem canonical_landBeat {s : State} (h : s.canonical) (k : Nat) : (s.landBeat k).canonical := by
  unfold State.landBeat
  split
  · exact h
  · split
    · exact h
    · exact canonical_ite (canonical_scheduleCore (canonical_modCore (canonical_writeBeat h _ _ _ _) _ _) _ _ _)
        (canonical_modCore (canonical_writeBeat h _ _ _ _) _ _)

theorem canonical_lateTransfer {s : State} (h : s.canonical) (k : Nat) (zero : Bool) : (s.lateTransfer k zero).canonical :=
  canonical_scheduleCore (canonical_unschedule h _) _ _ _

theorem canonical_requestBus {s : State} (h : s.canonical) (k : Nat) : (s.requestBus k).canonical :=
  canonical_ite (canonical_scheduleCore h _ _ _)
    (canonical_ite (canonical_scheduleCore (canonical_lateTransfer h _ _) _ _ _)
    (canonical_scheduleCore (canonical_modCore h _ _) _ _ _))

theorem canonical_execCopyStart {s : State} (h : s.canonical) : Out.canonical (execCopyStart s) := by
  unfold execCopyStart
  extract_lets _ _ _ s₁
  have h₁ : s₁.canonical := canonical_modCore h _ _
  split
  · exact Out.canonical_next h
  · split
    · exact Out.canonical_next h
    · split
      · exact Out.canonical_ite (Out.canonical_next (canonical_scheduleCore h₁ _ _ _))
          (Out.canonical_next (canonical_scheduleCore h₁ _ _ _))
      · exact Out.canonical_ite (Out.canonical_next (canonical_requestBus h₁ _))
          (Out.canonical_next (canonical_scheduleCore h₁ _ _ _))

theorem canonical_execBusCopyRequest {s : State} (h : s.canonical) : Out.canonical (execBusCopyRequest s) := by
  unfold execBusCopyRequest
  extract_lets _ _
  split
  · exact Out.canonical_next h
  · exact Out.canonical_ite (Out.canonical_next h) (Out.canonical_next (canonical_requestBus h _))

theorem canonical_execCopyBeat {s : State} (h : s.canonical) : Out.canonical (execCopyBeat s) := by
  unfold execCopyBeat
  extract_lets _ _ _
  split
  · exact Out.canonical_next (canonical_landBeat h _)
  · split
    · exact Out.canonical_next h
    · exact Out.canonical_ite (Out.canonical_next h) (Out.canonical_next
        (canonical_ite (canonical_scheduleCore (canonical_scheduleCore (canonical_modCore h _ _) _ _ _) _ _ _)
        (canonical_scheduleCore (canonical_modCore h _ _) _ _ _)))

theorem canonical_execCopyComplete {s : State} (h : s.canonical) : Out.canonical (execCopyComplete s) := by
  unfold execCopyComplete
  extract_lets _ _
  split
  · exact Out.canonical_next h
  · extract_lets s₁
    have h₁ : s₁.canonical := canonical_modCore h _ _
    split
    · exact Out.canonical_next (canonical_modCore h _ _)
    · exact Out.canonical_next (canonical_scheduleCore (canonical_modCore h _ _) _ _ _)

theorem canonical_execCopyRestart {s : State} (h : s.canonical) : Out.canonical (execCopyRestart s) :=
  Out.canonical_next (canonical_ite (canonical_modCore h _ _) (canonical_scheduleCore (canonical_modCore h _ _) _ _ _))

/-! ### Column buffers and the bus -/

theorem canonical_reportBank {s : State} (h : s.canonical) (col a n : Nat) : (s.reportBank col a n).canonical :=
  canonical_foldl _ _ (fun _ _ hs => canonical_post hs _ _ _ _ _ _ _ _) h

theorem canonical_vbcpy {s : State} (h : s.canonical) (sub : Nat) (f : FmtDAB) : Out.canonical (vbcpy sub f s) := by
  unfold vbcpy
  split
  · exact Out.canonical_next h
  · extract_lets _ _ give _ _ _
    have hgive : ∀ v (u : State), u.canonical → (give v u).canonical := fun _ _ ht => canonical_upd ht _
    split
    · exact Out.canonical_next (canonical_trap h _)
    · extract_lets _ _
      split
      · exact Out.canonical_next (canonical_trap h _)
      · split
        · exact Out.canonical_next (hgive _ _ h)
        · extract_lets start
          have hstart : ∀ kind t (u : State), u.canonical → (start kind t u).canonical := fun _ _ _ ht => canonical_ite ht
            (canonical_ite (canonical_upd (canonical_enqueueCopy ht _ _ _ _ _ _) _) (canonical_enqueueCopy ht _ _ _ _ _ _))
          exact Out.canonical_ite (Out.canonical_next (hgive _ _ (hstart _ _ _ h)))
            (Out.canonical_next (canonical_outOp h _ _ _ _ _ (fun _ ht => hgive _ _ (hstart _ _ _ (canonical_upd ht _)))
            (fun _ _ ht => hgive _ _ (hstart _ _ _ ht))))

theorem canonical_execBusBeat {s : State} (h : s.canonical) : Out.canonical (execBusBeat s) := by
  unfold execBusBeat
  extract_lets _ _ _ _ again
  have hagain : ∀ (u : State), u.canonical → (again u).canonical := fun _ ht => canonical_scheduleCore ht _ _ _
  split
  · exact Out.canonical_next (canonical_landBeat h _)
  · split
    · exact Out.canonical_next h
    · split
      · exact Out.canonical_next (hagain _ h)
      · split
        · exact Out.canonical_next (hagain _ (canonical_lateTransfer h _ _))
        · split
          · extract_lets _ _ s₁ s₂ s₃
            have h₁ : s₁.canonical := canonical_reportBank h _ _ _
            have h₂ : s₂.canonical := canonical_modCore h₁ _ _
            have h₃ : s₃.canonical := canonical_scheduleCore h₂ _ _ _
            exact Out.canonical_next (canonical_ite (canonical_modCore h₃ _ _) (hagain _ h₃))
          · split
            · exact Out.canonical_next (canonical_modCore h _ _)
            · split
              · exact Out.canonical_next (canonical_modCore h _ _)
              · extract_lets _ _ bank _ s₁ s₂ s₃
                have h₁ : s₁.canonical := by
                  unfold s₁
                  clear_value bank
                  cases bank with
                  | none => exact h
                  | some a => exact canonical_reportBank h _ _ _
                have h₂ : s₂.canonical := canonical_modCore h₁ _ _
                have h₃ : s₃.canonical := canonical_scheduleCore h₂ _ _ _
                exact Out.canonical_next (canonical_ite (hagain _ h₃) (canonical_modCore h₃ _ _))

theorem canonical_execWbtag {s : State} (h : s.canonical) (f : FmtDA) : Out.canonical (execWbtag f s) := by
  unfold execWbtag
  split
  · exact Out.canonical_next h
  · exact Out.canonical_ite (Out.canonical_next (canonical_trap h _))
      (Out.canonical_next (canonical_outOp h _ _ _ _ _ (fun _ ht => canonical_upd (canonical_scheduleCore ht _ _ _) _)
      (fun _ _ ht => canonical_upd ht _)))

theorem canonical_acceptOp {s : State} (h : s.canonical) (kind : BankKind) (a b gbase : Nat) (kappa : W) (dmax : Nat) :
    (s.acceptOp kind a b gbase kappa dmax).canonical :=
  canonical_scheduleCore (canonical_upd (canonical_modCol h _ _) _) _ _ _

theorem canonical_bankOp {s : State} (h : s.canonical) (op : Nat) (kind : BankKind) (d : BitVec 6) (logged : Bool)
    (dst len : Nat) (a b gbase : Nat) (kappa : W) (dmax : Nat) :
    (bankOp op kind d logged dst len a b gbase kappa dmax s).canonical := by
  unfold bankOp
  extract_lets _ _ give act
  have hgive : ∀ v (u : State), u.canonical → (give v u).canonical := fun _ _ ht => canonical_upd ht _
  have hact : ∀ (u : State), u.canonical → (act u).canonical := fun _ ht => hgive _ _
    (canonical_ite (canonical_acceptOp ht _ _ _ _ _ _) ht)
  exact canonical_ite (canonical_outOp h _ _ _ _ _ (fun _ ht => hact _ ht) (fun _ _ ht => hgive _ _ ht)) (hact _ h)

theorem canonical_bankForm {s : State} (h : s.canonical) (gn : Bool) (g : BitVec 4) (op : Nat) (kind : BankKind) (d : BitVec 6)
    (logged : Bool) (wa wb : W) : Out.canonical (bankForm gn g op kind d logged wa wb s) := by
  unfold bankForm
  split
  · exact Out.canonical_next h
  · extract_lets _
    split
    · exact Out.canonical_next (canonical_bankOp h _ _ _ _ _ _ _ _ _ _ _)
    · exact Out.canonical_next (canonical_trap h _)

theorem canonical_execLupd {s : State} (h : s.canonical) (f : FmtDA) : Out.canonical (execLupd f s) := by
  unfold execLupd
  split
  · exact Out.canonical_next h
  · extract_lets _ _ _ _ _
    split
    · exact Out.canonical_next (canonical_trap h _)
    · split
      · exact Out.canonical_next (canonical_trap h _)
      · split
        · exact Out.canonical_next (canonical_trap h _)
        · exact Out.canonical_ite (Out.canonical_next (canonical_trap h _))
            (Out.canonical_next (canonical_bankOp h _ _ _ _ _ _ _ _ _ _ _))

theorem canonical_execWbfence {s : State} (h : s.canonical) (f : FmtD) : Out.canonical (execWbfence f s) :=
  Out.canonical_ite (Out.canonical_next h)
    (Out.canonical_ite (Out.canonical_next (canonical_upd h _)) (Out.canonical_next (canonical_upd h _)))

theorem canonical_engineRead {s : State} (h : s.canonical) (col i : Nat) : (s.engineRead col i).canonical := by
  unfold State.engineRead
  split
  · exact h
  · extract_lets _ _ _
    split
    · exact h
    · exact canonical_modCol (canonical_reportBank h _ _ _) _ _
    · exact canonical_modCol (canonical_reportBank (canonical_reportBank h _ _ _) _ _ _) _ _
    · exact h

theorem canonical_execBankOpStart {s : State} (h : s.canonical) : Out.canonical (execBankOpStart s) := by
  unfold execBankOpStart
  extract_lets _ _ at_ _ s₁ s₂ s₃ s₄ s₅
  have hat : ∀ (u : State) t j b, u.canonical → (at_ u t j b).canonical := fun _ _ _ _ ht => canonical_schedule ht _ _ _
  have h₁ : s₁.canonical := canonical_modCol h _ _
  have h₂ : s₂.canonical := canonical_ite (canonical_modCol h _ _) h
  have h₃ : s₃.canonical := hat _ _ _ _ h₂
  have h₄ : s₄.canonical := hat _ _ _ _ (canonical_engineRead h₂ _ _)
  have h₅ : s₅.canonical := canonical_engineRead h₂ _ _
  split
  · exact Out.canonical_next h
  · split
    · split
      · exact Out.canonical_next (canonical_ite (canonical_schedule (canonical_modCol h _ _) _ _ _) (canonical_modCol h _ _))
      · exact Out.canonical_next (canonical_ite (canonical_schedule h₁ _ _ _) h₁)
    · split
      · exact Out.canonical_next h
      · split
        · exact Out.canonical_next (canonical_schedule h₂ _ _ _)
        · exact Out.canonical_next (canonical_ite (hat _ _ _ _ h₃) h₃)
        · exact Out.canonical_next (canonical_ite (hat _ _ _ _ h₄) h₄)
        · exact Out.canonical_next (canonical_ite (hat _ _ _ _ h₅) (canonical_schedule h₅ _ _ _))

theorem canonical_execLupdGradientBeat {s : State} (h : s.canonical) : Out.canonical (execLupdGradientBeat s) := by
  unfold execLupdGradientBeat
  extract_lets _ _ _ _ again s₁
  have hagain : ∀ (u : State), u.canonical → (again u).canonical := fun _ ht => canonical_schedule ht _ _ _
  have h₁ : s₁.canonical := canonical_modCol h _ _
  split
  · exact Out.canonical_next h
  · split
    · exact Out.canonical_next (hagain _ h)
    · exact Out.canonical_ite (Out.canonical_next (hagain _ (canonical_ite h₁ (canonical_lateTransfer h₁ _ _))))
        (Out.canonical_next (canonical_ite (canonical_schedule (canonical_modCol h _ _) _ _ _)
        (hagain _ (canonical_modCol h _ _))))

theorem canonical_execLupdRowUpdate {s : State} (h : s.canonical) : Out.canonical (execLupdRowUpdate s) := by
  unfold execLupdRowUpdate
  extract_lets _ _ _ _ _
  split
  · exact Out.canonical_next h
  · split
    · exact Out.canonical_next (canonical_ite (canonical_schedule (canonical_modCol h _ _) _ _ _) (canonical_modCol h _ _))
    · exact Out.canonical_next (canonical_ite (canonical_schedule
        (canonical_schedule (canonical_modCol (canonical_reportBank h _ _ _) _ _) _ _ _) _ _ _)
        (canonical_schedule (canonical_modCol (canonical_reportBank h _ _ _) _ _) _ _ _))

theorem canonical_execBankOpEnd {s : State} (h : s.canonical) : Out.canonical (execBankOpEnd s) := by
  unfold execBankOpEnd
  extract_lets _ _
  split
  · exact Out.canonical_next h
  · extract_lets s₁ _ s₂ s₃
    have h₁ : s₁.canonical := canonical_modCol h _ _
    have h₂ : s₂.canonical := canonical_setCore h₁ _ _
    have h₃ : s₃.canonical := canonical_ite (canonical_scheduleCore h₂ _ _ _) h₂
    exact Out.canonical_next (canonical_ite h₃ (canonical_schedule h₃ _ _ _))

theorem canonical_execBusWireFailure {s : State} (h : s.canonical) : Out.canonical (execBusWireFailure s) :=
  Out.canonical_ite (Out.canonical_next (canonical_retireColumn (canonical_modCol h _ _) _))
    (Out.canonical_next (canonical_schedule (canonical_unschedule (canonical_modCol (canonical_modCol h _ _) _ _) _) _ _ _))

theorem canonical_execBusWireRepairStart {s : State} (h : s.canonical) : Out.canonical (execBusWireRepairStart s) :=
  Out.canonical_ite (Out.canonical_next (canonical_schedule h _ _ _))
    (Out.canonical_next (canonical_schedule (canonical_modCol h _ _) _ _ _))

/-! ### Lines of far memory -/

theorem canonical_writeLine {s : State} (h : s.canonical) (acc : Nat) (e : DW) (die va : Nat) (bs : List Byte) :
    (s.writeLine acc e die va bs).canonical :=
  canonical_ite h (canonical_modPkg h _ _)

theorem canonical_poisonLine {s : State} (h : s.canonical) (e : DW) (va : Nat) : (s.poisonLine e va).canonical :=
  canonical_ite h (canonical_modPkg h _ _)

theorem canonical_storeLine {s : State} (h : s.canonical) (acc : Nat) (e : DW) (die va : Nat) (w : List (Nat × Byte)) :
    (s.storeLine acc e die va w).1.canonical := by
  unfold State.storeLine
  split
  · exact h
  · split
    · exact canonical_writeLine h _ _ _ _ _
    · split
      · exact h
      · exact canonical_writeLine h _ _ _ _ _

theorem canonical_writeFar {s : State} (h : s.canonical) (acc : Nat) (table : SMap DW) (die va n : Nat) (f : Nat → Byte) :
    (s.writeFar acc table die va n f).canonical :=
  canonical_foldl _ _ (fun _ _ hs => canonical_ite hs (canonical_storeLine hs _ _ _ _ _)) h

theorem canonical_writeGuard {s : State} (h : s.canonical) (acc : Nat) (e : DW) (die va : Nat) (g : Guard) :
    (s.writeGuard acc e die va g).canonical := by
  generalize hf : @State.writeGuard = f
  delta State.writeGuard at hf
  subst hf
  beta_reduce
  cases s.readLine acc e die va with
  | none => exact h
  | some old =>
    have h₁ := canonical_writeLine h acc e die va (g.over old)
    exact canonical_ite (canonical_writeLine h₁ _ _ _ _ _) h₁

theorem canonical_give {s : State} (h : s.canonical) (d : BitVec 6) (v : W) : (s.give d v).canonical :=
  canonical_upd h _

theorem canonical_acceptFar {s : State} (h : s.canonical) (d : BitVec 6) (r : FarReq) {mark : State → State}
    {go : Nat → Nat → State → State} (hmark : ∀ t : State, t.canonical → (mark t).canonical)
    (hgo : ∀ k id (t : State), t.canonical → (go k id t).canonical) : (s.acceptFar d r mark go).canonical := by
  unfold State.acceptFar
  extract_lets _ _ _ s₁ s₂
  have h₂ : s₂.canonical := canonical_give (canonical_upd (hmark s h) _) _ _
  exact canonical_ite (canonical_give h _ _) (canonical_ite h₂ (hgo _ _ _ h₂))

theorem canonical_replayFar {s : State} (h : s.canonical) (d : BitVec 6) (kind : FarKind) (desc : Nat) (e : OutEntry) :
    (s.replayFar d kind desc e).canonical := by
  unfold State.replayFar
  extract_lets s₁ _ _ _
  have h₁ : s₁.canonical := canonical_give h _ _
  split
  · exact h₁
  · split <;> exact canonical_upd h₁ _

theorem canonical_outFar {s : State} (h : s.canonical) (op : Nat) (d : BitVec 6) (r : FarReq) (dst len : Nat) (data : List Byte)
    {mark : State → State} {go : Nat → Nat → State → State} (hmark : ∀ t : State, t.canonical → (mark t).canonical)
    (hgo : ∀ k id (t : State), t.canonical → (go k id t).canonical) : (s.outFar op d r dst len data mark go).canonical := by
  refine canonical_outOp h _ _ _ _ _ (fun t ht => ?_) fun e t ht => canonical_replayFar ht _ _ _ _
  exact canonical_ite (canonical_acceptFar (canonical_ite ht (canonical_upd ht _)) _ _ hmark hgo) (canonical_give ht _ _)

theorem canonical_markDirty {s : State} (h : s.canonical) (k : Nat) (vas : List Nat) : (s.markDirty k vas).canonical := by
  unfold State.markDirty
  split
  · exact h
  · exact canonical_modDie h _ _

theorem canonical_modFar {s : State} (h : s.canonical) (k id : Nat) (f : FarReq → FarReq) : (s.modFar k id f).canonical :=
  canonical_modCore h _ _

theorem canonical_releaseHeld {s : State} (h : s.canonical) (k : Nat) : (s.releaseHeld k).canonical :=
  canonical_foldl _ _ (fun _ _ hs => canonical_scheduleCore (canonical_unschedule hs _) _ _ _) h

theorem canonical_touchSegs {s : State} (h : s.canonical) (k : Nat) (r : FarReq) : (s.touchSegs k r).canonical :=
  canonical_modDie h _ _

theorem canonical_endFar {s : State} (h : s.canonical) (k : Nat) (r : FarReq) (fields : List (Nat × Byte)) :
    (s.endFar k r fields).canonical :=
  canonical_releaseHeld (canonical_foldl _ _ (fun _ _ hs => canonical_scheduleCore (canonical_unschedule hs _) _ _ _)
    (canonical_modCore (canonical_touchSegs h _ _) _ _)) _

theorem canonical_farMessage {s : State} (h : s.canonical) (k : Nat) (r : FarReq) (j : Nat) (reply : Bool) :
    (s.farMessage k r j reply).canonical :=
  canonical_ite (canonical_scheduleCore (canonical_tick h) _ _ _) (canonical_scheduleFab (canonical_tick h) _ _)

theorem canonical_queueRemote {s : State} (h : s.canonical) (pkg port f : Nat) (e : Ev) :
    (s.queueRemote pkg port f e).canonical :=
  canonical_scheduleFab (canonical_modPkg h _ _) _ _

/-! ### Far requests -/

theorem canonical_launchPieces {s : State} (h : s.canonical) (k : Nat) (r : FarReq) : (s.launchPieces k r).canonical :=
  canonical_ite (canonical_foldl _ _ (fun _ _ hs => canonical_farMessage hs _ _ _ _) h)
    (canonical_foldl _ _ (fun _ _ hs => canonical_scheduleCore (canonical_tick hs) _ _ _) h)

theorem canonical_tileEnd {s : State} (h : s.canonical) (k id : Nat) : (s.tileEnd k id).canonical :=
  canonical_scheduleCore (canonical_tick h) _ _ _

theorem canonical_sendFar {s : State} (h : s.canonical) (k id : Nat) : (sendFar k id s).canonical := by
  unfold sendFar
  split
  · exact h
  · extract_lets s₁
    have h₁ : s₁.canonical := canonical_modFar h _ _ _
    split
    · exact canonical_ite (canonical_tileEnd h₁ _ _) (canonical_launchPieces h₁ _ _)
    · exact canonical_ite (canonical_farMessage h₁ _ _ _ _)
        (canonical_ite (canonical_tileEnd h₁ _ _) (canonical_launchPieces h₁ _ _))
    · exact h₁
    · exact canonical_tick (canonical_scheduleCore h₁ _ _ _)
    · exact canonical_tick (canonical_scheduleCore h₁ _ _ _)
    · exact canonical_tick (canonical_scheduleCore h₁ _ _ _)
    · exact canonical_tick (canonical_scheduleCore h₁ _ _ _)
    · exact canonical_tick (canonical_scheduleCore h₁ _ _ _)
    · exact canonical_tick (canonical_scheduleCore h₁ _ _ _)
    · exact canonical_scheduleFab h₁ _ _
    · exact canonical_scheduleFab h₁ _ _
    · exact canonical_farMessage h₁ _ _ _ _
    · exact canonical_farMessage h₁ _ _ _ _

theorem canonical_execFarRequestSend {s : State} (h : s.canonical) : Out.canonical (execFarRequestSend s) := by
  unfold execFarRequestSend
  extract_lets _ _
  split
  · exact Out.canonical_next h
  · exact Out.canonical_ite (Out.canonical_next h) (Out.canonical_next (canonical_sendFar h _ _))

theorem canonical_tileForm {s : State} (h : s.canonical) (store : Bool) (f : FmtDA) : Out.canonical (tileForm store f s) := by
  unfold tileForm
  refine canonical_exchangeOnly h (fun t ht => ?_)
  split
  · exact Out.canonical_next ht
  · extract_lets _ _ _
    split
    · exact Out.canonical_next (canonical_trap ht _)
    · extract_lets _ _ _ _ _ _ _ _ _ _ _ _
      split
      · exact Out.canonical_next (canonical_trap ht _)
      · split
        · exact Out.canonical_next (canonical_trap ht _)
        · split
          · split
            · exact Out.canonical_next (canonical_trap ht _)
            · split
              · exact Out.canonical_next (canonical_trap ht _)
              · split
                · exact Out.canonical_next (canonical_trap ht _)
                · split
                  · exact Out.canonical_next (canonical_outFar ht _ _ _ _ _ _
                      (fun _ ht₁ => canonical_ite (canonical_markDirty ht₁ _ _) ht₁)
                      (fun _ _ _ ht₁ => canonical_sendFar ht₁ _ _))
                  · exact Out.canonical_next (canonical_acceptFar ht _ _ (fun _ ht₁ => canonical_upd ht₁ _)
                      (fun _ _ _ ht₁ => canonical_sendFar ht₁ _ _))
          · split
            · exact Out.canonical_next (canonical_trap ht _)
            · split
              · exact Out.canonical_next (canonical_trap ht _)
              · split
                · exact Out.canonical_next (canonical_trap ht _)
                · split
                  · exact Out.canonical_next (canonical_outFar ht _ _ _ _ _ _
                      (fun _ ht₁ => canonical_ite (canonical_markDirty ht₁ _ _) ht₁)
                      (fun _ _ _ ht₁ => canonical_sendFar ht₁ _ _))
                  · exact Out.canonical_next (canonical_acceptFar ht _ _ (fun _ ht₁ => ht₁)
                      (fun _ _ _ ht₁ => canonical_sendFar ht₁ _ _))

theorem canonical_guardForm {s : State} (h : s.canonical) (release : Bool) (sub : Nat) (gn : Bool) (g : BitVec 4)
    (d a : BitVec 6) (b : W) : Out.canonical (guardForm release sub gn g d a b s) := by
  unfold guardForm
  refine canonical_exchangeOnly h (fun t ht => ?_)
  split
  · exact Out.canonical_next ht
  · extract_lets _ _ _
    split
    · exact Out.canonical_next (canonical_trap ht _)
    · extract_lets _ _ _
      split
      · exact Out.canonical_next (canonical_trap ht _)
      · split
        · exact Out.canonical_next (canonical_trap ht _)
        · exact Out.canonical_next (canonical_outFar ht _ _ _ _ _ _ (fun _ ht₁ => ht₁)
            (fun _ _ _ ht₁ => canonical_sendFar ht₁ _ _))

theorem canonical_farAtomic {s : State} (h : s.canonical) (kind : FarKind) (sub : Nat) (f : FmtDA) : Out.canonical
    (farAtomic kind sub f s) := by
  unfold farAtomic
  refine canonical_exchangeOnly h (fun t ht => ?_)
  split
  · exact Out.canonical_next ht
  · extract_lets _ _ _
    split
    · exact Out.canonical_next (canonical_trap ht _)
    · extract_lets _ _ _ _ _
      split
      · exact Out.canonical_next (canonical_trap ht _)
      · split
        · exact Out.canonical_next (canonical_trap ht _)
        · exact Out.canonical_ite (Out.canonical_next (canonical_trap ht _))
            (Out.canonical_next (canonical_outFar ht _ _ _ _ _ _ (fun _ ht₁ => canonical_markDirty ht₁ _ _)
            (fun _ _ _ ht₁ => canonical_sendFar ht₁ _ _)))

theorem canonical_execFstat {s : State} (h : s.canonical) (f : FmtD) : Out.canonical (execFstat f s) :=
  Out.canonical_ite (Out.canonical_next (canonical_give h _ _)) (Out.canonical_next h)

theorem canonical_piecesEnd {s : State} (h : s.canonical) (k id : Nat) : (s.piecesEnd k id).canonical := by
  unfold State.piecesEnd
  split
  · exact h
  · exact canonical_ite h (canonical_ite (canonical_scheduleCore h _ _ _)
      (canonical_ite (canonical_farMessage h _ _ _ _)
      (canonical_ite (canonical_scheduleCore (canonical_tick h) _ _ _) (canonical_farMessage h _ _ _ _))))

theorem canonical_pieceAtMemory {s : State} (h : s.canonical) (k : Nat) (r : FarReq) (j : Nat) (p : Piece) :
    (s.pieceAtMemory k r j p).canonical := by
  unfold State.pieceAtMemory
  split
  · extract_lets s₁
    have h₁ : s₁.canonical := by
      unfold s₁
      split <;> exact canonical_modFar h _ _ _
    exact canonical_farMessage h₁ _ _ _ _
  · split
    · exact canonical_piecesEnd (canonical_modFar (canonical_poisonLine h _ _) _ _ _) _ _
    · exact canonical_piecesEnd (canonical_modFar
        (canonical_ite (canonical_poisonLine (canonical_storeLine h _ _ _ _ _) _ _) (canonical_storeLine h _ _ _ _ _)) _ _ _) _
        _

theorem canonical_tileComplete {s : State} (h : s.canonical) (k : Nat) (r : FarReq) : (s.tileComplete k r).canonical :=
  canonical_endFar h _ _ _

theorem canonical_execTileTransferComplete {s : State} (h : s.canonical) : Out.canonical (execTileTransferComplete s) := by
  unfold execTileTransferComplete
  extract_lets _ _ _ _
  split
  · exact Out.canonical_next h
  · split
    · exact Out.canonical_next (canonical_tileComplete h _ _)
    · split
      · exact Out.canonical_next (canonical_foldl _ _ (fun _ _ hs => canonical_farMessage hs _ _ _ _)
          (canonical_modFar h _ _ _))
      · split
        · exact Out.canonical_next h
        · split
          · exact Out.canonical_ite (Out.canonical_next (canonical_scheduleCore h _ _ _))
              (Out.canonical_next (canonical_pieceAtMemory h _ _ _ _))
          · exact Out.canonical_next (canonical_piecesEnd
              (canonical_ite (canonical_modFar h _ _ _) (canonical_modCore (canonical_modFar h _ _ _) _ _)) _ _)

theorem canonical_execTaggedStoreAtGuard {s : State} (h : s.canonical) : Out.canonical (execTaggedStoreAtGuard s) := by
  unfold execTaggedStoreAtGuard
  extract_lets _
  split
  · exact Out.canonical_next h
  · extract_lets va g s₁
    clear_value g
    have h₁ : s₁.canonical := by
      unfold s₁
      cases g with
      | none => exact h
      | some g => exact canonical_writeGuard h _ _ _ _ _
    refine Out.canonical_ite (Out.canonical_next (canonical_farMessage h₁ _ _ _ _)) ?_
    refine Out.canonical_ite (Out.canonical_next (canonical_scheduleCore h _ _ _)) ?_
    exact Out.canonical_ite (Out.canonical_next (canonical_ite (canonical_piecesEnd h _ _) (canonical_launchPieces h _ _)))
      (Out.canonical_next (canonical_farMessage (canonical_modFar h _ _ _) _ _ _ _))

theorem canonical_secondCopy {s : State} (h : s.canonical) (k : Nat) (r : FarReq) (j : Nat) (p : Piece) :
    (s.secondCopy k r j p).canonical :=
  canonical_ite h (canonical_ite (canonical_modFar (canonical_poisonLine (canonical_storeLine h _ _ _ _ _) _ _) _ _ _)
    (canonical_storeLine h _ _ _ _ _))

theorem canonical_execDupCopyAck {s : State} (h : s.canonical) : Out.canonical (execDupCopyAck s) := by
  unfold execDupCopyAck
  extract_lets _
  split
  · exact Out.canonical_next h
  · exact Out.canonical_next (canonical_farMessage
      (canonical_modFar (canonical_foldl _ _ (fun _ _ hs => canonical_secondCopy hs _ _ _ _) h) _ _ _) _ _ _ _)

theorem canonical_performed {s : State} (h : s.canonical) (k id : Nat) (f : FarReq → FarReq) :
    (s.performed k id f).canonical := by
  unfold State.performed
  extract_lets s₁
  have h₁ : s₁.canonical := canonical_modFar h _ _ _
  split
  · exact h₁
  · exact canonical_farMessage h₁ _ _ _ _

theorem canonical_completeWith {s : State} (h : s.canonical) (k id : Nat) (fields : FarReq → List (Nat × Byte)) :
    (s.completeWith k id fields).canonical := by
  unfold State.completeWith
  split
  · exact h
  · exact canonical_endFar h _ _ _

theorem canonical_guardEvent {s : State} (h : s.canonical) (act : Guard → FarReq → Nat → GuardOut) : Out.canonical
    (guardEvent act s) := by
  unfold guardEvent
  extract_lets _
  split
  · exact Out.canonical_next h
  · split
    · exact Out.canonical_next (canonical_completeWith h _ _ _)
    · exact Out.canonical_ite (Out.canonical_next (canonical_scheduleCore h _ _ _))
        (Out.canonical_next (canonical_performed (canonical_ite h (canonical_writeGuard h _ _ _ _ _)) _ _ _))

theorem canonical_execAtomicAtMemory {s : State} (h : s.canonical) : Out.canonical (execAtomicAtMemory s) := by
  unfold execAtomicAtMemory
  extract_lets _ _
  split
  · exact Out.canonical_next h
  · split
    · exact Out.canonical_next (canonical_completeWith h _ _ _)
    · extract_lets _ _
      split
      · exact Out.canonical_next (canonical_scheduleCore h _ _ _)
      · split
        · exact Out.canonical_next (canonical_performed h _ _ _)
        · exact Out.canonical_next (canonical_performed (canonical_writeLine h _ _ _ _ _) _ _ _)

theorem canonical_loseMessage {s : State} (h : s.canonical) (k : Nat) (r : FarReq) (j : Nat) (mark : Bool) :
    (s.loseMessage k r j mark).canonical := by
  unfold State.loseMessage
  extract_lets _ s₁ s₂
  have h₁ : s₁.canonical := by
    unfold s₁
    split
    · exact canonical_poisonLine h _ _
    · exact h
  have h₂ : s₂.canonical := canonical_modFar h _ _ _
  split
  · exact canonical_scheduleCore (canonical_modFar h _ _ _) _ _ _
  · split
    · exact canonical_scheduleCore (canonical_modFar h _ _ _) _ _ _
    · split
      · exact canonical_scheduleCore h _ _ _
      · split
        · exact canonical_piecesEnd (canonical_modFar h₁ _ _ _) _ _
        · split <;> exact canonical_scheduleCore h₂ _ _ _

theorem canonical_execRemoteMemoryHop {s : State} (h : s.canonical) : Out.canonical (execRemoteMemoryHop s) := by
  unfold execRemoteMemoryHop
  extract_lets _ _ _
  split
  · exact Out.canonical_next h
  · extract_lets _ _ _ go _ _ _ _ _ _ s₁
    have hgo : ∀ (u : State) pkg f, u.canonical → (go u pkg f).canonical := fun _ _ _ ht => canonical_queueRemote ht _ _ _ _
    have h₁ : s₁.canonical := canonical_ite (canonical_modFar h _ _ _) h
    split
    · exact Out.canonical_next (canonical_ite (canonical_scheduleFab h _ _) (hgo _ _ _ h))
    · split
      · exact Out.canonical_next (canonical_scheduleFab h _ _)
      · split
        · exact Out.canonical_next (canonical_loseMessage h _ _ _ _)
        · exact Out.canonical_ite (Out.canonical_next (canonical_loseMessage h _ _ _ _))
            (Out.canonical_next (canonical_ite (canonical_scheduleCore h₁ _ _ _) (hgo _ _ _ h₁)))

theorem canonical_failRequest {s : State} (h : s.canonical) (k : Nat) (r : FarReq) (j : Nat) :
    (s.failRequest k r j).canonical :=
  canonical_ite (canonical_loseMessage (canonical_unschedule h _) _ _ _ _)
    (canonical_ite (canonical_loseMessage (canonical_unschedule h _) _ _ _ _) h)

theorem canonical_failCopy {s : State} (h : s.canonical) (k : Nat) (r : FarReq) (j : Nat) : (s.failCopy k r j).canonical := by
  unfold State.failCopy
  split
  · exact h
  · exact canonical_modFar (canonical_poisonLine h _ _) _ _ _

/-! ### Near-memory commands -/

theorem canonical_nmForm {s : State} (h : s.canonical) (kind : FarKind) (sub : Nat) (f : FmtDA) : Out.canonical
    (nmForm kind sub f s) := by
  unfold nmForm
  refine canonical_exchangeOnly h (fun t ht => ?_)
  split
  · exact Out.canonical_next ht
  · extract_lets _ _ _
    split
    · exact Out.canonical_next (canonical_trap ht _)
    · extract_lets _ _ _
      split
      · exact Out.canonical_next (canonical_trap ht _)
      · split
        · exact Out.canonical_next (canonical_trap ht _)
        · exact Out.canonical_ite (Out.canonical_next (canonical_trap ht _))
            (Out.canonical_next (canonical_outFar ht _ _ _ _ _ _ (fun _ ht₁ => canonical_ite ht₁ (canonical_markDirty ht₁ _ _))
            (fun _ _ _ ht₁ => canonical_sendFar ht₁ _ _)))

theorem canonical_execNmfence {s : State} (h : s.canonical) (f : FmtDA) : Out.canonical (execNmfence f s) := by
  unfold execNmfence
  refine canonical_exchangeOnly h (fun t ht => ?_)
  split
  · exact Out.canonical_next ht
  · extract_lets _ _ _
    split
    · exact Out.canonical_next (canonical_trap ht _)
    · exact Out.canonical_next (canonical_outFar ht _ _ _ _ _ _ (fun _ ht₁ => canonical_scheduleCore ht₁ _ _ _)
        (fun _ _ _ ht₁ => canonical_sendFar ht₁ _ _))

theorem canonical_execNmfenceComplete {s : State} (h : s.canonical) : Out.canonical (execNmfenceComplete s) := by
  unfold execNmfenceComplete
  extract_lets _ _
  split
  · exact Out.canonical_next h
  · exact Out.canonical_ite (Out.canonical_next (canonical_scheduleCore h _ _ _))
      (Out.canonical_ite (Out.canonical_next h) (Out.canonical_next (canonical_endFar h _ _ _)))

theorem canonical_nmBegin {s : State} (h : s.canonical) (pkg stack : Nat) : (s.nmBegin pkg stack).canonical := by
  unfold State.nmBegin
  split
  · exact h
  · split
    · exact h
    · exact canonical_ite (canonical_scheduleCore (canonical_tick h) _ _ _)
        (canonical_scheduleCore (canonical_tick (canonical_modFar h _ _ _)) _ _ _)

theorem canonical_dropCommands {s : State} (h : s.canonical) (pkg : Nat) : (s.dropCommands pkg).canonical := by
  refine canonical_foldl _ _ (fun s p hs => canonical_foldl _ _ (fun s stack hs => ?_) hs) h
  refine canonical_ite hs ?_
  split
  · exact canonical_modPkg hs _ _
  · exact canonical_ite (canonical_modPkg hs _ _) (canonical_scheduleCore (canonical_modPkg hs _ _) _ _ _)

theorem canonical_execNmCommandAtNmu {s : State} (h : s.canonical) : Out.canonical (execNmCommandAtNmu s) := by
  unfold execNmCommandAtNmu
  extract_lets _ _
  split
  · exact Out.canonical_next h
  · extract_lets _ _ _ s₁ _ s₂
    have h₁ : s₁.canonical := canonical_modFar h _ _ _
    have h₂ : s₂.canonical := canonical_modPkg h₁ _ _
    exact Out.canonical_ite (Out.canonical_next (canonical_nmBegin h _ _))
      (Out.canonical_ite (Out.canonical_next (canonical_scheduleCore h _ _ _))
      (Out.canonical_next (canonical_ite (canonical_nmBegin h₂ _ _) h₂)))

theorem canonical_nmLine {s : State} (h : s.canonical) (k : Nat) (r : FarReq) : (s.nmLine k r).canonical := by
  unfold State.nmLine
  extract_lets _ _ _ _ _ _ _ next s₁ put _ _ _
  have hnext : ∀ f (u : State), u.canonical → (next f u).canonical := fun _ _ ht => canonical_modFar ht _ _ _
  have h₁ : s₁.canonical := canonical_ite h (canonical_poisonLine h _ _)
  have hput : ∀ bs, (put bs).canonical := fun _ => canonical_writeLine h _ _ _ _ _
  split
  · exact hnext _ _ h₁
  · split
    · exact hnext _ _ (hput _)
    · exact hnext _ _ (hput _)
    · exact hnext _ _ h
    · exact hnext _ _ (hput _)

theorem canonical_execNmLineStep {s : State} (h : s.canonical) : Out.canonical (execNmLineStep s) := by
  unfold execNmLineStep
  extract_lets _ _ _
  split
  · exact Out.canonical_next h
  · extract_lets _ s₁ _
    have h₁ : s₁.canonical := canonical_nmLine h _ _
    exact Out.canonical_ite (Out.canonical_next (canonical_scheduleCore h _ _ _))
      (Out.canonical_ite (Out.canonical_next (canonical_scheduleCore (canonical_tick h₁) _ _ _))
      (Out.canonical_next (canonical_scheduleCore h₁ _ _ _)))

theorem canonical_execNmCommandComplete {s : State} (h : s.canonical) : Out.canonical (execNmCommandComplete s) := by
  unfold execNmCommandComplete
  extract_lets _
  split
  · exact Out.canonical_next h
  · extract_lets _ _ s₁ s₂ s₃
    have h₁ : s₁.canonical := by
      unfold s₁
      split
      · exact h
      · split
        · exact h
        · exact canonical_writeGuard h _ _ _ _ _
    have h₂ : s₂.canonical := canonical_modPkg h₁ _ _
    have h₃ : s₃.canonical := canonical_performed h₂ _ _ _
    exact Out.canonical_ite (Out.canonical_next (canonical_completeWith h _ _ _))
      (Out.canonical_next (canonical_nmBegin h₃ _ _))

/-! ### Bramble walks -/

theorem canonical_bkForm {s : State} (h : s.canonical) (kind : FarKind) (op sub : Nat) (f : FmtDA) : Out.canonical
    (bkForm kind op sub f s) := by
  unfold bkForm
  refine canonical_exchangeOnly h (fun t ht => ?_)
  split
  · exact Out.canonical_next ht
  · extract_lets _ _
    split
    · exact Out.canonical_next (canonical_trap ht _)
    · extract_lets _ _ _ _ _ _ _ _
      split
      · exact Out.canonical_next (canonical_trap ht _)
      · split
        · exact Out.canonical_next (canonical_trap ht _)
        · split
          · split
            · exact Out.canonical_next (canonical_trap ht _)
            · split
              · exact Out.canonical_next (canonical_trap ht _)
              · split
                · exact Out.canonical_next (canonical_acceptFar ht _ _ (fun _ ht₁ => canonical_upd ht₁ _)
                    (fun _ _ _ ht₁ => canonical_sendFar ht₁ _ _))
                · exact Out.canonical_next (canonical_outFar ht _ _ _ _ _ _ (fun _ ht₁ => ht₁)
                    (fun _ _ _ ht₁ => canonical_sendFar ht₁ _ _))
          · split
            · exact Out.canonical_next (canonical_trap ht _)
            · split
              · exact Out.canonical_next (canonical_trap ht _)
              · split
                · exact Out.canonical_next (canonical_acceptFar ht _ _ (fun _ ht₁ => ht₁)
                    (fun _ _ _ ht₁ => canonical_sendFar ht₁ _ _))
                · exact Out.canonical_next (canonical_outFar ht _ _ _ _ _ _ (fun _ ht₁ => ht₁)
                    (fun _ _ _ ht₁ => canonical_sendFar ht₁ _ _))

theorem canonical_bkEnd {s : State} (h : s.canonical) (k id : Nat) : (s.bkEnd k id).canonical :=
  canonical_scheduleCore (canonical_tick h) _ _ _

theorem canonical_launchLines {s : State} (h : s.canonical) (k : Nat) (r : FarReq) : (s.launchLines k r).canonical :=
  canonical_ite (canonical_foldl _ _ (fun _ _ hs => canonical_scheduleCore (canonical_tick hs) _ _ _) h)
    (canonical_foldl _ _ (fun _ _ hs => canonical_scheduleCore (canonical_tick hs) _ _ _) h)

theorem canonical_execBrambleDirectoryOp {s : State} (h : s.canonical) : Out.canonical (execBrambleDirectoryOp s) := by
  unfold execBrambleDirectoryOp
  extract_lets _ _ _ _
  split
  · exact Out.canonical_next h
  · extract_lets _ _ _ _ s₁ _ s₂ s₃
    have h₁ : s₁.canonical := canonical_modPkg (canonical_tick h) _ _
    have h₂ : s₂.canonical := canonical_modFar h₁ _ _ _
    have h₃ : s₃.canonical := by
      unfold s₃
      split
      · exact h₂
      · exact canonical_scheduleCore h₂ _ _ _
    exact Out.canonical_ite (Out.canonical_next (canonical_scheduleCore h _ _ _))
      (Out.canonical_next (canonical_ite (canonical_launchLines h₃ _ _) (canonical_bkEnd h₃ _ _)))

theorem canonical_execBlockReturnToPool {s : State} (h : s.canonical) : Out.canonical (execBlockReturnToPool s) :=
  Out.canonical_next (canonical_modPkg h _ _)

theorem canonical_bkLine {s : State} (h : s.canonical) (k : Nat) (r : FarReq) (j : Nat) (p : Piece) :
    (s.bkLine k r j p).canonical :=
  canonical_ite (canonical_scheduleCore (canonical_tick (canonical_modFar h _ _ _)) _ _ _)
    (canonical_modFar (canonical_modPkg h _ _) _ _ _)

theorem canonical_bkCheck {s : State} (h : s.canonical) (k id : Nat) : (s.bkCheck k id).canonical := by
  unfold State.bkCheck
  split
  · exact h
  · exact canonical_ite (canonical_bkEnd h _ _) h

theorem canonical_endUse {s : State} (h : s.canonical) (k : Nat) (r : FarReq) : (s.endUse k r).canonical := by
  unfold State.endUse
  split
  · exact canonical_ite (canonical_scheduleCore (canonical_modPkg h _ _) _ _ _) (canonical_modPkg h _ _)
  · exact h

theorem canonical_execBrambleComplete {s : State} (h : s.canonical) : Out.canonical (execBrambleComplete s) := by
  unfold execBrambleComplete
  extract_lets _ _ _
  split
  · exact Out.canonical_next h
  · split
    · exact Out.canonical_next (canonical_endFar (canonical_endUse h _ _) _ _ _)
    · split
      · exact Out.canonical_next (canonical_foldl _ _ (fun _ _ hs => canonical_scheduleCore (canonical_tick hs) _ _ _)
          (canonical_modFar h _ _ _))
      · split
        · exact Out.canonical_next h
        · split
          · exact Out.canonical_next (canonical_scheduleCore h _ _ _)
          · split
            · exact Out.canonical_next (canonical_ite (canonical_bkCheck (canonical_bkLine h _ _ _ _) _ _)
                (canonical_bkLine h _ _ _ _))
            · exact Out.canonical_next (canonical_bkCheck
                (canonical_ite (canonical_modFar h _ _ _) (canonical_modCore (canonical_modFar h _ _ _) _ _)) _ _)

theorem canonical_failBlockLine {s : State} (h : s.canonical) (k : Nat) (r : FarReq) (j : Nat) :
    (s.failBlockLine k r j).canonical := by
  unfold State.failBlockLine
  extract_lets _ _ s₁ fails
  have h₁ : s₁.canonical := canonical_unschedule h _
  have hfails : ∀ stage data (u : State), u.canonical → (fails stage data u).canonical := fun _ _ _ ht => canonical_modFar ht _
    _ _
  split
  · exact canonical_ite h (canonical_ite (canonical_bkCheck (canonical_modPkg (hfails _ _ _ h₁) _ _) _ _)
      (canonical_scheduleCore (hfails _ _ _ h₁) _ _ _))
  · exact h

theorem canonical_failMessage {s : State} (h : s.canonical) (k id j : Nat) : (s.failMessage k id j).canonical := by
  unfold State.failMessage
  split
  · exact h
  · exact canonical_ite (canonical_failBlockLine h _ _ _)
      (canonical_ite (canonical_failCopy h _ _ _) (canonical_failRequest h _ _ _))

/-! ### Sloe commands -/

theorem canonical_execTloadz {s : State} (h : s.canonical) (f : FmtDA) : Out.canonical (execTloadz f s) := by
  unfold execTloadz
  refine canonical_exchangeOnly h (fun t ht => ?_)
  split
  · exact Out.canonical_next ht
  · extract_lets _ _ _
    split
    · exact Out.canonical_next (canonical_trap ht _)
    · extract_lets _ _ _ _ _ _
      split
      · exact Out.canonical_next (canonical_trap ht _)
      · split
        · exact Out.canonical_next (canonical_trap ht _)
        · split
          · exact Out.canonical_next (canonical_trap ht _)
          · split
            · exact Out.canonical_next (canonical_trap ht _)
            · exact Out.canonical_next (canonical_acceptFar ht _ _ (fun _ ht₁ => canonical_ite (canonical_upd ht₁ _) ht₁)
                (fun _ _ _ ht₁ => canonical_sendFar ht₁ _ _))

theorem canonical_sloeCheck {s : State} (h : s.canonical) (k id : Nat) : (s.sloeCheck k id).canonical := by
  unfold State.sloeCheck
  split
  · exact h
  · exact canonical_ite h (canonical_ite (canonical_scheduleCore (canonical_modFar h _ _ _) _ _ _)
      (canonical_foldl _ _ (fun _ _ hs => canonical_farMessage hs _ _ _ _) (canonical_modFar h _ _ _)))

theorem canonical_sloeLine {s : State} (h : s.canonical) (k : Nat) (r : FarReq) (j : Nat) (p : Piece) :
    (s.sloeLine k r j p).canonical :=
  canonical_farMessage (canonical_modFar h _ _ _) _ _ _ _

theorem canonical_execTloadzComplete {s : State} (h : s.canonical) : Out.canonical (execTloadzComplete s) := by
  unfold execTloadzComplete
  extract_lets _ _
  split
  · exact Out.canonical_next h
  · split
    · exact Out.canonical_next (canonical_completeWith h _ _ _)
    · split
      · exact Out.canonical_next h
      · exact Out.canonical_ite (Out.canonical_ite (Out.canonical_next (canonical_scheduleCore h _ _ _))
          (Out.canonical_next (canonical_sloeLine h _ _ _ _)))
          (Out.canonical_next (canonical_sloeCheck (canonical_modFar h _ _ _) _ _))

/-! ### Images of tasks -/

theorem canonical_writeImages {s : State} (h : s.canonical) (die : Nat) (t : Machine.Task) : (s.writeImages die t).canonical :=
  canonical_modDie (canonical_foldl _ _ (fun _ _ hs => canonical_writeFar hs _ _ _ _ _ _) h) _ _

theorem canonical_launchColumn {s : State} (h : s.canonical) (col : Nat) (t : Machine.Task) (img : Option ColImage)
    (mask : BitVec 4) : (s.launchColumn col t img mask).canonical := by
  unfold State.launchColumn
  split
  · exact canonical_foldl _ _ (fun _ _ hs => canonical_modCore hs _ _) (canonical_modCol h _ _)
  · exact canonical_modCol h _ _

theorem canonical_launchCore {s : State} (h : s.canonical) (die : Nat) (t : Machine.Task) (i k : Nat) :
    (s.launchCore die t i k).canonical :=
  canonical_setCore h _ _

theorem canonical_launchTask {s : State} (h : s.canonical) (die : Nat) (t : Machine.Task) : (s.launchTask die t).canonical :=
  canonical_tick (canonical_foldl _ _ (fun _ _ hs => canonical_launchColumn hs _ _ _ _)
    (canonical_foldl _ _ (fun _ _ hs => canonical_launchCore hs _ _ _ _) h))

/-! ### Faults and rollback -/

theorem canonical_execCheckpointCommit {s : State} (h : s.canonical) : Out.canonical (execCheckpointCommit s) := by
  unfold execCheckpointCommit
  extract_lets _ _ _ _
  split
  · exact Out.canonical_next h
  · split
    · exact Out.canonical_next (canonical_setCore h _ _)
    · exact Out.canonical_ite (Out.canonical_next (canonical_setCore h _ _))
        (Out.canonical_next (canonical_atOnce (canonical_setCore h _ _) _))

theorem canonical_execRollback {s : State} (h : s.canonical) : Out.canonical (execRollback s) := by
  unfold execRollback
  extract_lets _ _ _ _ _ _
  split
  · extract_lets _ _ _ s₁
    have h₁ : s₁.canonical := canonical_unschedule (canonical_setCore h _ _) _
    split
    · exact Out.canonical_next (canonical_scheduleCore (canonical_unschedule (canonical_setCore h _ _) _) _ _ _)
    · exact Out.canonical_ite (Out.canonical_next (canonical_scheduleCore (canonical_unschedule (canonical_setCore h _ _) _) _ _
        _)) (Out.canonical_next (canonical_scheduleCore (canonical_unschedule (canonical_setCore h _ _) _) _ _ _))
    · exact Out.canonical_next (canonical_scheduleCore (canonical_unschedule (canonical_setCore h _ _) _) _ _ _)
  · exact Out.canonical_next h

theorem canonical_execBank0Resume {s : State} (h : s.canonical) : Out.canonical (execBank0Resume s) := by
  unfold execBank0Resume
  extract_lets _ _
  split
  · exact Out.canonical_next (canonical_setCore h _ _)
  · exact Out.canonical_ite (Out.canonical_next (canonical_scheduleCore h _ _ _)) (Out.canonical_next (canonical_setCore h _ _))
  · exact Out.canonical_next h

theorem canonical_execDataError {s : State} (h : s.canonical) : Out.canonical (execDataError s) := by
  unfold execDataError
  extract_lets _ _ s₁
  have h₁ : s₁.canonical := canonical_unschedule h _
  split
  · exact Out.canonical_next h
  · split
    · exact Out.canonical_next (canonical_markRetired (canonical_handlerFault h _ _ _) _ _)
    · split
      · exact Out.canonical_next h
      · split
        · exact Out.canonical_next (canonical_setCore h _ _)
        · split
          · exact Out.canonical_next (canonical_setCore h _ _)
          · exact Out.canonical_next h
          · exact Out.canonical_next (canonical_scheduleCore (canonical_setCore h₁ _ _) _ _ _)
          · exact Out.canonical_next h
          · exact Out.canonical_next h
          · exact Out.canonical_next h
          · exact Out.canonical_next (canonical_setCore h _ _)

theorem canonical_execRerunCompare {s : State} (h : s.canonical) : Out.canonical (execRerunCompare s) := by
  unfold execRerunCompare
  extract_lets _ _
  split
  · exact Out.canonical_next h
  · split
    · split
      · exact Out.canonical_next (canonical_retireCore h _)
      · split
        · exact Out.canonical_ite (Out.canonical_next (canonical_retireCore h _)) (Out.canonical_next (canonical_setCore h _ _))
        · split
          · exact Out.canonical_next (canonical_scheduleCore (canonical_setCore h _ _) _ _ _)
          · exact Out.canonical_next h
    · exact Out.canonical_next h

theorem canonical_execCpld {s : State} (h : s.canonical) (f : FmtDAB) : Out.canonical (execCpld f s) := by
  unfold execCpld
  refine canonical_bank1Only h (fun t ht => ?_)
  split
  · exact Out.canonical_next ht
  · extract_lets _ _ _ _ _ _ s₂ _
    have h₂ : s₂.canonical := canonical_upd ht _
    split
    · exact Out.canonical_next (canonical_give ht _ _)
    · exact Out.canonical_ite (Out.canonical_next (canonical_give ht _ _))
        (Out.canonical_ite (Out.canonical_next (canonical_give ht _ _))
        (Out.canonical_next (canonical_scheduleCore (canonical_tick (canonical_give h₂ _ _)) _ _ _)))

theorem canonical_execCpldComplete {s : State} (h : s.canonical) : Out.canonical (execCpldComplete s) := by
  unfold execCpldComplete
  extract_lets _ _
  split
  · exact Out.canonical_next h
  · exact Out.canonical_next (canonical_modCore (canonical_tick h) _ _)

/-! ### The mesh of a die -/

theorem canonical_sendMesh {s : State} (h : s.canonical) (k port : Nat) (fs : List (BitVec 256)) :
    (s.sendMesh k port fs).canonical := by
  unfold State.sendMesh
  split
  · exact h
  · exact canonical_foldl _ _ (fun _ _ hs => canonical_scheduleCore hs _ _ _) (canonical_modCore (canonical_modCore h _ _) _ _)

theorem canonical_receive {s : State} (h : s.canonical) (un : Bool) (d : BitVec 6) (fl : BitVec 3) (fs : List (BitVec 256)) :
    (s.receive un d fl fs).canonical :=
  canonical_ite h (canonical_upd h _)

theorem canonical_execXsend {s : State} (h : s.canonical) (f : FmtX) : Out.canonical (execXsend f s) :=
  canonical_exchangeOnly h (fun _ ht => Out.canonical_ite (Out.canonical_next ht)
    (Out.canonical_next (canonical_outOp ht _ _ _ _ _ (fun _ ht₁ => canonical_sendMesh ht₁ _ _ _) (fun _ _ ht₁ => ht₁))))

theorem canonical_execXrecv {s : State} (h : s.canonical) (f : FmtX) : Out.canonical (execXrecv f s) := by
  unfold execXrecv
  refine canonical_exchangeOnly h (fun t ht => ?_)
  exact Out.canonical_ite (Out.canonical_next ht) (Out.canonical_ite (Out.canonical_next ht)
    (Out.canonical_ite (Out.canonical_next (canonical_trap ht _))
    (Out.canonical_next (canonical_receive (canonical_upd ht _) _ _ _ _))))

theorem canonical_execXfwd {s : State} (h : s.canonical) (f : FmtXFwd) : Out.canonical (execXfwd f s) := by
  unfold execXfwd
  refine canonical_exchangeOnly h (fun t ht => ?_)
  extract_lets _ _ _ _ _ s₂
  have h₂ : s₂.canonical := canonical_ite ht (canonical_upd ht _)
  exact Out.canonical_ite (Out.canonical_next ht) (Out.canonical_ite (Out.canonical_next (canonical_trap ht _))
    (Out.canonical_next (canonical_outOp h₂ _ _ _ _ _ (fun _ ht₁ => canonical_sendMesh ht₁ _ _ _) (fun _ _ ht₁ => ht₁))))

theorem canonical_execMeshFlitDepart {s : State} (h : s.canonical) : Out.canonical (execMeshFlitDepart s) :=
  Out.canonical_next (canonical_scheduleCore h _ _ _)

theorem canonical_execMeshFlitArrive {s : State} (h : s.canonical) : Out.canonical (execMeshFlitArrive s) := by
  unfold execMeshFlitArrive
  extract_lets _ _ _
  split
  · exact Out.canonical_next h
  · exact Out.canonical_next (canonical_modCore (canonical_modCore h _ _) _ _)

/-! ### Links and messages of the fabric -/

theorem canonical_departAt {s : State} (h : s.canonical) (pkg port f : Nat) : (s.departAt pkg port f).canonical :=
  canonical_ite h (canonical_scheduleFab h _ _)

theorem canonical_sendFabric {s : State} (h : s.canonical) (k port : Nat) (fs : List (BitVec 256)) :
    (s.sendFabric k port fs).canonical :=
  canonical_ite h (canonical_departAt (canonical_modPkg (canonical_modCore h _ _) _ _) _ _ _)

theorem canonical_execFsend {s : State} (h : s.canonical) (f : FmtX) : Out.canonical (execFsend f s) :=
  canonical_exchangeOnly h (fun _ ht => Out.canonical_ite (Out.canonical_next ht)
    (Out.canonical_next (canonical_outOp ht _ _ _ _ _ (fun _ ht₁ => canonical_sendFabric ht₁ _ _ _) (fun _ _ ht₁ => ht₁))))

theorem canonical_execFrecv {s : State} (h : s.canonical) (f : FmtX) : Out.canonical (execFrecv f s) :=
  canonical_exchangeOnly h (fun _ ht => Out.canonical_ite (Out.canonical_next ht)
    (Out.canonical_next (canonical_receive (canonical_upd (canonical_repay ht _ _) _) _ _ _ _)))

theorem canonical_repayLink {s : State} (h : s.canonical) (port : Nat) (x : LinkFlit) : (s.repayLink port x).canonical :=
  canonical_repay h _ _

theorem canonical_execFabricFlitDepart {s : State} (h : s.canonical) : Out.canonical (execFabricFlitDepart s) := by
  unfold execFabricFlitDepart
  extract_lets _ _ _ _
  split
  · exact Out.canonical_next h
  · split
    · exact Out.canonical_next (canonical_departAt h _ _ _)
    · extract_lets s₁ s₂ _ s₃
      have h₁ : s₁.canonical := canonical_modPkg h _ _
      have h₂ : s₂.canonical := canonical_ite h₁ (canonical_departAt h₁ _ _ _)
      have h₃ : s₃.canonical := canonical_modPkg h₂ _ _
      exact Out.canonical_ite (Out.canonical_next (canonical_repayLink h₂ _ _))
        (Out.canonical_next (canonical_scheduleFab h₃ _ _))

theorem canonical_execFabricFlitArrive {s : State} (h : s.canonical) : Out.canonical (execFabricFlitArrive s) := by
  unfold execFabricFlitArrive
  extract_lets _ _ _ _
  split
  · exact Out.canonical_next h
  · extract_lets s₁ _ _
    have h₁ : s₁.canonical := canonical_modPkg h _ _
    split
    · exact Out.canonical_next (canonical_repayLink h₁ _ _)
    · split
      · exact Out.canonical_next (canonical_repayLink h₁ _ _)
      · exact Out.canonical_next (canonical_modCore (canonical_tick h₁) _ _)

theorem canonical_sendMsg {s : State} (h : s.canonical) (src dst : Nat) (body : MsgBody) : (s.sendMsg src dst body).canonical :=
  canonical_scheduleFab (canonical_scheduleFab (canonical_tick (canonical_update h)) _ _) _ _

theorem canonical_queueChannel {s : State} (h : s.canonical) (pkg port f : Nat) (e : Ev) :
    (s.queueChannel pkg port f e).canonical :=
  canonical_scheduleFab (canonical_modPkg h _ _) _ _

theorem canonical_execChannelMessageReceive {s : State} (h : s.canonical) : Out.canonical (execChannelMessageReceive s) := by
  unfold execChannelMessageReceive
  split
  · exact Out.canonical_next h
  · extract_lets _ _ _ _ _ _ _ _ s₁ s₂
    have h₁ : s₁.canonical := canonical_scheduleFab (canonical_tick h) _ _
    have h₂ : s₂.canonical := canonical_update h₁
    split
    · exact Out.canonical_next h
    · split
      · exact Out.canonical_next h
      · split
        · exact Out.canonical_ite (Out.canonical_next h) (Out.canonical_next (canonical_queueChannel h _ _ _ _))
        · exact Out.canonical_ite (Out.canonical_next (canonical_update h))
            (Out.canonical_ite (Out.canonical_next h₁) (Out.canonical_next (canonical_scheduleFab h₂ _ _)))

theorem canonical_execChannelRetransmit {s : State} (h : s.canonical) : Out.canonical (execChannelRetransmit s) := by
  unfold execChannelRetransmit
  split
  · exact Out.canonical_next h
  · exact Out.canonical_next (canonical_scheduleFab (canonical_scheduleFab (canonical_tick h) _ _) _ _)

theorem canonical_reportLink {s : State} (h : s.canonical) (pkg port : Nat) (up : Bool) :
    (s.reportLink pkg port up).canonical :=
  canonical_sendMsg h _ _ _

theorem canonical_portDown {s : State} (h : s.canonical) (pkg port : Nat) : (s.portDown pkg port).canonical :=
  canonical_foldl _ _ (fun _ _ hs => canonical_repayLink hs _ _) (canonical_modPkg (canonical_tick h) _ _)

theorem canonical_execLinkDown {s : State} (h : s.canonical) : Out.canonical (execLinkDown s) :=
  Out.canonical_next (canonical_reportLink (canonical_reportLink (canonical_portDown (canonical_portDown h _ _) _ _) _ _ _) _ _
    _)

theorem canonical_execLinkTraining {s : State} (h : s.canonical) : Out.canonical (execLinkTraining s) :=
  Out.canonical_next (canonical_reportLink (canonical_reportLink (canonical_modPkg (canonical_modPkg h _ _) _ _) _ _ _) _ _ _)

theorem canonical_execLinkFlitDelivery {s : State} (h : s.canonical) : Out.canonical (execLinkFlitDelivery s) := by
  unfold execLinkFlitDelivery
  extract_lets _ _ _ s₁
  have h₁ : s₁.canonical := canonical_modPkg h _ _
  exact Out.canonical_ite (Out.canonical_next (canonical_modPkg h _ _))
    (Out.canonical_ite (Out.canonical_next (canonical_modPkg h _ _))
    (Out.canonical_next (canonical_ite (canonical_scheduleFab h₁ _ _) h₁)))

/-! ### Collectives -/

theorem canonical_collForm {s : State} (h : s.canonical) (k : CollKind) (f : FmtDA) : Out.canonical (collForm k f s) := by
  unfold collForm
  refine canonical_exchangeOnly h (fun t ht => ?_)
  split
  · exact Out.canonical_next ht
  · extract_lets _ _ _
    split
    · exact Out.canonical_next (canonical_trap ht _)
    · extract_lets _ _ _
      split
      · exact Out.canonical_next (canonical_trap ht _)
      · exact Out.canonical_ite (Out.canonical_next (canonical_trap ht _))
          (Out.canonical_next (canonical_outFar ht _ _ _ _ _ _ (fun _ ht₁ => canonical_ite ht₁ (canonical_upd ht₁ _))
          (fun _ _ _ ht₁ => canonical_sendFar ht₁ _ _)))

theorem canonical_execCcancel {s : State} (h : s.canonical) (f : FmtDA) : Out.canonical (execCcancel f s) := by
  unfold execCcancel
  refine canonical_exchangeOnly h (fun t ht => ?_)
  split
  · exact Out.canonical_next ht
  · extract_lets _ _
    split
    · exact Out.canonical_next (canonical_trap ht _)
    · extract_lets _ _
      split
      · exact Out.canonical_next (canonical_trap ht _)
      · exact Out.canonical_ite (Out.canonical_next (canonical_trap ht _))
          (Out.canonical_next (canonical_outFar ht _ _ _ _ _ _ (fun _ ht₁ => ht₁) (fun _ _ _ ht₁ => canonical_sendFar ht₁ _ _)))

theorem canonical_execCstat {s : State} (h : s.canonical) (f : FmtD) : Out.canonical (execCstat f s) :=
  Out.canonical_ite (Out.canonical_next (canonical_give h _ _)) (Out.canonical_next h)

theorem canonical_modColl {s : State} (h : s.canonical) (pkg id : Nat) (f : PkgColl → PkgColl) :
    (s.modColl pkg id f).canonical :=
  canonical_modPkg h _ _

theorem canonical_readInput {s : State} (h : s.canonical) (pkg : Nat) (c : PkgColl) (f : Nat) :
    (s.readInput pkg c f).canonical :=
  canonical_modColl h _ _ _

theorem canonical_startColl {s : State} (h : s.canonical) (pkg : Nat) (c : PkgColl) (g : Grant) :
    (s.startColl pkg c g).canonical :=
  canonical_schedule (canonical_schedule
    (canonical_foldl _ _ (fun _ _ hs => canonical_scheduleFab (canonical_tick hs) _ _) (canonical_modColl h _ _ _)) _ _ _) _ _ _

theorem canonical_execCollectiveStart {s : State} (h : s.canonical) : Out.canonical (execCollectiveStart s) := by
  unfold execCollectiveStart
  extract_lets _
  split
  · exact Out.canonical_next h
  · split
    · exact Out.canonical_next h
    · exact Out.canonical_ite (Out.canonical_next h)
        (Out.canonical_next (canonical_ite (canonical_startColl h _ _ _) (canonical_readInput h _ _ _)))

theorem canonical_endColl {s : State} (h : s.canonical) (k : Nat) (r : FarReq) (counted told : Bool)
    (fields : List (Nat × Byte)) : (s.endColl k r counted told fields).canonical :=
  canonical_ite (canonical_sendMsg (canonical_endFar (canonical_ite (canonical_modCore h _ _) h) _ _ _) _ _ _)
    (canonical_endFar (canonical_ite (canonical_modCore h _ _) h) _ _ _)

theorem canonical_execCollectiveComplete {s : State} (h : s.canonical) : Out.canonical (execCollectiveComplete s) := by
  unfold execCollectiveComplete
  extract_lets _ _ _ _
  split
  · split
    · exact Out.canonical_next h
    · split
      · exact Out.canonical_next (canonical_endColl (canonical_tick h) _ _ _ _ _)
      · exact Out.canonical_ite (Out.canonical_next (canonical_endColl h _ _ _ _ _))
          (Out.canonical_next (canonical_ite (canonical_modFar h _ _ _) (canonical_modCore (canonical_modFar h _ _ _) _ _)))
  · exact Out.canonical_next h

theorem canonical_execVoidCollectiveComplete {s : State} (h : s.canonical) : Out.canonical (execVoidCollectiveComplete s) := by
  unfold execVoidCollectiveComplete
  extract_lets _ _
  split
  · exact Out.canonical_next h
  · exact Out.canonical_next (canonical_endColl h _ _ _ _ _)

theorem canonical_modMedlar {s : State} (h : s.canonical) (pkg : Nat) (f : Medlar → Medlar) : (s.modMedlar pkg f).canonical :=
  canonical_modPkg h _ _

theorem canonical_setPrim {s : State} (h : s.canonical) (pkg i : Nat) (c : PrimColl) : (s.setPrim pkg i c).canonical :=
  canonical_modMedlar h _ _

theorem canonical_answer {s : State} (h : s.canonical) (prim : Nat) (r : PrimReq) (g : Grant) : (s.answer prim r g).canonical :=
  canonical_sendMsg h _ _ _

theorem canonical_numberAt {s : State} (h : s.canonical) (prim i : Nat) : (s.numberAt prim i).canonical := by
  unfold State.numberAt
  extract_lets _
  split
  · exact h
  · exact canonical_ite h (canonical_foldl _ _ (fun _ _ hs => canonical_answer hs _ _ _) (canonical_modMedlar h _ _))

theorem canonical_numberAll {s : State} (h : s.canonical) (prim : Nat) : (s.numberAll prim).canonical :=
  canonical_foldl _ _ (fun _ _ hs => canonical_numberAt hs _ _) h

theorem canonical_dropEnded {s : State} (h : s.canonical) (prim : Nat) : (s.dropEnded prim).canonical :=
  canonical_modMedlar h _ _

theorem canonical_voidColl {s : State} (h : s.canonical) (prim i : Nat) (c : PrimColl) (o : CollOutcome) :
    (s.voidColl prim i c o).canonical :=
  canonical_foldl _ _ (fun _ _ hs => canonical_answer hs _ _ _) (canonical_setPrim h _ _ _)

theorem canonical_takeRequest {s : State} (h : s.canonical) (prim : Nat) (tag ctag : W) (r : PrimReq) :
    (s.takeRequest prim tag ctag r).canonical := by
  unfold State.takeRequest
  extract_lets _ _ _
  split
  · exact h
  · split
    · exact canonical_ite (canonical_answer h _ _ _) (canonical_numberAt (canonical_modMedlar h _ _) _ _)
    · split
      · exact h
      · split
        · exact canonical_dropEnded (canonical_answer (canonical_setPrim h _ _ _) _ _ _) _
        · exact canonical_ite (canonical_ite (canonical_voidColl h _ _ _ _) (canonical_answer h _ _ _))
            (canonical_ite (canonical_answer h _ _ _) (canonical_numberAt (canonical_setPrim h _ _ _) _ _))

theorem canonical_voidByLink {s : State} (h : s.canonical) (prim : Nat) : (s.voidByLink prim).canonical := by
  unfold State.voidByLink
  refine canonical_foldl _ _ (fun s x hs => ?_) h
  extract_lets _
  split
  · exact hs
  · exact canonical_ite hs (canonical_ite (canonical_setPrim hs _ _ _) (canonical_ite (canonical_voidColl hs _ _ _ _) hs))

theorem canonical_execCollRequestAtPrimary {s : State} (h : s.canonical) : Out.canonical (execCollRequestAtPrimary s) := by
  unfold execCollRequestAtPrimary
  extract_lets _ _ _
  split
  · split
    · exact Out.canonical_next h
    · exact Out.canonical_ite (Out.canonical_next (canonical_scheduleCore h _ _ _))
        (Out.canonical_next (canonical_sendMsg (canonical_modPkg h _ _) _ _ _))
  · split
    · exact Out.canonical_next h
    · split
      · exact Out.canonical_next h
      · split
        · exact Out.canonical_next (canonical_takeRequest h _ _ _ _)
        · exact Out.canonical_next (canonical_numberAll (canonical_dropEnded (canonical_modMedlar h _ _) _) _)
        · exact Out.canonical_next (canonical_ite (canonical_modMedlar h _ _)
            (canonical_numberAll (canonical_voidByLink (canonical_modMedlar h _ _) _) _))
        · exact Out.canonical_next h

theorem canonical_watch {s : State} (h : s.canonical) (pkg : Nat) : (s.watch pkg).canonical :=
  canonical_scheduleFab (canonical_unschedule h _) _ _

theorem canonical_seeTerm {s : State} (h : s.canonical) (pkg term leader : Nat) : (s.seeTerm pkg term leader).canonical :=
  canonical_ite (canonical_watch (canonical_modMedlar h _ _) _) (canonical_modMedlar h _ _)

theorem canonical_execGrantReceived {s : State} (h : s.canonical) : Out.canonical (execGrantReceived s) := by
  unfold execGrantReceived
  extract_lets _ _
  split
  · exact Out.canonical_next h
  · split
    · split
      · exact Out.canonical_next h
      · extract_lets _ s₁ s₂ s₃ _ _
        have h₁ : s₁.canonical := canonical_modMedlar (canonical_seeTerm h _ _ _) _ _
        have h₂ : s₂.canonical := canonical_unschedule h₁ _
        have h₃ : s₃.canonical := canonical_modColl h₂ _ _ _
        split
        · exact Out.canonical_next h₁
        · split
          · exact Out.canonical_next (canonical_schedule h₃ _ _ _)
          · exact Out.canonical_ite (Out.canonical_next (canonical_schedule h₃ _ _ _))
              (Out.canonical_next (canonical_scheduleFab h₃ _ _))
    · exact Out.canonical_next h

theorem canonical_cancelColl {s : State} (h : s.canonical) (prim : Nat) (tag ctag box : W) :
    (s.cancelColl prim tag ctag box).1.canonical := by
  unfold State.cancelColl
  extract_lets _ _
  split
  · split
    · exact h
    · split
      · exact canonical_numberAt (canonical_setPrim h _ _ _) _ _
      · split
        · exact canonical_voidColl h _ _ _ _
        · exact h
  · exact canonical_numberAt (canonical_modMedlar h _ _) _ _

theorem canonical_execCancelAtPrimary {s : State} (h : s.canonical) : Out.canonical (execCancelAtPrimary s) := by
  unfold execCancelAtPrimary
  extract_lets _ _
  split
  · split
    · exact Out.canonical_next h
    · exact Out.canonical_next (canonical_sendMsg h _ _ _)
  · split
    · split
      · exact Out.canonical_next h
      · exact Out.canonical_next (canonical_endFar h _ _ _)
    · split
      · exact Out.canonical_next h
      · split
        · exact Out.canonical_ite (Out.canonical_next h)
            (Out.canonical_next (canonical_sendMsg (canonical_cancelColl h _ _ _ _) _ _ _))
        · exact Out.canonical_next (canonical_scheduleCore h _ _ _)
        · exact Out.canonical_next h

theorem canonical_execHeartbeat {s : State} (h : s.canonical) : Out.canonical (execHeartbeat s) := by
  unfold execHeartbeat
  extract_lets _ _ s₁ s₂
  have h₁ : s₁.canonical := canonical_modMedlar (canonical_seeTerm h _ _ _) _ _
  have h₂ : s₂.canonical := canonical_foldl _ _ (fun _ _ hs => canonical_sendMsg hs _ _ _) h
  split
  · exact Out.canonical_ite (Out.canonical_next h) (Out.canonical_next (canonical_ite (canonical_watch h₁ _) h₁))
  · exact Out.canonical_ite (Out.canonical_next h)
      (Out.canonical_ite (Out.canonical_next (canonical_scheduleFab h _ _)) (Out.canonical_next (canonical_scheduleFab h₂ _ _)))

theorem canonical_execFailover {s : State} (h : s.canonical) : Out.canonical (execFailover s) :=
  Out.canonical_ite (Out.canonical_next h) (Out.canonical_next
    (canonical_scheduleFab (canonical_scheduleFab
    (canonical_foldl _ _ (fun _ _ hs => canonical_sendMsg hs _ _ _) (canonical_modMedlar h _ _)) _ _) _ _))

theorem canonical_execCollectRequest {s : State} (h : s.canonical) : Out.canonical (execCollectRequest s) :=
  Out.canonical_ite (Out.canonical_next h)
    (Out.canonical_next (canonical_sendMsg (canonical_modPkg (canonical_seeTerm (canonical_unschedule h _) _ _ _) _ _) _ _ _))

theorem canonical_execNumberingResume {s : State} (h : s.canonical) : Out.canonical (execNumberingResume s) := by
  unfold execNumberingResume
  extract_lets _ resume _
  have hresume : ∀ (u : State), u.canonical → (resume u).canonical := fun _ ht => canonical_numberAll
    (canonical_modMedlar ht _ _) _
  split
  · exact Out.canonical_next (canonical_ite (hresume _ h) h)
  · split
    · exact Out.canonical_next h
    · split
      · split
        · exact Out.canonical_next h
        · extract_lets s₁ s₂
          have h₁ : s₁.canonical := canonical_modMedlar h _ _
          have h₂ : s₂.canonical := canonical_modMedlar
            (canonical_foldl _ _ (fun _ _ hs => canonical_takeRequest hs _ _ _ _) h₁) _ _
          exact Out.canonical_next (canonical_ite (canonical_numberAll h₂ _) (canonical_ite (hresume _ h₂) h₂))
      · exact Out.canonical_next h

/-! ### Dies, supersteps and tasks -/

theorem canonical_hostWrite {s : State} (h : s.canonical) (pkg a : Nat) (bs : List Byte) : (s.hostWrite pkg a bs).canonical :=
  canonical_modPkg h _ _

theorem canonical_completionRecord {s : State} (h : s.canonical) (die : Nat) (t : TaskDesc) (status : W) :
    (s.completionRecord die t status).canonical :=
  canonical_hostWrite h _ _ _

theorem canonical_replaceSeg {s : State} (h : s.canonical) (pkg : Nat) (old new : DW) : (s.replaceSeg pkg old new).canonical :=
  canonical_foldl _ _ (fun _ _ hs => canonical_modDie hs _ _) h

theorem canonical_copySegment {s : State} (h : s.canonical) (old new : DW) (die : Nat) :
    (s.copySegment old new die).canonical :=
  canonical_modPkg h _ _

theorem canonical_beginMove {s : State} (h : s.canonical) (die : Nat) (old new : DW) (copies : Bool) :
    (s.beginMove die old new copies).canonical :=
  canonical_schedule (canonical_tick (canonical_modPkg h _ _)) _ _ _

theorem canonical_startMove {s : State} (h : s.canonical) (die : Nat) (dup : Bool) (e : DW) (atBoundary : Bool) :
    (s.startMove die dup e atBoundary).canonical := by
  unfold State.startMove
  extract_lets _ _
  split
  · exact canonical_beginMove h _ _ _ _
  · split
    · exact h
    · split
      · exact h
      · exact canonical_beginMove h _ _ _ _

theorem canonical_startMoves {s : State} (h : s.canonical) (die : Nat) (atBoundary : Bool) :
    (s.startMoves die atBoundary).canonical := by
  unfold State.startMoves
  extract_lets _
  refine canonical_foldl _ _ (fun s x hs => ?_) h
  exact canonical_foldl _ _ (fun _ _ hs₁ => canonical_ite (canonical_beginMove hs₁ _ _ _ _) hs₁)
    (canonical_ite hs (canonical_foldl _ _ (fun _ _ hs₁ => canonical_ite (canonical_startMove hs₁ _ _ _ _) hs₁) hs))

theorem canonical_execSegmentMoveComplete {s : State} (h : s.canonical) : Out.canonical (execSegmentMoveComplete s) := by
  unfold execSegmentMoveComplete
  extract_lets _
  split
  · exact Out.canonical_next h
  · extract_lets s₁ s₂ s₃
    have h₁ : s₁.canonical := canonical_modPkg h _ _
    have h₂ : s₂.canonical := canonical_ite (canonical_copySegment h₁ _ _ _) h₁
    have h₃ : s₃.canonical := canonical_ite (canonical_copySegment h₂ _ _ _) h₂
    exact Out.canonical_next (canonical_replaceSeg h₃ _ _ _)

theorem canonical_startAt {s : State} (h : s.canonical) (die : Nat) (tag : W) (y : Nat) : (s.startAt die tag y).canonical :=
  canonical_schedule h _ _ _

theorem canonical_requeue {s : State} (h : s.canonical) (die : Nat) (t : Machine.Task) (tail : Bool) :
    (s.requeue die t tail).canonical :=
  canonical_modDie (canonical_vacateCores h _) _ _

theorem canonical_abortStopped {s : State} (h : s.canonical) (die : Nat) : (s.abortStopped die).canonical := by
  unfold State.abortStopped
  refine canonical_foldl _ _ (fun s x hs => ?_) h
  split
  · exact hs
  · exact canonical_abortTask (canonical_post hs _ _ _ _ _ _ _ _) _ _ _

theorem canonical_passDrains {s : State} (h : s.canonical) (die : Nat) : (s.passDrains die).canonical :=
  canonical_foldl _ _ (fun _ _ hs => canonical_modCore hs _ _) h

theorem canonical_account {s : State} (h : s.canonical) (die b : Nat) : (s.account die b).canonical :=
  canonical_foldl _ _ (fun _ _ hs => canonical_ite
    (canonical_modDie (canonical_vacateCores (canonical_completionRecord (canonical_unschedule hs _) _ _ _) _) _ _)
    (canonical_modDie (canonical_unschedule hs _) _ _)) h

theorem canonical_imageStep {s : State} (h : s.canonical) (die b : Nat) (hold : Bool) : (s.imageStep die b hold).canonical := by
  unfold State.imageStep
  refine canonical_foldl _ _ (fun s x hs => ?_) h
  extract_lets _ s₂ s₃ _ s₄
  have h₂ : s₂.canonical := canonical_writeImages hs _ _
  have h₃ : s₃.canonical := canonical_foldl _ _ (fun _ _ hs₁ => canonical_dropFabric hs₁ _) (canonical_writeImages hs _ _)
  have h₄ : s₄.canonical := canonical_modDie (canonical_tick h₃) _ _
  exact canonical_ite (canonical_requeue h₂ _ _ _) (canonical_ite h₄ (canonical_modDie hs _ _))

theorem canonical_holdMisfits {s : State} (h : s.canonical) (die : Nat) : (s.holdMisfits die).canonical :=
  canonical_modDie (canonical_foldl _ _ (fun _ _ hs => canonical_post (canonical_modDie hs _ _) _ _ _ _ _ _ _ _) h) _ _

theorem canonical_placeStep {s : State} (h : s.canonical) (die b : Nat) (exchange : Bool) :
    (s.placeStep die b exchange).canonical := by
  unfold State.placeStep
  refine canonical_foldl _ _ (fun s x hs => ?_) h
  refine canonical_foldl _ _ (fun s x hs₁ => ?_) hs
  extract_lets _ _
  split
  · exact hs₁
  · split
    · exact hs₁
    · exact canonical_launchTask (canonical_modDie (canonical_tick hs₁) _ _) _ _

theorem canonical_markVictims {s : State} (h : s.canonical) (die : Nat) : (s.markVictims die).canonical := by
  unfold State.markVictims
  extract_lets _ _ cand
  clear_value cand
  cases cand with
  | none => exact h
  | some _ => exact canonical_modDie h _ _

theorem canonical_boundary {s : State} (h : s.canonical) (die : Nat) : (s.boundary die).canonical := by
  unfold State.boundary
  extract_lets _ _ _ _ _ s₁ s₂ s₃ s₄ s₅
  have h₁ : s₁.canonical := canonical_account (canonical_passDrains (canonical_abortStopped h _) _) _ _
  have h₂ : s₂.canonical := canonical_modDie h₁ _ _
  have h₃ : s₃.canonical := canonical_schedule h₂ _ _ _
  have h₄ : s₄.canonical := canonical_holdMisfits (canonical_imageStep h₃ _ _ _) _
  have h₅ : s₅.canonical := canonical_startMoves (canonical_markVictims (canonical_placeStep h₄ _ _ _) _) _ _
  exact canonical_ite h₄ (canonical_foldl _ _ (fun _ _ hs => canonical_startAt hs _ _ _) h₅)

theorem canonical_execEmptyBoundary {s : State} (h : s.canonical) : Out.canonical (execEmptyBoundary s) :=
  Out.canonical_ite (Out.canonical_next (canonical_boundary h _)) (Out.canonical_next h)

theorem canonical_execPhaseCounterAdvance {s : State} (h : s.canonical) : Out.canonical (execPhaseCounterAdvance s) := by
  unfold execPhaseCounterAdvance
  extract_lets _ _ s₁ s₂ _
  have h₁ : s₁.canonical := canonical_modDie h _ _
  have h₂ : s₂.canonical := canonical_foldl _ _ (fun _ _ hs => canonical_post hs _ _ _ _ _ _ _ _) h₁
  exact Out.canonical_next (canonical_foldl _ _
    (fun _ _ hs => canonical_foldl _ _
    (fun _ _ hs₁ => canonical_ite hs₁ (canonical_post (canonical_modCore hs₁ _ _) _ _ _ _ _ _ _ _)) hs) h₂)

theorem canonical_execSuperstepStart {s : State} (h : s.canonical) : Out.canonical (execSuperstepStart s) := by
  unfold execSuperstepStart
  extract_lets _ _ _ _ s₁
  have h₁ : s₁.canonical := canonical_modDie h _ _
  split
  · exact Out.canonical_next h
  · exact Out.canonical_ite (Out.canonical_next h) (Out.canonical_ite (Out.canonical_next (canonical_schedule h _ _ _))
      (Out.canonical_next (canonical_schedule (canonical_foldl _ _ (fun _ _ hs => canonical_modCore hs _ _) h₁) _ _ _)))

theorem canonical_execStragglerDeadline {s : State} (h : s.canonical) : Out.canonical (execStragglerDeadline s) := by
  unfold execStragglerDeadline
  extract_lets _ _ _
  split
  · exact Out.canonical_next h
  · exact Out.canonical_ite (Out.canonical_next h)
      (Out.canonical_next (canonical_schedule
      (canonical_modDie (canonical_foldl _ _ (fun _ _ hs => canonical_unschedule (canonical_modCore hs _ _) _) h) _ _) _ _ _))

theorem canonical_execStragglerStopComplete {s : State} (h : s.canonical) : Out.canonical (execStragglerStopComplete s) :=
  Out.canonical_next (canonical_modDie h _ _)

theorem canonical_putImageLine {s : State} (h : s.canonical) (pkg : Nat) (l : ImageLine) :
    (s.putImageLine pkg l).canonical := by
  unfold State.putImageLine
  refine canonical_ite h ?_
  have hput := canonical_optionStore l.data (canonical_poisonLine h l.ent l.va) (canonical_storeLine h pkg l.ent l.half l.va)
  exact hput

theorem canonical_execDeviceCheckpointStart {s : State} (h : s.canonical) : Out.canonical (execDeviceCheckpointStart s) :=
  Out.canonical_next (canonical_scheduleFab (canonical_tick (canonical_modPkg h _ _)) _ _)

theorem canonical_releaseHold {s : State} (h : s.canonical) (pkg : Nat) : (s.releaseHold pkg).canonical :=
  canonical_foldl _ _ (fun _ _ hs => canonical_foldl _ _ (fun _ _ hs₁ => canonical_startAt hs₁ _ _ _) (canonical_modDie hs _ _))
    h

theorem canonical_execDeviceCheckpointCommit {s : State} (h : s.canonical) : Out.canonical (execDeviceCheckpointCommit s) := by
  unfold execDeviceCheckpointCommit
  extract_lets _
  split
  · exact Out.canonical_next h
  · exact Out.canonical_next (canonical_releaseHold (canonical_modDie (canonical_modDie (canonical_modPkg h _ _) _ _) _ _) _)

theorem canonical_dropRequests {s : State} (h : s.canonical) (pkg : Nat) : (s.dropRequests pkg).canonical :=
  canonical_dropCommands (canonical_withCores h (swf_ssetAll _ _ _ h.1)) _

theorem canonical_restoreDevice {s : State} (h : s.canonical) (pkg : Nat) (c : DevCkpt) :
    (s.restoreDevice pkg c).canonical := by
  unfold State.restoreDevice
  extract_lets _ s₁ s₂ _ s₃
  have h₁ : s₁.canonical := by
    unfold s₁
    refine canonical_foldl _ _ (fun s x hs => ?_) h
    extract_lets _ s₂
    have h₂ : s₂.canonical := canonical_foldl _ _ (fun _ _ hs₁ => canonical_unschedule (canonical_vacateCores hs₁ _) _) hs
    split
    · exact h₂
    · exact canonical_modDie h₂ _ _
  have h₂ : s₂.canonical := canonical_modPkg h₁ _ _
  have h₃ : s₃.canonical := canonical_foldl _ _ (fun _ _ hs => canonical_modCol hs _ _) h₂
  exact canonical_dropRequests (canonical_foldl _ _ (fun _ _ hs => canonical_putImageLine hs _ _) h₃) _

theorem canonical_pollDie {s : State} (h : s.canonical) (die : Nat) : (s.pollDie die).canonical :=
  canonical_ite (canonical_update (canonical_startMoves h _ _))
    (canonical_ite (canonical_modDie (canonical_startMoves h _ _) _ _)
    (canonical_ite (canonical_update (canonical_startMoves h _ _)) (canonical_startMoves h _ _)))

/-! ### The host interface and packages -/

theorem canonical_execDenyClear {s : State} (h : s.canonical) : Out.canonical (execDenyClear s) :=
  Out.canonical_ite (Out.canonical_next h) (Out.canonical_next (canonical_modPkg h _ _))

theorem canonical_renewLease {s : State} (h : s.canonical) (k : Nat) : (s.renewLease k).canonical :=
  canonical_scheduleFab (canonical_modPkg (canonical_unschedule h _) _ _) _ _

theorem canonical_makeOwner {s : State} (h : s.canonical) (k agent : Nat) : (s.makeOwner k agent).canonical :=
  canonical_renewLease (canonical_modPkg h _ _) _

theorem canonical_claim {s : State} (h : s.canonical) (k : Nat) (claims : List Nat) : (s.claim k claims).canonical := by
  unfold State.claim
  extract_lets _ deny s₁
  have hdeny : ∀ (u : State) l, u.canonical → (deny u l).canonical := fun _ _ ht => canonical_modPkg ht _ _
  have h₁ : s₁.canonical := canonical_modPkg h _ _
  split
  · exact canonical_ite (hdeny _ _ (canonical_makeOwner h₁ _ _)) (hdeny _ _ h)
  · split
    · exact hdeny _ _ h
    · split
      · exact h
      · exact hdeny _ _ (canonical_makeOwner h _ _)

theorem canonical_execOwnClaim {s : State} (h : s.canonical) : Out.canonical (execOwnClaim s) :=
  Out.canonical_next (canonical_claim h _ _)

theorem canonical_execOwnBeat {s : State} (h : s.canonical) : Out.canonical (execOwnBeat s) :=
  Out.canonical_ite (Out.canonical_next h)
    (Out.canonical_ite (Out.canonical_next (canonical_renewLease h _)) (Out.canonical_next (canonical_modPkg h _ _)))

theorem canonical_execRegisterWrite {s : State} (h : s.canonical) : Out.canonical (execRegisterWrite s) := by
  unfold execRegisterWrite
  extract_lets _ _ _ _ _
  split
  · exact Out.canonical_next h
  · split
    · exact Out.canonical_next (canonical_claim h _ _)
    · split
      · exact Out.canonical_next (canonical_modPkg h _ _)
      · split
        · exact Out.canonical_next (canonical_modPkg h _ _)
        · split
          · exact Out.canonical_next (canonical_renewLease h _)
          · exact Out.canonical_ite (Out.canonical_next (canonical_modDie h _ _))
              (Out.canonical_ite (Out.canonical_next (canonical_modDie h _ _)) (Out.canonical_next (canonical_modPkg h _ _)))

theorem canonical_execOwnerLeaseExpiry {s : State} (h : s.canonical) : Out.canonical (execOwnerLeaseExpiry s) :=
  Out.canonical_ite (Out.canonical_next (canonical_modPkg h _ _)) (Out.canonical_next h)

theorem canonical_acceptCommand {s : State} (h : s.canonical) (k : Nat) : (s.acceptCommand k).canonical :=
  canonical_ite h (canonical_scheduleFab (canonical_tick (canonical_modPkg h _ _)) _ _)

theorem canonical_completeAs {s : State} (h : s.canonical) (k : Nat) (c : HostCmd) (status named : Nat) :
    (s.completeAs k c status named).canonical :=
  canonical_modPkg h _ _

theorem canonical_hostCommand {s : State} (h : s.canonical) {act : State → HostCmd → State × Option Nat}
    (hact : ∀ (t : State) (c : HostCmd), t.canonical → pairCanonical (act t c)) : Out.canonical (hostCommand act s) := by
  unfold hostCommand
  extract_lets k
  cases (s.pkg k).cmd with
  | none => exact Out.canonical_next h
  | some c =>
    refine Out.canonical_ite (Out.canonical_next h) ?_
    cases (s.pkg k).duplicateOf c with
    | some n => exact Out.canonical_next (canonical_completeAs h _ _ _ _)
    | none =>
      have hs := hact s c h
      generalize act s c = answer at hs ⊢
      obtain ⟨t, _ | st⟩ := answer
      · exact Out.canonical_next (canonical_modPkg hs _ _)
      · exact Out.canonical_next (canonical_completeAs hs _ _ _ _)

theorem canonical_execUnknownCommand {s : State} (h : s.canonical) : Out.canonical (execUnknownCommand s) := by
  unfold execUnknownCommand
  refine canonical_hostCommand h (fun t _ ht => ?_)
  exact ht

theorem canonical_submit {s : State} (h : s.canonical) (die queue a : Nat) : (s.submit die queue a).1.canonical := by
  unfold State.submit
  extract_lets _ _ _ _
  split
  · exact canonical_modDie (canonical_tick h) _ _
  · exact canonical_post (canonical_completionRecord h _ _ _) _ _ _ _ _ _ _ _

theorem canonical_execSubmit {s : State} (h : s.canonical) : Out.canonical (execSubmit s) := by
  unfold execSubmit
  extract_lets _
  refine canonical_hostCommand h (fun t _ ht => ?_)
  split
  · exact ht
  · exact canonical_submit ht _ _ _

theorem canonical_taskCommand {s : State} (h : s.canonical) (ok : Task → Bool) {act : State → Nat → Task → State}
    (hact : ∀ (t : State) (die : Nat) (x : Task), t.canonical → (act t die x).canonical) :
    Out.canonical (taskCommand ok act s) := by
  unfold taskCommand
  extract_lets _
  refine canonical_hostCommand h fun t c ht => ?_
  split
  · exact ht
  · extract_lets _
    split
    · exact ht
    · split
      · exact hact _ _ _ ht
      · exact ht

theorem canonical_execPreempt {s : State} (h : s.canonical) : Out.canonical (execPreempt s) :=
  canonical_taskCommand h _ (fun _ _ _ ht => canonical_modDie ht _ _)

theorem canonical_execResume {s : State} (h : s.canonical) : Out.canonical (execResume s) :=
  canonical_taskCommand h _ (fun _ _ _ ht => canonical_modDie ht _ _)

theorem canonical_execDiscard {s : State} (h : s.canonical) : Out.canonical (execDiscard s) :=
  canonical_taskCommand h _ (fun _ _ _ ht => canonical_modDie (canonical_completionRecord ht _ _ _) _ _)

theorem canonical_hostGuard {s : State} (h : s.canonical) (act : Guard → Bool → W → W → GuardOut) (firstp : Bool) :
    Out.canonical (hostGuard act firstp s) := by
  unfold hostGuard
  extract_lets _
  refine canonical_hostCommand h (fun t _ ht => ?_)
  extract_lets _ _ _ _
  split
  · exact ht
  · split
    · exact ht
    · exact canonical_hostWrite (canonical_tick (canonical_ite
        (canonical_hostWrite (canonical_ite ht (canonical_writeGuard ht _ _ _ _ _)) _ _ _)
        (canonical_ite ht (canonical_writeGuard ht _ _ _ _ _)))) _ _ _

theorem canonical_execHgacq {s : State} (h : s.canonical) : Out.canonical (execHgacq s) :=
  canonical_hostGuard h _ _

theorem canonical_execHgrel {s : State} (h : s.canonical) : Out.canonical (execHgrel s) :=
  canonical_hostGuard h _ _

theorem canonical_execGfree {s : State} (h : s.canonical) : Out.canonical (execGfree s) := by
  unfold execGfree
  extract_lets _ _
  refine canonical_hostCommand h (fun t _ ht => ?_)
  extract_lets _
  split
  · exact ht
  · split
    · exact ht
    · exact canonical_ite (canonical_writeLine (canonical_writeLine (canonical_tick ht) _ _ _ _ _) _ _ _ _ _)
        (canonical_writeLine (canonical_tick ht) _ _ _ _ _)

theorem canonical_execLogread {s : State} (h : s.canonical) : Out.canonical (execLogread s) := by
  unfold execLogread
  extract_lets _
  refine canonical_hostCommand h (fun t _ ht => ?_)
  split
  · exact ht
  · exact canonical_modDie (canonical_hostWrite ht _ _ _) _ _

theorem canonical_execCkpt {s : State} (h : s.canonical) : Out.canonical (execCkpt s) := by
  unfold execCkpt
  extract_lets _ _
  refine canonical_hostCommand h (fun t _ ht => ?_)
  split
  · exact ht
  · exact canonical_modDie (canonical_modDie ht _ _) _ _

theorem canonical_execRestore {s : State} (h : s.canonical) : Out.canonical (execRestore s) := by
  unfold execRestore
  extract_lets _
  refine canonical_hostCommand h (fun t _ ht => ?_)
  split
  · exact ht
  · split
    · exact ht
    · exact canonical_restoreDevice ht _ _

theorem canonical_execBkpool {s : State} (h : s.canonical) : Out.canonical (execBkpool s) := by
  unfold execBkpool
  extract_lets _
  refine canonical_hostCommand h (fun t _ ht => ?_)
  extract_lets _ _
  split
  · exact ht
  · split
    · exact ht
    · exact canonical_modPkg ht _ _

theorem canonical_execHandover {s : State} (h : s.canonical) : Out.canonical (execHandover s) := by
  unfold execHandover
  extract_lets _
  refine canonical_hostCommand h (fun t _ ht => ?_)
  extract_lets _ _ s₂
  have h₂ : s₂.canonical := canonical_unschedule ht _
  split
  · exact ht
  · exact canonical_scheduleFab (canonical_modPkg h₂ _ _) _ _

theorem canonical_execAttest {s : State} (h : s.canonical) : Out.canonical (execAttest s) := by
  unfold execAttest
  extract_lets _
  refine canonical_hostCommand h (fun t _ ht => ?_)
  exact canonical_hostWrite ht _ _ _

theorem canonical_dropLinks {s : State} (h : s.canonical) (pkg : Nat) : (s.dropLinks pkg).canonical :=
  canonical_foldl _ _ (fun _ _ hs => canonical_ite hs
    (canonical_reportLink (canonical_portDown (canonical_portDown hs _ _) _ _) _ _ _)) h

theorem canonical_resetPackage {s : State} (h : s.canonical) (pkg : Nat) (trip : Bool) :
    (s.resetPackage pkg trip).canonical := by
  unfold State.resetPackage
  extract_lets s₂ _ _ s₃ _ _ s₄
  have h₁ : ({ s with agenda := s.agenda.filter fun d => !ofPkg pkg d } : State).canonical := h
  have h₂ : s₂.canonical := canonical_dropLinks (canonical_dropCommands h₁ _) _
  clear_value s₂
  have h₃ : s₃.canonical := canonical_withSites h₂ (swf_ssetAll _ _ _ (swf_sclear _ _ _ _ h₂.1))
    (swf_ssetAll _ _ _ (swf_sclear _ _ _ _ h₂.2.1))
  have h₄ : s₄.canonical := canonical_modPkg (canonical_modDie (canonical_modDie h₃ _ _) _ _) _ _
  exact canonical_scheduleFab (canonical_tick h₄) _ _

theorem canonical_arrayTest {s : State} (h : s.canonical) (die : Nat) : (s.arrayTest die).canonical := by
  unfold State.arrayTest
  extract_lets _ s₁ s₂ _
  have h₁ : s₁.canonical := canonical_foldl _ _
    (fun _ _ hs => canonical_ite (canonical_post (canonical_modCore hs _ _) _ _ _ _ _ _ _ _) (canonical_modCore hs _ _)) h
  have h₂ : s₂.canonical := canonical_foldl _ _ (fun _ _ hs => canonical_ite
    (canonical_foldl _ _ (fun _ _ hs₁ => canonical_ite hs₁ (canonical_post (canonical_modCore hs₁ _ _) _ _ _ _ _ _ _ _))
    (canonical_modCol hs _ _)) (canonical_modCol hs _ _)) h₁
  exact canonical_modDie h₂ _ _

theorem canonical_run {s : State} (h : s.canonical) (c : HostCmd) : Out.canonical (c.run s) := by
  generalize hf : c.run = f
  unfold HostCmd.run at hf
  split at hf <;> subst hf
  · exact canonical_execSubmit h
  · exact canonical_execPreempt h
  · exact canonical_execResume h
  · exact canonical_execHgacq h
  · exact canonical_execHgrel h
  · exact canonical_execGfree h
  · exact canonical_execCkpt h
  · exact canonical_execRestore h
  · exact canonical_execHandover h
  · exact canonical_execUnknownCommand h

theorem canonical_pendingCommand {s : State} (h : s.canonical) (k : Nat) : (s.pendingCommand k).canonical := by
  unfold State.pendingCommand
  split
  · exact h
  · refine canonical_ite (canonical_completeAs h _ _ _ _) ?_
    split
    · next c _ _ t heq => exact canonical_run h c t heq
    · exact h

theorem canonical_measureConfig {s : State} (h : s.canonical) (k : Nat) : (s.measureConfig k).canonical :=
  canonical_modPkg h _ _

theorem canonical_resumeLast {s : State} (h : s.canonical) (k : Nat) : (s.resumeLast k).canonical := by
  unfold State.resumeLast
  extract_lets _
  split
  · exact h
  · exact canonical_restoreDevice h _ _

theorem canonical_endBoot {s : State} (h : s.canonical) (k : Nat) : (s.endBoot k).canonical :=
  canonical_ite (canonical_scheduleFab h _ _)
    (canonical_ite (canonical_watch (canonical_modPkg h _ _) _) (canonical_modPkg h _ _))

theorem canonical_execBootComplete {s : State} (h : s.canonical) : Out.canonical (execBootComplete s) := by
  unfold execBootComplete
  extract_lets _
  split
  · exact Out.canonical_next (canonical_endBoot h _)
  · split
    · exact Out.canonical_next (canonical_modPkg h _ _)
    · extract_lets s₁ s₂
      have h₁ : s₁.canonical := canonical_measureConfig (canonical_modPkg h _ _) _
      have h₂ : s₂.canonical := canonical_tick (canonical_arrayTest (canonical_arrayTest h₁ _) _)
      exact Out.canonical_next (canonical_endBoot (canonical_pendingCommand (canonical_ite (canonical_resumeLast h₂ _) h₂) _) _)

theorem canonical_execPodBoot {s : State} (h : s.canonical) : Out.canonical (execPodBoot s) := by
  unfold execPodBoot
  extract_lets _ _ _ _ s₁ _ _ s₂ _ s₃
  have h₁ : s₁.canonical := canonical_update h
  have h₂ : s₂.canonical := canonical_foldl _ _
    (fun _ _ hs => canonical_measureConfig
    (canonical_modPkg (canonical_foldl _ _ (fun _ _ hs₁ => canonical_modDie hs₁ _ _) hs) _ _) _) h₁
  have h₃ : s₃.canonical := canonical_modMedlar h₂ _ _
  exact Out.canonical_next (canonical_watch (canonical_scheduleFab h₃ _ _) _)

theorem canonical_pollCheckpoint {s : State} (h : s.canonical) (k : Nat) : (s.pollCheckpoint k).canonical := by
  unfold State.pollCheckpoint
  extract_lets _ _
  split
  · exact h
  · exact canonical_ite h (canonical_ite (canonical_update h) (canonical_ite h (canonical_completeAs h _ _ _ _)))

theorem canonical_pollPkg {s : State} (h : s.canonical) (k : Nat) : (s.pollPkg k).canonical :=
  canonical_pollCheckpoint (canonical_acceptCommand (canonical_modPkg h _ _) _) _

/-! ### Sequencing instructions -/

theorem canonical_notInLoop {s : State} (h : s.canonical) {f : State → Out}
    (hf : ∀ t : State, t.canonical → Out.canonical (f t)) :
    Out.canonical (notInLoop s f) :=
  Out.canonical_ite (Out.canonical_next (canonical_trap h _)) (hf s h)

theorem canonical_transfer {s : State} (h : s.canonical) (gn : Bool) (g : BitVec 4) (target : State → PC) (call : Bool) :
    Out.canonical (transfer gn g target call s) :=
  canonical_notInLoop h (fun _ ht => Out.canonical_ite (Out.canonical_next (canonical_upd ht _)) (Out.canonical_next ht))

theorem canonical_execLoop {s : State} (h : s.canonical) (f : FmtLoop) : Out.canonical (execLoop f s) := by
  unfold execLoop
  refine canonical_notInLoop h (fun t ht => ?_)
  split
  · exact Out.canonical_next ht
  · extract_lets _ _ _ _ _ _
    split
    · exact Out.canonical_next (canonical_trapAt ht _ _)
    · exact Out.canonical_ite (Out.canonical_next (canonical_upd ht _)) (Out.canonical_next (canonical_upd ht _))

theorem canonical_execLinc {s : State} (h : s.canonical) (f : FmtLinc) : Out.canonical (execLinc f s) := by
  unfold execLinc
  refine canonical_notInLoop h (fun t ht => ?_)
  split
  · exact Out.canonical_next ht
  · split
    · exact Out.canonical_next (canonical_trap ht _)
    · exact Out.canonical_next (canonical_upd ht _)

theorem canonical_execLexit {s : State} (h : s.canonical) (f : FmtG) : Out.canonical (execLexit f s) := by
  unfold execLexit
  extract_lets _ _ leave
  have hleave : ∀ x0, Out.canonical (leave x0) := fun _ => Out.canonical_next (canonical_upd h _)
  split
  · exact Out.canonical_next (canonical_trap h _)
  · split
    · exact Out.canonical_next h
    · split
      · exact hleave _
      · split
        · exact Out.canonical_next (canonical_trapAt h _ _)
        · exact hleave _

theorem canonical_execRot {s : State} (h : s.canonical) (f : FmtRot) : Out.canonical (execRot f s) :=
  Out.canonical_ite (Out.canonical_next (canonical_upd h _)) (Out.canonical_next h)

theorem canonical_execLoopBack {s : State} (h : s.canonical) : Out.canonical (execLoopBack s) := by
  unfold execLoopBack
  extract_lets _ _ _ _ _ _ _
  split
  · exact Out.canonical_next (canonical_modCore h _ _)
  · split
    · exact Out.canonical_next (canonical_modCore h _ _)

theorem canonical_arrive {s : State} (h : s.canonical) (n : Nat) : (s.arrive n).canonical := by
  unfold State.arrive
  extract_lets _ _ _ s₁ s₂ _ s₃
  have h₁ : s₁.canonical := canonical_upd h _
  have h₂ : s₂.canonical := canonical_upd h _
  have h₃ : s₃.canonical := canonical_scheduleCore h₂ _ _ _
  split
  · exact canonical_trap h _
  · split
    · exact canonical_ite h₁ (canonical_disagree h₁ _)
    · exact canonical_ite (canonical_trap h _)
        (canonical_ite (canonical_trap h _) (canonical_ite (canonical_schedule h₃ _ _ _) h₃))

theorem canonical_barWait {s : State} (h : s.canonical) (n : Nat) : (s.barWait n).canonical :=
  canonical_ite (canonical_upd h _) h

theorem canonical_execBarr {s : State} (h : s.canonical) (f : FmtBB) : Out.canonical (execBarr f s) :=
  Out.canonical_ite (Out.canonical_next (canonical_arrive h _)) (Out.canonical_next h)

theorem canonical_execBwait {s : State} (h : s.canonical) (f : FmtBB) : Out.canonical (execBwait f s) :=
  Out.canonical_ite (Out.canonical_next (canonical_barWait h _)) (Out.canonical_next h)

theorem canonical_execBsync {s : State} (h : s.canonical) (f : FmtBB) : Out.canonical (execBsync f s) :=
  Out.canonical_ite (Out.canonical_next (canonical_ite (canonical_arrive h _) (canonical_barWait (canonical_arrive h _) _)))
    (Out.canonical_next h)

theorem canonical_execArrivalPropagate {s : State} (h : s.canonical) : Out.canonical (execArrivalPropagate s) :=
  Out.canonical_next (canonical_foldl _ _ (fun _ _ hs => canonical_modCore hs _ _) h)

theorem canonical_execBarrierComplete {s : State} (h : s.canonical) : Out.canonical (execBarrierComplete s) :=
  Out.canonical_next (canonical_foldl _ _ (fun _ _ hs => canonical_modCore hs _ _) h)

theorem canonical_phaseWith {s : State} (h : s.canonical) (gn : Bool) (g : BitVec 4) (budget : Nat) : Out.canonical
    (phaseWith gn g budget s) :=
  canonical_notInLoop h (fun _ ht => Out.canonical_ite (Out.canonical_next (canonical_update (canonical_upd ht _)))
    (Out.canonical_next ht))

theorem canonical_execHalt {s : State} (h : s.canonical) (f : FmtG) : Out.canonical (execHalt f s) := by
  unfold execHalt
  refine canonical_notInLoop h (fun t ht => ?_)
  exact Out.canonical_ite (Out.canonical_next ht)
    (Out.canonical_ite (Out.canonical_next (canonical_abortTask (canonical_upd (canonical_post ht _ _ _ _ _ _ _ _) _) _ _ _))
    (Out.canonical_next (canonical_upd ht _)))

/-! ### Vector instructions -/

theorem canonical_vIssue {s : State} (h : s.canonical) (gs : BitVec 5) (d : BitVec 6) (lat : Nat) (form : VForm) (a b c : VReg)
    (rel : Core → Core) : Out.canonical (vIssue s gs d lat form a b c rel) := by
  unfold vIssue
  split <;> exact Out.canonical_next (canonical_upd h _)

theorem canonical_vBin {s : State} (h : s.canonical) (f : FmtVR) (lat : Nat) (form : VForm) : Out.canonical
    (vBin f lat form s) :=
  canonical_vIssue h _ _ _ _ _ _ _ _

theorem canonical_vInt {s : State} (h : s.canonical) (f : FmtVRX) (op : IOp) (n : Nat) : Out.canonical (vInt f op n s) :=
  canonical_vBin h _ _ _

theorem canonical_vFma {s : State} (h : s.canonical) (f : FmtVR) (t : FTy) : Out.canonical (vFma f t s) :=
  canonical_vIssue h _ _ _ _ _ _ _ _

theorem canonical_vLanes {s : State} (h : s.canonical) (f : FmtVR) (lat : Nat) (g : VReg → VReg → Nat → W) : Out.canonical
    (vLanes f lat g s) :=
  canonical_vIssue h _ _ _ _ _ _ _ _

theorem canonical_vLogic {s : State} (h : s.canonical) (f : FmtVR) (g : W → W → W) : Out.canonical (vLogic f g s) :=
  canonical_vLanes h _ _ _

theorem canonical_vUn {s : State} (h : s.canonical) (f : FmtVRA) (lat : Nat) (form : VForm) : Out.canonical
    (vUn f lat form s) :=
  canonical_vIssue h _ _ _ _ _ _ _ _

theorem canonical_vCmp {s : State} (h : s.canonical) (f : FmtVP) (c : W → W → Bool) : Out.canonical (vCmp f c s) :=
  Out.canonical_next (canonical_upd h _)

theorem canonical_vfCmp {s : State} (h : s.canonical) (f : FmtVP) (c : XVal → XVal → Bool) : Out.canonical (vfCmp f c s) :=
  canonical_vCmp h _ _

theorem canonical_viCmp {s : State} (h : s.canonical) (f : FmtVP) (c : Int → Int → Bool) : Out.canonical (viCmp f c s) :=
  canonical_vCmp h _ _

theorem canonical_viCmpU {s : State} (h : s.canonical) (f : FmtVP) (c : Nat → Nat → Bool) : Out.canonical (viCmpU f c s) :=
  canonical_vCmp h _ _

theorem canonical_vCvt {s : State} (h : s.canonical) (f : FmtVC) (sat : Bool) : Out.canonical (vCvt f sat s) :=
  Out.canonical_next (canonical_upd h _)

theorem canonical_execVflg {s : State} (h : s.canonical) (f : FmtVFlg) : Out.canonical (execVflg f s) := by
  unfold execVflg
  split
  · exact Out.canonical_next h
  · exact Out.canonical_next (canonical_upd h _)

theorem canonical_execVbcvt {s : State} (h : s.canonical) (f : FmtVBCvt) : Out.canonical (execVbcvt f s) :=
  Out.canonical_next (canonical_upd h _)

theorem canonical_execVstw {s : State} (h : s.canonical) (f : FmtVStw) : Out.canonical (execVstw f s) :=
  Out.canonical_ite (Out.canonical_next (canonical_trap h _)) (Out.canonical_next (canonical_upd h _))

/-! ### The dispatch of instructions and events -/

/-- Every instruction and every event keeps the canonical form (log 1). -/
theorem canonical_exec {s : State} (h : s.canonical) (i : Instr) : Out.canonical (exec i s) := by
  unfold exec
  cases i with
  | nop => exact Out.canonical_next h
  | iadd _ | isub _ | imul _ | imulh _ | imulhu _ | and _ | or _ | xor _ | andn _ | shl _ | shr _ | sra _ | rotl _ | min _
  | max _ | minu _ | maxu _ | shadd1 _ | shadd2 _ | shadd3 _ | iadds _ | isubs _ =>
    exact canonical_sOp h _ _ _
  | clz _ | popc _ | mov _ => exact canonical_sUn h _ _
  | sel _ => exact canonical_execSel h _
  | cmpeq _ | cmpne _ | cmplt _ | cmple _ | cmpltu _ | cmpleu _ | cmpbit _ => exact canonical_sCmp h _ _
  | mfc _ | mfb _ | mfq _ => exact canonical_sGet h _ _ _ _
  | mtc _ => exact canonical_execMtc h _
  | mfp _ => exact canonical_execMfp h _
  | mtp _ => exact canonical_execMtp h _
  | mtb _ => exact canonical_execMtb h _
  | mtq _ => exact canonical_execMtq h _
  | mftask _ => exact canonical_execMftask h _
  | mttask _ => exact canonical_execMttask h _
  | trapi _ => exact canonical_execTrapi h _
  | rft => exact canonical_execRft h
  | br _ | call _ | bri _ | calli _ | ret _ => exact canonical_transfer h _ _ _ _
  | loop _ => exact canonical_execLoop h _
  | linc _ => exact canonical_execLinc h _
  | lexit _ => exact canonical_execLexit h _
  | rot _ => exact canonical_execRot h _
  | barr _ => exact canonical_execBarr h _
  | bwait _ => exact canonical_execBwait h _
  | bsync _ => exact canonical_execBsync h _
  | phase _ | phaseRg _ => exact canonical_phaseWith h _ _ _
  | halt _ => exact canonical_execHalt h _
  | vaddF32 _ | vaddF16 _ | vaddBf16 _ | vsubF32 _ | vsubF16 _ | vsubBf16 _ | vmulF32 _ | vmulF16 _ | vmulBf16 _
  | vminF32 _ | vminF16 _ | vminBf16 _ | vmaxF32 _ | vmaxF16 _ | vmaxBf16 _ | viminI32 _ | viminI16 _ | viminI8 _
  | vimaxI32 _ | vimaxI16 _ | vimaxI8 _ =>
    exact canonical_vBin h _ _ _
  | vfmaF32 _ | vfmaF16 _ | vfmaBf16 _ => exact canonical_vFma h _ _
  | viaddI32 _ | viaddI16 _ | viaddI8 _ | visubI32 _ | visubI16 _ | visubI8 _ | vimulI32 _ | vimulI16 _ | vimulI8 _ =>
    exact canonical_vInt h _ _ _
  | vand _ | vor _ | vxor _ | vandn _ | vshl _ | vshr _ | vsra _ => exact canonical_vLogic h _ _
  | vsel _ => exact canonical_vIssue h _ _ _ _ _ _ _ _
  | vperm _ | vbcst _ => exact canonical_vLanes h _ _ _
  | vredAddF32 _ | vredMaxF32 _ | vredMinF32 _ | vredAddI32 _ | vredMaxI32 _ | vredMinI32 _ | vexp2 _ | vlog2 _ | vrcp _
  | vrsq _ | vmov _ =>
    exact canonical_vUn h _ _ _
  | vflg _ => exact canonical_execVflg h _
  | vcvt _ | vcvts _ => exact canonical_vCvt h _ _
  | vbmax _ | vqdual _ | vdq _ | vstr _ => exact Out.canonical_next (canonical_upd h _)
  | vbcvt _ => exact canonical_execVbcvt h _
  | vstw _ => exact canonical_execVstw h _
  | vfcmpeq _ | vfcmpne _ | vfcmplt _ | vfcmple _ | vfcmpun _ => exact canonical_vfCmp h _ _
  | vicmpeq _ | vicmpne _ | vicmplt _ | vicmple _ => exact canonical_viCmp h _ _
  | vicmpltu _ | vicmpleu _ => exact canonical_viCmpU h _ _
  | mldw _ => exact canonical_execMldw h _
  | mldwb _ => exact canonical_execMldwb h _
  | mswap _ => exact canonical_execMswap h _
  | mstream _ | mstreamb _ => exact canonical_mstream h _ _
  | mclr _ => exact canonical_execMclr h _
  | msetp _ => exact canonical_execMsetp h _
  | mdrain _ => exact canonical_execMdrain h _
  | mflg _ => exact canonical_execMflg h _
  | mclrf _ => exact canonical_execMclrf h _
  | ldw _ | ldwReg _ | ldh _ | ldhReg _ | ldhu _ | ldhuReg _ | ldb _ | ldbReg _ | ldbu _ | ldbuReg _ =>
    exact canonical_loadS h _ _ _ _ _ _
  | stw _ | stwReg _ | sth _ | sthReg _ | stb _ | stbReg _ => exact canonical_storeS h _ _ _ _ _ _
  | vldV0 _ | vldV0Reg _ | vldV1 _ | vldV1Reg _ => exact canonical_loadV h _ _ _ _ _
  | vstV0 _ | vstV0Reg _ | vstV1 _ | vstV1Reg _ => exact canonical_storeV h _ _ _ _ _ _
  | vgthV0 _ | vgthV1 _ => exact canonical_gather h _ _
  | vsctV0 _ | vsctV1 _ => exact canonical_scatter h _ _ _
  | qpushV0 _ | qpushV1 _ => exact canonical_ringPush h _ _
  | qpopV0 _ | qpopV1 _ => exact canonical_ringPop h _ _
  | spadd _ | spaddReg _ | spmax _ | spmaxReg _ | spswp _ | spswpReg _ => exact canonical_spAtomic h _ _ _ _ _
  | cpyld _ => exact canonical_execCpyld h _
  | cpygo _ => exact canonical_execCpygo h _
  | cpystat _ => exact canonical_execCpystat h _
  | vbcpySs _ | vbcpyBs _ | vbcpySb _ => exact canonical_vbcpy h _ _
  | wbzero _ | wbcopy _ | wbcmp _ => exact canonical_bankForm h _ _ _ _ _ _ _ _
  | wbfence _ => exact canonical_execWbfence h _
  | lupd _ => exact canonical_execLupd h _
  | wbtag _ => exact canonical_execWbtag h _
  | tload _ | tstore _ => exact canonical_tileForm h _ _
  | tloadz _ => exact canonical_execTloadz h _
  | gacq _ | gacqX _ | gacqS _ | grel _ | grelX _ | grelS _ => exact canonical_guardForm h _ _ _ _ _ _ _
  | fadd _ | fcas _ | fswap _ => exact canonical_farAtomic h _ _ _
  | nmsadd _ | nmsgd _ | nmzero _ | nmcopy _ | nmcmp _ => exact canonical_nmForm h _ _ _
  | nmfence _ => exact canonical_execNmfence h _
  | bkalloc _ | bkxlat _ | bkshare _ | bkfree _ | bkload _ | bkstore _ => exact canonical_bkForm h _ _ _ _
  | fstat _ => exact canonical_execFstat h _
  | collAr _ | collRs _ | collAg _ | collBc _ => exact canonical_collForm h _ _
  | ccancel _ => exact canonical_execCcancel h _
  | cstat _ => exact canonical_execCstat h _
  | cpld _ => exact canonical_execCpld h _
  | xsend _ => exact canonical_execXsend h _
  | xrecv _ => exact canonical_execXrecv h _
  | xfwd _ => exact canonical_execXfwd h _
  | fsend _ => exact canonical_execFsend h _
  | frecv _ => exact canonical_execFrecv h _
  | resultVisible => exact canonical_execResultVisible h
  | c0WriteApplied => exact canonical_execC0WriteApplied h
  | vbcvtLateRead => exact canonical_execVbcvtLateRead h
  | rollback => exact canonical_execRollback h
  | serviceHandlerEntry | tileOpComplete | drainComplete | wbfenceRelease | phaseArrival | creditReturn =>
    exact Out.canonical_next (canonical_modCore h _ _)
  | bank0Resume => exact canonical_execBank0Resume h
  | checkpointCommit => exact canonical_execCheckpointCommit h
  | dataError => exact canonical_execDataError h
  | rerunCompare => exact canonical_execRerunCompare h
  | loopBack => exact canonical_execLoopBack h
  | arrivalPropagate => exact canonical_execArrivalPropagate h
  | barrierComplete => exact canonical_execBarrierComplete h
  | streamVectorBegin => exact canonical_execStreamVectorBegin h
  | lineSumAdd => exact canonical_execLineSumAdd h
  | streamRetire => exact canonical_execStreamRetire h
  | planeRowWrite => exact canonical_execPlaneRowWrite h
  | planeLoadComplete => exact canonical_execPlaneLoadComplete h
  | drainRowWrite => exact canonical_execDrainRowWrite h
  | busBeat => exact canonical_execBusBeat h
  | busCopyRequest => exact canonical_execBusCopyRequest h
  | copyStart => exact canonical_execCopyStart h
  | copyBeat => exact canonical_execCopyBeat h
  | copyComplete => exact canonical_execCopyComplete h
  | copyRestart => exact canonical_execCopyRestart h
  | multicastLand => exact canonical_execMulticastLand h
  | vbSlotsTakeEffect | tvmapUpdate | busWireRepairEnd => exact Out.canonical_next (canonical_modCol h _ _)
  | cpldComplete => exact canonical_execCpldComplete h
  | bankOpStart => exact canonical_execBankOpStart h
  | lupdGradientBeat => exact canonical_execLupdGradientBeat h
  | lupdRowUpdate => exact canonical_execLupdRowUpdate h
  | bankOpEnd => exact canonical_execBankOpEnd h
  | busWireFailure => exact canonical_execBusWireFailure h
  | busWireRepairStart => exact canonical_execBusWireRepairStart h
  | boundaryComplete => exact Out.canonical_next (canonical_boundary h _)
  | phaseCounterAdvance => exact canonical_execPhaseCounterAdvance h
  | superstepStart => exact canonical_execSuperstepStart h
  | emptyBoundary => exact canonical_execEmptyBoundary h
  | stragglerDeadline => exact canonical_execStragglerDeadline h
  | stragglerStopComplete => exact canonical_execStragglerStopComplete h
  | meshFlitDepart => exact canonical_execMeshFlitDepart h
  | meshFlitArrive => exact canonical_execMeshFlitArrive h
  | farRequestSend => exact canonical_execFarRequestSend h
  | tileTransferComplete => exact canonical_execTileTransferComplete h
  | taggedStoreAtGuard => exact canonical_execTaggedStoreAtGuard h
  | gacqAtGuard | grelAtGuard => exact canonical_guardEvent h _
  | atomicAtMemory => exact canonical_execAtomicAtMemory h
  | dupCopyAck => exact canonical_execDupCopyAck h
  | nmCommandAtNmu => exact canonical_execNmCommandAtNmu h
  | nmLineStep => exact canonical_execNmLineStep h
  | nmCommandComplete => exact canonical_execNmCommandComplete h
  | nmfenceComplete => exact canonical_execNmfenceComplete h
  | brambleDirectoryOp => exact canonical_execBrambleDirectoryOp h
  | brambleComplete => exact canonical_execBrambleComplete h
  | blockReturnToPool => exact canonical_execBlockReturnToPool h
  | tloadzComplete => exact canonical_execTloadzComplete h
  | segmentMoveComplete => exact canonical_execSegmentMoveComplete h
  | deviceCheckpointStart => exact canonical_execDeviceCheckpointStart h
  | deviceCheckpointCommit => exact canonical_execDeviceCheckpointCommit h
  | registerWrite => exact canonical_execRegisterWrite h
  | ownClaim => exact canonical_execOwnClaim h
  | ownBeat => exact canonical_execOwnBeat h
  | denyClear => exact canonical_execDenyClear h
  | ownerLeaseExpiry => exact canonical_execOwnerLeaseExpiry h
  | handoverWindowExpiry | firmwareWrite => exact Out.canonical_next (canonical_modPkg h _ _)
  | submit => exact canonical_execSubmit h
  | preempt => exact canonical_execPreempt h
  | resume => exact canonical_execResume h
  | discard => exact canonical_execDiscard h
  | hgacq | hgrel => exact canonical_hostGuard h _ _
  | gfree => exact canonical_execGfree h
  | logread => exact canonical_execLogread h
  | ckpt => exact canonical_execCkpt h
  | restore => exact canonical_execRestore h
  | bkpool => exact canonical_execBkpool h
  | handover => exact canonical_execHandover h
  | attest => exact canonical_execAttest h
  | unknownCommand => exact canonical_execUnknownCommand h
  | powerOnReset | packageReset | thermalTrip => exact Out.canonical_next (canonical_resetPackage h _ _)
  | bootComplete => exact canonical_execBootComplete h
  | thermalThrottle => exact Out.canonical_next (canonical_modDie h _ _)
  | podBoot => exact canonical_execPodBoot h
  | linkFlitDelivery => exact canonical_execLinkFlitDelivery h
  | linkDown => exact canonical_execLinkDown h
  | linkTraining => exact canonical_execLinkTraining h
  | fabricFlitDepart => exact canonical_execFabricFlitDepart h
  | fabricFlitArrive => exact canonical_execFabricFlitArrive h
  | remoteMemoryHop => exact canonical_execRemoteMemoryHop h
  | channelMessageReceive => exact canonical_execChannelMessageReceive h
  | channelRetransmit => exact canonical_execChannelRetransmit h
  | collRequestAtPrimary => exact canonical_execCollRequestAtPrimary h
  | grantReceived => exact canonical_execGrantReceived h
  | collectiveStart => exact canonical_execCollectiveStart h
  | collectiveComplete => exact canonical_execCollectiveComplete h
  | cancelAtPrimary => exact canonical_execCancelAtPrimary h
  | voidCollectiveComplete => exact canonical_execVoidCollectiveComplete h
  | heartbeat => exact canonical_execHeartbeat h
  | failover => exact canonical_execFailover h
  | collectRequest => exact canonical_execCollectRequest h
  | numberingResume => exact canonical_execNumberingResume h

/-! ### Issue of a bundle -/

theorem canonical_andThen {o : Out} (h : Out.canonical o) {f : State → Out}
    (hf : ∀ t : State, t.canonical → Out.canonical (f t)) :
    Out.canonical (andThen o f) := by
  cases o with
  | next s => exact hf s (h s rfl)
  | fault _ | refused _ => intro t ht; cases ht

theorem canonical_happen {s : State} (h : s.canonical) (e : Ev) : Out.canonical (s.happen e) :=
  canonical_exec (canonical_update h) _

theorem canonical_landMcast {s : State} (h : s.canonical) (k : Nat) : (s.landMcast k).canonical :=
  canonical_ite (canonical_scheduleCore h _ _ _) h

theorem canonical_advanceCore {s : State} (h : s.canonical) (k : Nat) : Out.canonical (s.advanceCore k) := by
  unfold State.advanceCore
  split
  · exact Out.canonical_next h
  · extract_lets s₁
    have h₁ : s₁.canonical := canonical_modCore h _ _
    refine canonical_andThen (canonical_happen h₁ _) (fun t ht => ?_)
    exact canonical_andThen (canonical_happen ht _)
      (fun _ ht₁ => canonical_andThen (canonical_happen ht₁ _)
      (fun _ ht₂ => Out.canonical_next (canonical_landMcast (canonical_tick ht₂) _)))

theorem canonical_advanceMcast {s : State} (h : s.canonical) (k : Nat) : (s.advanceMcast k).canonical :=
  canonical_landMcast (canonical_modCore h _ _) _

theorem canonical_endService {s : State} (h : s.canonical) (k : Nat) : (s.endService k).canonical := by
  unfold State.endService
  split
  · exact canonical_ite (canonical_scheduleCore h _ _ _) h
  · exact h

theorem canonical_runSlots {s : State} (h : s.canonical) (l : List (Slot × Instr)) (s₀ : State) :
    Out.canonical (s₀.runSlots l s) := by
  induction l generalizing s with
  | nil => exact Out.canonical_next h
  | cons x l ih =>
    rw [State.runSlots]
    refine Out.canonical_ite (Out.canonical_next (canonical_trap (canonical_update h) _)) ?_
    split
    · next t heq =>
      have ht : t.canonical := canonical_exec (canonical_update h) x.2 t heq
      refine Out.canonical_ite (Out.canonical_next ht) ?_
      exact Out.canonical_ite (Out.canonical_next (canonical_trap ht _)) (Out.canonical_ite (Out.canonical_next ht) (ih ht))
    · intro t ht; cases ht
    · intro t ht; cases ht

theorem canonical_endBundle {s : State} (h : s.canonical) (k : Nat) (c0 : Core) (b : Bundle) :
    (s.endBundle k c0 b).canonical := by
  unfold State.endBundle
  extract_lets _ s₁ _ _ s₂ _
  have h₁ : s₁.canonical := canonical_update h
  have h₂ : s₂.canonical := canonical_tick (canonical_ite h₁ (canonical_flushReleases h₁ _))
  split
  · exact h₁
  · split
    · extract_lets _ _ s₃ s₄ s₅ s₆
      have h₃ : s₃.canonical := canonical_setCore h₂ _ _
      have h₄ : s₄.canonical := canonical_update h₃
      have h₅ : s₅.canonical := canonical_ite (canonical_ite (canonical_setCore h₄ _ _) (canonical_scheduleCore h₄ _ _ _)) h₄
      have h₆ : s₆.canonical := canonical_ite (canonical_scheduleCore h₅ _ _ _) h₅
      exact canonical_endService h₆ _

theorem canonical_issueBundle {s : State} (h : s.canonical) (k : Nat) (b : Bundle) : Out.canonical (s.issueBundle k b) := by
  unfold State.issueBundle
  extract_lets _ _ _ s₁ s₂
  have h₁ : s₁.canonical := canonical_setCore h _ _
  have h₂ : s₂.canonical := canonical_update h₁
  split
  · exact Out.canonical_next (canonical_beginTrap h _ _)
  · refine canonical_andThen (canonical_runSlots h₂ _ _) (fun t ht => ?_)
    split
    · exact Out.canonical_next (canonical_beginTrap h _ _)
    · exact Out.canonical_ite (Out.canonical_next (canonical_beginTrap h _ _))
        (Out.canonical_next (canonical_endBundle ht _ _ _))

theorem canonical_issueCore {s : State} (h : s.canonical) (k : Nat) : Out.canonical (s.issueCore k) := by
  unfold State.issueCore
  split
  · exact Out.canonical_next h
  · split
    · exact Out.canonical_next (canonical_beginTrap h _ _)
    · exact canonical_issueBundle h _ _

theorem canonical_willIssue {s : State} (h : s.canonical) (k : Nat) : (s.willIssue k).canonical :=
  canonical_update h

theorem canonical_gateIssue {s : State} (h : s.canonical) (k : Nat) : Out.canonical (s.gateIssue k) := by
  unfold State.gateIssue
  refine canonical_andThen (canonical_advanceCore h _) (fun t ht => ?_)
  split
  · exact Out.canonical_next (canonical_willIssue ht _)
  · exact Out.canonical_ite (Out.canonical_next (canonical_ite (canonical_lateTransfer h _ _) h))
      (Out.canonical_next (canonical_willIssue ht _))

theorem canonical_passCycle {s : State} (h : s.canonical) (k : Nat) (f : Core → Core) : Out.canonical (s.passCycle k f) :=
  canonical_andThen (canonical_advanceCore h _) (fun _ ht => Out.canonical_next (canonical_modCore ht _ _))

theorem canonical_fenceCycle {s : State} (h : s.canonical) (k : Nat) : Out.canonical (s.fenceCycle k) :=
  canonical_passCycle (canonical_ite (canonical_scheduleCore h _ _ _) h) _ _

theorem canonical_ckpCycle {s : State} (h : s.canonical) (k : Nat) : Out.canonical (s.ckpCycle k) :=
  Out.canonical_ite (Out.canonical_next h) (Out.canonical_next (canonical_update (canonical_setCore h _ _)))

theorem canonical_runCycle {s : State} (h : s.canonical) (k : Nat) : Out.canonical (s.runCycle k) := by
  unfold State.runCycle
  extract_lets _ _
  split
  · exact Out.canonical_next h
  · exact Out.canonical_next h
  · exact Out.canonical_next h
  · exact Out.canonical_ite (canonical_passCycle h _ _) (canonical_gateIssue h _)
  · exact canonical_passCycle h _ _
  · exact Out.canonical_ite (Out.canonical_next (canonical_atOnce (canonical_advanceMcast h _) _))
      (Out.canonical_ite (canonical_advanceCore h _) (Out.canonical_next (canonical_advanceMcast h _)))
  · exact Out.canonical_next (canonical_advanceMcast h _)
  · exact canonical_andThen (canonical_passCycle h _ _) (fun _ ht => Out.canonical_next (canonical_endService ht _))
  · exact Out.canonical_ite (canonical_passCycle h _ _)
      (canonical_andThen (canonical_advanceCore h _)
      (fun _ ht => Out.canonical_next (canonical_ite ht (canonical_atOnce ht _))))
  · exact Out.canonical_ite (canonical_advanceCore h _)
      (canonical_andThen (canonical_passCycle h _ _)
      (fun _ ht => Out.canonical_next (canonical_ite (canonical_atOnce ht _) ht)))

theorem canonical_gateCore {s : State} (h : s.canonical) (k : Nat) : Out.canonical (s.gateCore k) :=
  Out.canonical_ite (canonical_ckpCycle h _) (Out.canonical_ite (canonical_fenceCycle h _) (canonical_runCycle h _))

/-! ### Cycles of the fabric clock -/

theorem canonical_takeDue {s : State} (h : s.canonical) (dom : Domain) : (s.takeDue dom).canonical := by
  unfold State.takeDue
  split
  · exact h
  · exact canonical_update h

theorem canonical_beginDie {s : State} (h : s.canonical) (die : Nat) : (s.beginDie die).canonical := by
  unfold State.beginDie
  extract_lets s₁ _ _ _
  have h₁ : s₁.canonical := canonical_modDie h _ _
  split
  · exact canonical_update h₁

theorem canonical_mishap {s : State} (h : s.canonical) (x : Mishap) : (s.mishap x).canonical := by
  unfold State.mishap
  split
  · exact canonical_modCore h _ _
  · exact canonical_modCol h _ _
  · exact canonical_modPkg h _ _
  · exact canonical_modPkg h _ _
  · exact canonical_modPkg h _ _
  · exact canonical_failMessage h _ _ _

theorem canonical_takeInputs {s : State} (h : s.canonical) : s.takeInputs.canonical := by
  unfold State.takeInputs
  extract_lets _
  split
  · exact canonical_foldl _ _ (fun _ _ hs => canonical_modPkg (canonical_foldl _ _ (fun _ _ hs₁ => canonical_mishap hs₁ _) hs) _
      _) (canonical_foldl _ _ (fun _ _ hs => canonical_scheduleCore hs _ _ _) (canonical_update h))

theorem canonical_nextCycle {s : State} (h : s.canonical) : s.nextCycle.canonical :=
  canonical_update (canonical_takeInputs (canonical_foldl _ _ (fun _ _ hs => canonical_beginDie hs _) (canonical_update h)))

/-! ### The step -/

/-- Every step keeps the canonical form: an operation edits the parts through writes of the sparse maps only (log 1). -/
theorem canonical_step {s : State} (h : s.canonical) : Out.canonical (step s) := by
  unfold step
  split
  · exact Out.canonical_next (canonical_nextCycle h)
  · exact canonical_gateCore (canonical_update h) _
  · exact canonical_issueCore (canonical_update h) _
  · exact Out.canonical_next (canonical_flushReleases (canonical_update h) _)
  · exact canonical_happen (canonical_update h) _
  · exact Out.canonical_next (canonical_takeDue (canonical_update h) _)
  · exact Out.canonical_next (canonical_pollDie (canonical_update h) _)
  · exact Out.canonical_next (canonical_pollPkg (canonical_update h) _)

/-- Settles O56: every operation edits the parts through writes of the sparse maps, which keep them canonical. -/
theorem everyStepKeepsTheCanonicalForm : Obligations.EveryStepKeepsTheCanonicalForm := fun _ _ h hstep =>
  canonical_step h _ hstep

end Sys2Proof.Machine
end

section

/-!
## Results becoming visible (R61 to R67, R70, R74 to R77, R80; O12)

RESULT_VISIBLE takes the entries that are due out of a core and shows them one after another. What showing an entry of a bank
does to the machine is said by `writesBank`: one bank of one core changes. What it does to the bank is a matter of the bank's
own operations, whose reads after writes stand next; the parts of the obligation are assembled from both.
-/
namespace Sys2Proof.Machine

/-! ### One bank of one core changes -/

@[simp] theorem setBankN_setBankN (c : Core) (n : Bool) (b b' : Bank) : (c.setBankN n b).setBankN n b' = c.setBankN n b' := by
  cases n <;> rfl

/-- The second state differs from the first in one bank of one core only, and holds b there. -/
def writesBank (s t : State) (k : Nat) (n : Bool) (b : Bank) : Prop :=
  (∀ j, j ≠ k → t.core j = s.core j) ∧ t.core k = (s.core k).setBankN n b ∧
    t.columns = s.columns ∧ t.dies = s.dies ∧ t.pkgs = s.pkgs ∧ t.agenda = s.agenda

theorem writesBank_trans {s t u : State} {k : Nat} {n : Bool} {b b' : Bank} (h : writesBank s t k n b)
    (h' : writesBank t u k n b') : writesBank s u k n b' := by
  obtain ⟨hcore, hk, hcols, hdies, hpkgs, hagenda⟩ := h
  obtain ⟨hcore', hk', hcols', hdies', hpkgs', hagenda'⟩ := h'
  refine ⟨fun j hj => (hcore' j hj).trans (hcore j hj), ?_, hcols'.trans hcols, hdies'.trans hdies, hpkgs'.trans hpkgs,
    hagenda'.trans hagenda⟩
  rw [hk', hk, setBankN_setBankN]

theorem writesBank_setCore (s : State) (k : Nat) (n : Bool) (b : Bank) :
    writesBank s (s.setCore k ((s.core k).setBankN n b)) k n b :=
  ⟨fun _ hj => core_setCore_other s _ hj, core_setCore_self s k _, rfl, rfl, rfl, rfl⟩

theorem writesBank_modBankN (s : State) (k : Nat) (n : Bool) (f : Bank → Bank) :
    writesBank s (s.modCore k fun c => c.modBankN n f) k n (f ((s.core k).bankN n)) := writesBank_setCore s k n _

theorem bankN_of_writesBank {s t : State} {k : Nat} {n : Bool} {b : Bank} (h : writesBank s t k n b) :
    (t.core k).bankN n = b := by
  rw [h.2.1, bankN_setBankN]

/-! ### What RESULT_VISIBLE shows -/

/-- The machine when RESULT_VISIBLE has taken the due entries out of a core and shown none of them yet. -/
def afterTaking (s : State) (k : Nat) : State := s.setCore k (Spec.shown s k)

@[simp] theorem core_afterTaking (s : State) (k : Nat) : (afterTaking s k).core k = Spec.shown s k := core_setCore_self s k _

theorem bankN_shown (s : State) (k : Nat) (n : Bool) : (Spec.shown s k).bankN n = (s.core k).bankN n := rfl

theorem exec_resultVisible (s : State) :
    exec .resultVisible s =
      let due := (s.core s.ev.k).pend.filter Spec.isDue
      .next ((afterTaking s s.ev.k).showAll s.ev.k []
        (due.filter (·.kind.first) ++ due.filter fun e => !e.kind.first)) := rfl

theorem exec_resultVisible_one {s : State} {k : Nat} {e : Pend} (hk : s.ev.k = k)
    (hdue : (s.core k).pend.filter Spec.isDue = [e]) :
    exec .resultVisible s = .next ((afterTaking s k).visibleAfter k [] e) := by
  subst hk
  rw [exec_resultVisible, hdue]
  cases hf : e.kind.first <;> simp [hf, State.showAll]

theorem exec_resultVisible_two {s : State} {k : Nat} {x y : Pend} (hk : s.ev.k = k)
    (hdue : (s.core k).pend.filter Spec.isDue = [x, y]) (hfirst : x.kind.first = true ∨ y.kind.first = false) :
    exec .resultVisible s = .next (((afterTaking s k).visibleAfter k [] x).visibleAfter k [x] y) := by
  subst hk
  rw [exec_resultVisible, hdue]
  rcases hfirst with hx | hy
  · cases hy : y.kind.first <;> simp [hx, hy, State.showAll]
  · cases hx : x.kind.first <;> simp [hx, hy, State.showAll]

theorem exec_resultVisible_two_swapped {s : State} {k : Nat} {x y : Pend} (hk : s.ev.k = k)
    (hdue : (s.core k).pend.filter Spec.isDue = [x, y]) (hx : x.kind.first = false) (hy : y.kind.first = true) :
    exec .resultVisible s = .next (((afterTaking s k).visibleAfter k [] y).visibleAfter k [y] x) := by
  subst hk
  rw [exec_resultVisible, hdue]
  simp [hx, hy, State.showAll]

theorem showsIn_of_writesBank {s t : State} {k : Nat} {e : Pend} {b : Bank}
    (h : writesBank (afterTaking s k) t k e.bank b) : Spec.showsIn s t k e b := by
  obtain ⟨hcore, hk, hcols, hdies, hpkgs, -⟩ := h
  refine ⟨fun j hj => (hcore j hj).trans (core_setCore_other s _ hj), ?_, hcols, hdies, hpkgs⟩
  rw [hk, core_afterTaking]
  cases e.bank <;> rfl

theorem bankN_of_showsIn {s t : State} {k : Nat} {e : Pend} {b : Bank} (h : Spec.showsIn s t k e b) :
    (t.core k).bankN e.bank = b := by
  rw [h.2.1]
  cases e.bank <;> rfl

/-! ### Kinds whose showing is one edit of the bank -/

/-- The edit of its bank that an entry of a scalar kind is, where it is one. -/
def bankEdit (kind : PendKind) : Option (Bank → Bank) :=
  match kind with
  | .sres d v => some fun b => (b.setS d v).pushS v
  | .reg d v => some fun b => b.setS d v
  | .preds w => some fun b => w.foldl (fun b x => b.setP x.1 x.2) b
  | .vpreds u w => some fun b => w.foldl (fun b x => b.setVP u x.1 x.2.1 x.2.2) b
  | .base n v => some fun b => { b with b := sset 0 b.b n v }
  | .qword n w v => some fun b => b.setQWord n w v
  | .qhead n v w => some fun b => b.setQHead n v w
  | .qtail n v w => some fun b => b.setQTail n v w
  | .rot br pr => some fun b => { b with brb := br, prb := pr }
  | .loopPass p h i => some fun b => { b with loop := { b.loop with pass := p, pass32 := h, idx := i } }
  | _ => none

theorem visibleAfter_of_bankEdit {e : Pend} {f : Bank → Bank} (he : bankEdit e.kind = some f) (s : State) (k : Nat)
    (done : List Pend) : s.visibleAfter k done e = s.modCore k fun c => c.modBankN e.bank f := by
  unfold State.visibleAfter State.visible
  revert he
  cases e.kind <;> simp +contextual [bankEdit]

theorem first_of_bankEdit {kind : PendKind} {f : Bank → Bank} (he : bankEdit kind = some f) : kind.first = false := by
  revert he
  cases kind <;> simp [bankEdit, PendKind.first]

theorem writesBank_bankEdit {e : Pend} {f : Bank → Bank} (he : bankEdit e.kind = some f) (s : State) (k : Nat)
    (done : List Pend) : writesBank s (s.visibleAfter k done e) k e.bank (f ((s.core k).bankN e.bank)) := by
  rw [visibleAfter_of_bankEdit he]
  exact writesBank_modBankN s k e.bank f

/-- An entry that is one edit of its bank, shown alone. -/
theorem showsIn_bankEdit {s : State} {k : Nat} {e : Pend} {f : Bank → Bank} (he : bankEdit e.kind = some f) (hk : s.ev.k = k)
    (hdue : (s.core k).pend.filter Spec.isDue = [e]) :
    ∃ t, exec .resultVisible s = .next t ∧ Spec.showsIn s t k e (f ((s.core k).bankN e.bank)) := by
  refine ⟨_, exec_resultVisible_one hk hdue, showsIn_of_writesBank ?_⟩
  have hw := writesBank_bankEdit he (afterTaking s k) k []
  rwa [core_afterTaking, bankN_shown] at hw

/-- Two entries that are edits of one bank, shown in issue order. -/
theorem showsIn_bankEdit_bankEdit {s : State} {k : Nat} {x y : Pend} {f g : Bank → Bank} (hx : bankEdit x.kind = some f)
    (hy : bankEdit y.kind = some g) (hk : s.ev.k = k) (hdue : (s.core k).pend.filter Spec.isDue = [x, y])
    (hbank : x.bank = y.bank) :
    ∃ t, exec .resultVisible s = .next t ∧ Spec.showsIn s t k x (g (f ((s.core k).bankN x.bank))) := by
  refine ⟨_, exec_resultVisible_two hk hdue (.inr (first_of_bankEdit hy)), showsIn_of_writesBank ?_⟩
  have hwx := writesBank_bankEdit hx (afterTaking s k) k []
  have hwy := writesBank_bankEdit hy ((afterTaking s k).visibleAfter k [] x) k [x]
  rw [core_afterTaking, bankN_shown] at hwx
  rw [← hbank, bankN_of_writesBank hwx] at hwy
  exact writesBank_trans hwx hwy

/-! ### Several writes of a map -/

theorem sget_ssetAll_of_notMem {α : Type} [DecidableEq α] (d : α) (l : List (Nat × α)) (m : SMap α) (n : Nat)
    (h : n ∉ l.map (·.1)) : sget d (ssetAll d m l) n = sget d m n := by
  induction l generalizing m with
  | nil => rfl
  | cons x l ih =>
    obtain ⟨hx, hl⟩ := not_or.1 (mt List.mem_cons.2 h)
    exact (ih (sset d m x.1 x.2) hl).trans (sget_sset_other d m x.2 hx)

/-- Several writes to different keys: each key listed reads its value. -/
theorem sget_ssetAll_of_mem {α : Type} [DecidableEq α] (d : α) (l : List (Nat × α)) (m : SMap α) (hl : (l.map (·.1)).Nodup)
    {x : Nat × α} (hx : x ∈ l) : sget d (ssetAll d m l) x.1 = x.2 := by
  induction l generalizing m with
  | nil => cases hx
  | cons y l ih =>
    obtain ⟨hy, hl⟩ := List.nodup_cons.1 hl
    rcases List.mem_cons.1 hx with rfl | hx
    · exact (sget_ssetAll_of_notMem d l _ x.1 hy).trans (sget_sset_self d m x.1 x.2)
    · exact ih (sset d m y.1 y.2) hl hx

/-- Writes of the default value into an empty map may be left out. -/
theorem sget_ssetAll_nondefault {α : Type} [DecidableEq α] (d : α) (l : List (Nat × α)) (hl : (l.map (·.1)).Nodup)
    {x : Nat × α} (hx : x ∈ l) : sget d (ssetAll d [] (l.filter fun y => y.2 ≠ d)) x.1 = x.2 := by
  have hsub : (l.filter fun y => decide (y.2 ≠ d)).map (·.1) |>.Sublist (l.map (·.1)) := List.filter_sublist.map _
  by_cases hv : x.2 = d
  · rw [sget_ssetAll_of_notMem, hv]
    · rfl
    · intro hmem
      obtain ⟨y, hy, hyx⟩ := List.mem_map.1 hmem
      obtain ⟨hyl, hyd⟩ := List.mem_filter.1 hy
      have hxy : y = x := List.inj_on_of_nodup_map hl hyl hx hyx
      exact absurd (hxy ▸ hv) (by simpa using hyd)
  · exact sget_ssetAll_of_mem d _ [] (hsub.nodup hl) (List.mem_filter.2 ⟨hx, by simpa using hv⟩)

/-! ### Last results (R63) -/

/-- The entries of a last-result file after a value enters it. -/
theorem pushed_ssetAll {α : Type} [DecidableEq α] (d : α) (old : SMap α) (v : α) :
    Spec.pushed d old (ssetAll d [] (((0, v) :: (List.range 5).map fun i => (i + 1, sget d old i)).filter fun x => x.2 ≠ d))
      v := by
  have hkeys : (((0, v) :: (List.range 5).map fun i => (i + 1, sget d old i)).map (·.1)).Nodup := by simp [List.range_succ]
  refine ⟨sget_ssetAll_nondefault d _ hkeys (x := (0, v)) (by simp), fun n hn => ?_⟩
  exact sget_ssetAll_nondefault d _ hkeys (x := (n + 1, sget d old n))
    (List.mem_cons_of_mem _ (List.mem_map.2 ⟨n, List.mem_range.2 hn, rfl⟩))

theorem pushed_pushS (b : Bank) (v : W) : Spec.pushed 0 b.sn (b.pushS v).sn v := pushed_ssetAll 0 b.sn v

theorem pushed_pushV (b : Bank) (v : VReg) : Spec.pushed 0 b.vn (b.pushV v).vn v := pushed_ssetAll 0 b.vn v

/-! ### Scalar registers (R61, R62, R64) -/

theorem sget_s_setS (b : Bank) (d : BitVec 6) (v : W) (m : Nat) :
    sget 0 (b.setS d v).s m = if m = d.toNat ∧ d.toNat < 48 then v else sget 0 b.s m := by
  unfold Bank.setS
  extract_lets n
  split
  · next hn => simp only [sget_sset, hn, and_true, n]
  · next hn =>
    have hs : sget 0 b.s m = if m = n ∧ n < 48 then v else sget 0 b.s m := (if_neg fun h => hn h.2).symm
    split <;> exact hs

theorem sget_sk_setS (b : Bank) (d : BitVec 6) (v : W) (m : Nat) :
    sget 0 (b.setS d v).sk m = if m + 48 = d.toNat ∧ d.toNat < 56 then v else sget 0 b.sk m := by
  unfold Bank.setS
  extract_lets n
  split
  · rw [if_neg (by omega)]
  · split
    · rw [sget_sset]
      exact if_congr (by omega) rfl rfl
    · rw [if_neg (by omega)]

/-- Clearing one bit of a mask of main-file registers. -/
theorem getLsbD_clearBit (r : BitVec 48) {m n : Nat} (hn : n < 48) :
    (r &&& ~~~(1#48 <<< n)).getLsbD m = if m = n then false else r.getLsbD m := by
  simp only [BitVec.getLsbD_and, BitVec.getLsbD_not, BitVec.getLsbD_shiftLeft, BitVec.getLsbD_one]
  by_cases hm : m < 48
  · by_cases hmn : m = n
    · simp [hmn, hn]
    · by_cases hlt : m < n
      · simp [hm, hlt, hmn]
      · simp [hm, hlt, hmn, show m - n ≠ 0 by omega]
  · simp [hm, BitVec.getLsbD_of_ge r m (by omega)]

theorem releasedS_setS (b : Bank) (d : BitVec 6) (v : W) {m : Nat} (hm : m < 48) :
    (b.setS d v).releasedS m = if m = d.toNat then false else b.releasedS m := by
  unfold Bank.setS
  extract_lets n
  split
  · next hn => exact getLsbD_clearBit b.relS hn
  · have hlive : b.releasedS m = if m = n then false else b.releasedS m := (if_neg (by omega)).symm
    split <;> exact hlive

theorem setS_frame (b : Bank) (d : BitVec 6) (v : W) :
    b.setS d v = { b with s := (b.setS d v).s, sk := (b.setS d v).sk, relS := (b.setS d v).relS } := by
  unfold Bank.setS
  extract_lets n
  split
  · rfl
  · split <;> rfl

theorem scalarResultsBecomeVisible : Spec.ScalarResultsBecomeVisible := by
  intro s k e d v hk hdue b n hkind
  have hread (b' : Bank) (hs : b'.s = (b.setS d v).s) (hsk : b'.sk = (b.setS d v).sk) (hrel : b'.relS = (b.setS d v).relS) :
      (∀ m, sget 0 b'.s m = if m = n ∧ n < 48 then v else sget 0 b.s m) ∧
        (∀ m, sget 0 b'.sk m = if m + 48 = n ∧ n < 56 then v else sget 0 b.sk m) ∧
        ∀ m < 48, b'.releasedS m = if m = n then false else b.releasedS m := by
    refine ⟨fun m => hs ▸ sget_s_setS b d v m, fun m => hsk ▸ sget_sk_setS b d v m, fun m hm => ?_⟩
    rw [← releasedS_setS b d v hm, Bank.releasedS, hrel, Bank.releasedS]
  have hframe := setS_frame b d v
  rcases hkind with hkind | hkind
  · obtain ⟨t, ht, hshows⟩ := showsIn_bankEdit (f := fun b => (b.setS d v).pushS v) (by rw [hkind]; rfl) hk hdue
    obtain ⟨hs, hsk, hrel⟩ := hread ((b.setS d v).pushS v) rfl rfl rfl
    have hsn : (b.setS d v).sn = b.sn := by rw [hframe]
    have hpush := pushed_pushS (b.setS d v) v
    rw [hsn] at hpush
    refine ⟨t, _, ht, hshows, ?_, hs, hsk, hrel, fun _ => hpush, fun hreg => by simp [hkind] at hreg⟩
    change (b.setS d v).pushS v = _
    unfold Bank.pushS
    rw [hframe]
  · obtain ⟨t, ht, hshows⟩ := showsIn_bankEdit (f := fun b => b.setS d v) (by rw [hkind]; rfl) hk hdue
    obtain ⟨hs, hsk, hrel⟩ := hread (b.setS d v) rfl rfl rfl
    refine ⟨t, _, ht, hshows, ?_, hs, hsk, hrel, fun hsres => by simp [hkind] at hsres, fun _ => ?_⟩
    · change b.setS d v = _
      rw [hframe]
    · change (b.setS d v).sn = b.sn
      rw [hframe]

/-! ### Predicates, base registers and ring registers (R66, R67, R70) -/

theorem setP_frame (b : Bank) (n : Nat) (v : Bool) : b.setP n v = { b with p := (b.setP n v).p } := by
  unfold Bank.setP
  split <;> rfl

theorem getLsbD_setP (b : Bank) {n m : Nat} (v : Bool) (hm : m < 16) :
    (b.setP n v).p.getLsbD m = if m = n ∧ n ≠ 0 then v else b.p.getLsbD m := by
  have hbit : (1#16 <<< n).getLsbD m = decide (m = n) := by
    simp only [BitVec.getLsbD_shiftLeft, BitVec.getLsbD_one, hm, decide_true, Bool.true_and]
    by_cases hlt : m < n
    · simp [hlt, Nat.ne_of_lt hlt]
    · simp [hlt, show m - n = 0 ↔ m = n by omega]
  by_cases hn : n = 0
  · rw [hn, setP_zero, if_neg fun h => h.2 rfl]
  · have hset : (b.setP n v).p = if v then b.p ||| (1#16 <<< n) else b.p &&& ~~~(1#16 <<< n) := by
      rw [Bank.setP, if_neg hn]
    rw [hset]
    cases v
    · simp only [Bool.false_eq_true, if_false, BitVec.getLsbD_and, BitVec.getLsbD_not, hbit, hm]
      by_cases hmn : m = n <;> simp [hmn, hn]
    · simp only [if_true, BitVec.getLsbD_or, hbit]
      by_cases hmn : m = n <;> simp [hmn, hn]

theorem onlyPreds_trans {b b₁ b₂ : Bank} (h : b₁ = { b with p := b₁.p }) (h' : b₂ = { b₁ with p := b₂.p }) :
    b₂ = { b with p := b₂.p } := h'.trans (by rw [h])

/-- A list of predicate writes changes the predicates alone: those it names, but p0, take their values. -/
theorem foldl_setP (w : List (Nat × Bool)) (b : Bank) (hw : ∀ x ∈ w, x.1 < 16)
    (hnd : ((w.map (·.1)).filter (· ≠ 0)).Nodup) :
    let b' := w.foldl (fun b x => b.setP x.1 x.2) b
    b' = { b with p := b'.p } ∧ (∀ x ∈ w, x.1 ≠ 0 → b'.p.getLsbD x.1 = x.2) ∧
      ∀ m < 16, m = 0 ∨ m ∉ w.map (·.1) → b'.p.getLsbD m = b.p.getLsbD m := by
  induction w generalizing b with
  | nil => exact ⟨rfl, fun _ hx => absurd hx List.not_mem_nil, fun _ _ _ => rfl⟩
  | cons y w ih =>
    have hnd' : ((w.map (·.1)).filter (· ≠ 0)).Nodup := by
      refine List.Nodup.sublist ?_ hnd
      exact (List.sublist_cons_self _ _).filter _
    obtain ⟨hframe, hnamed, hother⟩ := ih (b.setP y.1 y.2) (fun x hx => hw x (List.mem_cons_of_mem _ hx)) hnd'
    intro b'
    refine ⟨?_, fun x hx hx0 => ?_, fun m hm hm' => ?_⟩
    · exact onlyPreds_trans (setP_frame b y.1 y.2) hframe
    · rcases List.mem_cons.1 hx with rfl | hx
      · have hnew : x.1 ∉ w.map (·.1) := by
          rw [List.map_cons, List.filter_cons_of_pos (by simpa using hx0)] at hnd
          intro hmem
          exact (List.nodup_cons.1 hnd).1 (List.mem_filter.2 ⟨hmem, by simpa using hx0⟩)
        have hx16 : x.1 < 16 := hw x (List.mem_cons_self ..)
        rw [show b'.p.getLsbD x.1 = (b.setP x.1 x.2).p.getLsbD x.1 from hother x.1 hx16 (.inr hnew), getLsbD_setP b x.2 hx16,
          if_pos ⟨rfl, hx0⟩]
      · exact hnamed x hx hx0
    · have hrest : m = 0 ∨ m ∉ w.map (·.1) := hm'.imp_right fun h hmem => h (List.mem_cons_of_mem _ hmem)
      rw [show b'.p.getLsbD m = (b.setP y.1 y.2).p.getLsbD m from hother m hm hrest, getLsbD_setP b y.2 hm, if_neg]
      rintro ⟨rfl, hy0⟩
      exact hm'.elim hy0 fun h => h (List.mem_cons_self ..)

/-- A field of nine bits written over a register of 128 bits. -/
def withField (q : BitVec 128) (lo : Nat) (f : BitVec 9) : BitVec 128 :=
  (q &&& ~~~(0x1FF#128 <<< lo)) ||| (f.zeroExtend 128 <<< lo)

theorem getLsbD_withField (q : BitVec 128) {lo i : Nat} (f : BitVec 9) (hi : i < 128) :
    (withField q lo f).getLsbD i = if lo ≤ i ∧ i < lo + 9 then f.getLsbD (i - lo) else q.getLsbD i := by
  have hmask : (BitVec.ofNat 128 (2 ^ 9 - 1)).getLsbD (i - lo) = decide (i - lo < 9) := by
    rw [BitVec.getLsbD_ofNat, Nat.testBit_two_pow_sub_one]
    simp [show i - lo < 128 by omega]
  have hbit : (withField q lo f).getLsbD i =
      ((q.getLsbD i && !(!decide (i < lo) && decide (i - lo < 9))) || (!decide (i < lo) && f.getLsbD (i - lo))) := by
    rw [← hmask]
    simp [withField, hi, show i - lo < 128 by omega]
  rw [hbit]
  by_cases hlo : i < lo
  · simp [hlo, show ¬ lo ≤ i by omega]
  · by_cases hin : i - lo < 9
    · simp [hlo, hin, show lo ≤ i ∧ i < lo + 9 by omega]
    · simp [hlo, hin, show ¬ (lo ≤ i ∧ i < lo + 9) by omega, BitVec.getLsbD_of_ge f (i - lo) (by omega)]

/-- A field apart from the one written is unchanged. -/
theorem extractLsb'_withField (q : BitVec 128) {lo start len : Nat} (f : BitVec 9) (h : start + len ≤ 128)
    (hapart : start + len ≤ lo ∨ lo + 9 ≤ start) : (withField q lo f).extractLsb' start len = q.extractLsb' start len := by
  apply BitVec.eq_of_getLsbD_eq
  intro i hi
  rw [BitVec.getLsbD_extractLsb', BitVec.getLsbD_extractLsb', getLsbD_withField q f (by omega), if_neg (by omega)]

theorem getLsbD_ofBool_append (w : Bool) (v : BitVec 8) (i : Nat) :
    ((BitVec.ofBool w).append v : BitVec 9).getLsbD i = if i < 8 then v.getLsbD i else decide (i = 8) && w := by
  refine (BitVec.getLsbD_append (x := BitVec.ofBool w) (y := v) (i := i)).trans ?_
  by_cases hi : i < 8
  · simp [hi]
  · simp [hi, BitVec.getLsbD_ofBool, show i - 8 = 0 ↔ i = 8 by omega]

/-- What a wrap bit over a pointer reads as, written to a field of a ring register. -/
theorem extractLsb'_withField_pointer (q : BitVec 128) {lo : Nat} (v : BitVec 8) (w : Bool) (h : lo + 9 ≤ 128) :
    (withField q lo ((BitVec.ofBool w).append v)).extractLsb' lo 8 = v := by
  apply BitVec.eq_of_getLsbD_eq
  intro i hi
  rw [BitVec.getLsbD_extractLsb', getLsbD_withField _ _ (by omega), if_pos (by omega), getLsbD_ofBool_append, if_pos (by omega)]
  simp [hi]

theorem getLsbD_withField_wrap (q : BitVec 128) {lo : Nat} (v : BitVec 8) (w : Bool) (h : lo + 9 ≤ 128) :
    (withField q lo ((BitVec.ofBool w).append v)).getLsbD (lo + 8) = w := by
  rw [getLsbD_withField _ _ (by omega), if_pos (by omega), getLsbD_ofBool_append, if_neg (by omega)]
  simp

theorem ofReg_withField_head (q : BitVec 128) (v : BitVec 8) (w : Bool) :
    Ring.ofReg (withField q 64 ((BitVec.ofBool w).append v)) = { Ring.ofReg q with head := v.toNat, hwrap := w } := by
  have hwrap := getLsbD_withField_wrap q (lo := 64) v w (by omega)
  have hother := getLsbD_withField q (lo := 64) (i := 88) ((BitVec.ofBool w).append v) (by omega)
  rw [if_neg (by omega)] at hother
  unfold Ring.ofReg
  rw [extractLsb'_withField_pointer q v w (by omega), hwrap, hother]
  simp (disch := omega) only [extractLsb'_withField]

theorem ofReg_withField_tail (q : BitVec 128) (v : BitVec 8) (w : Bool) :
    Ring.ofReg (withField q 80 ((BitVec.ofBool w).append v)) = { Ring.ofReg q with tail := v.toNat, twrap := w } := by
  have hwrap := getLsbD_withField_wrap q (lo := 80) v w (by omega)
  have hother := getLsbD_withField q (lo := 80) (i := 72) ((BitVec.ofBool w).append v) (by omega)
  rw [if_neg (by omega)] at hother
  unfold Ring.ofReg
  rw [extractLsb'_withField_pointer q v w (by omega), hwrap, hother]
  simp (disch := omega) only [extractLsb'_withField]

theorem sget_q_setQWord (b : Bank) (n w : Nat) (v : W) (m : Nat) :
    sget 0 (b.setQWord n w v).q m = if m = n then
      ((sget 0 b.q n &&& ~~~(0xFFFFFFFF#128 <<< (32 * w))) ||| (v.zeroExtend 128 <<< (32 * w))) &&& ringMask
      else sget 0 b.q m := by
  unfold Bank.setQWord
  rw [sget_smod]
  split
  · next hm => rw [hm]
  · rfl

theorem sget_q_setQHead (b : Bank) (n : Nat) (v : BitVec 8) (w : Bool) (m : Nat) :
    sget 0 (b.setQHead n v w).q m =
      if m = n then withField (sget 0 b.q m) 64 ((BitVec.ofBool w).append v) else sget 0 b.q m := by
  unfold Bank.setQHead withField
  rw [sget_smod]

theorem sget_q_setQTail (b : Bank) (n : Nat) (v : BitVec 8) (w : Bool) (m : Nat) :
    sget 0 (b.setQTail n v w).q m =
      if m = n then withField (sget 0 b.q m) 80 ((BitVec.ofBool w).append v) else sget 0 b.q m := by
  unfold Bank.setQTail withField
  rw [sget_smod]

theorem otherRegistersBecomeVisible : Spec.OtherRegistersBecomeVisible := by
  intro s k e hk hdue b
  have hshow (f : Bank → Bank) (he : bankEdit e.kind = some f) := showsIn_bankEdit he hk hdue
  refine ⟨?preds, ?base, ?qword, ?qhead, ?qtail, ?rot, ?loopPass⟩
  case preds =>
    intro w hw hnd hkind
    obtain ⟨t, ht, hshows⟩ := hshow _ (by rw [hkind]; rfl)
    exact ⟨t, _, ht, hshows, foldl_setP w b hw hnd⟩
  case base =>
    intro n v hkind
    obtain ⟨t, ht, hshows⟩ := hshow _ (by rw [hkind]; rfl)
    exact ⟨t, _, ht, hshows, rfl, fun m => sget_sset 0 b.b n m v⟩
  case qword =>
    intro n w v _ hkind
    obtain ⟨t, ht, hshows⟩ := hshow _ (by rw [hkind]; rfl)
    exact ⟨t, _, ht, hshows, rfl, sget_q_setQWord b n w v⟩
  case qhead =>
    intro n v w hkind
    obtain ⟨t, ht, hshows⟩ := hshow _ (by rw [hkind]; rfl)
    refine ⟨t, _, ht, hshows, rfl, fun m hm => (sget_q_setQHead b n v w m).trans (if_neg hm), ?_⟩
    rw [← ofReg_withField_head]
    exact congrArg Ring.ofReg ((sget_q_setQHead b n v w n).trans (if_pos rfl))
  case qtail =>
    intro n v w hkind
    obtain ⟨t, ht, hshows⟩ := hshow _ (by rw [hkind]; rfl)
    refine ⟨t, _, ht, hshows, rfl, fun m hm => (sget_q_setQTail b n v w m).trans (if_neg hm), ?_⟩
    rw [← ofReg_withField_tail]
    exact congrArg Ring.ofReg ((sget_q_setQTail b n v w n).trans (if_pos rfl))
  case rot =>
    intro br pr hkind
    exact hshow _ (by rw [hkind]; rfl)
  case loopPass =>
    intro p i h hkind
    exact hshow _ (by rw [hkind]; rfl)

/-! ### Lanes (R61, R139) -/

theorem packWords_lt (ws : List W) : packWords ws < 2 ^ (32 * ws.length) := by
  induction ws with
  | nil => simp [packWords]
  | cons w ws ih =>
    have hw := w.isLt
    have hpow : 2 ^ (32 * (w :: ws).length) = 4294967296 * 2 ^ (32 * ws.length) := by
      rw [List.length_cons, Nat.mul_add, Nat.pow_add, Nat.mul_comm]
    rw [packWords, hpow]
    omega

theorem packWords_digit (ws : List W) (l : Nat) (hl : l < ws.length) : packWords ws / 2 ^ (32 * l) % 2 ^ 32 = ws[l].toNat := by
  induction ws generalizing l with
  | nil => simp at hl
  | cons w ws ih =>
    have hw := w.isLt
    cases l with
    | zero =>
      rw [packWords, Nat.mul_zero, Nat.pow_zero, Nat.div_one, List.getElem_cons_zero]
      omega
    | succ l =>
      rw [packWords, Nat.mul_add, Nat.pow_add, Nat.mul_comm (2 ^ (32 * l)), ← Nat.div_div_eq_div_mul, List.getElem_cons_succ,
        ← ih l (by simpa using hl)]
      rw [show (w.toNat + 4294967296 * packWords ws) / 2 ^ (32 * 1) = packWords ws by omega]

theorem toNat_ofNat_packWords (ws : List W) (n : Nat) (hn : 32 * ws.length = n) :
    (BitVec.ofNat n (packWords ws)).toNat = packWords ws := by
  rw [BitVec.toNat_ofNat, Nat.mod_eq_of_lt (hn ▸ packWords_lt ws)]

theorem lane_ofLanes (f : Nat → W) {l : Nat} (hl : l < 64) : lane (ofLanes f) l = f l := by
  apply BitVec.eq_of_toNat_eq
  have hdigit := packWords_digit ((List.range 64).map f) l (by simpa using hl)
  rw [lane, ofLanes, BitVec.extractLsb'_toNat, toNat_ofNat_packWords _ _ (by simp), Nat.shiftRight_eq_div_pow, hdigit,
    List.getElem_map, List.getElem_range]

theorem lane_mergeLanes (m : BitVec 64) (new old : VReg) {l : Nat} (hl : l < 64) :
    lane (mergeLanes m new old) l = if m.getLsbD l then lane new l else lane old l := lane_ofLanes _ hl

/-! ### Vector registers (R61, R62, R64, R139) -/

/-- The main file of a unit. -/
def vfile (b : Bank) (u : Bool) : SMap VReg := if u then b.v1 else b.v0

/-- The lanes a of a mask m written to the vector register of code d of a unit, and nothing else but the last results, the flags
and the generators; the lanes beside the mask of a released register are free (log 48). -/
def lanesWritten (b b' : Bank) (u : Bool) (d : Nat) (m : BitVec 64) (a : VReg) : Prop :=
  (∀ n, n ≠ d ∨ 48 ≤ d → sget 0 (vfile b' u) n = sget 0 (vfile b u) n) ∧ vfile b' (!u) = vfile b (!u) ∧
    (d < 48 → b'.releasedV u d = false ∧ ∀ l < 64,
      (m.getLsbD l = true → lane (sget 0 (vfile b' u) d) l = lane a l) ∧
      (m.getLsbD l = false → b.releasedV u d = false →
        lane (sget 0 (vfile b' u) d) l = lane (sget 0 (vfile b u) d) l)) ∧
    (∀ n < 48, n ≠ d → b'.releasedV u n = b.releasedV u n) ∧ (∀ n, b'.releasedV (!u) n = b.releasedV (!u) n) ∧
    (∀ n, n + 48 ≠ d → sget 0 b'.vk n = sget 0 b.vk n) ∧
    (48 ≤ d → d < 56 → ∀ l < 64, lane (sget 0 b'.vk (d - 48)) l =
      if m.getLsbD l then lane a l else lane (sget 0 b.vk (d - 48)) l) ∧
    b' = { b with v0 := b'.v0, v1 := b'.v1, relV0 := b'.relV0, relV1 := b'.relV1, vk := b'.vk, vn := b'.vn,
                  flags := b'.flags, gen := b'.gen }

/-- The value a masked write leaves in a register that held o. -/
def putLanes (m : BitVec 64) (a o : VReg) : VReg := if m = BitVec.allOnes 64 then a else mergeLanes m a o

theorem lane_putLanes (m : BitVec 64) (a o : VReg) {l : Nat} (hl : l < 64) :
    lane (putLanes m a o) l = if m.getLsbD l then lane a l else lane o l := by
  unfold putLanes
  split
  · next hm => rw [hm, BitVec.getLsbD_allOnes, decide_eq_true hl, if_pos rfl]
  · exact lane_mergeLanes m a o hl

/-- A write to a main-file register of a unit. -/
theorem setV_main (b : Bank) (u : Bool) {d : BitVec 6} (m : BitVec 64) (a : VReg) (free : Nat → W) (hd : d.toNat < 48) :
    let put (o : VReg) := putLanes m a (if b.releasedV u d.toNat then ofLanes free else o)
    b.setV u d m a free = if u then { b with v1 := smod 0 b.v1 d.toNat put, relV1 := b.relV1 &&& ~~~(1#48 <<< d.toNat) }
      else { b with v0 := smod 0 b.v0 d.toNat put, relV0 := b.relV0 &&& ~~~(1#48 <<< d.toNat) } := by
  unfold Bank.setV
  simp only [hd, if_true, true_and]
  rfl

/-- A write to an operand-file register. -/
theorem setV_operand (b : Bank) (u : Bool) {d : BitVec 6} (m : BitVec 64) (a : VReg) (free : Nat → W) (hd : 48 ≤ d.toNat)
    (hd' : d.toNat < 56) : b.setV u d m a free = { b with vk := smod 0 b.vk (d.toNat - 48) (putLanes m a) } := by
  unfold Bank.setV
  simp only [Nat.not_lt.2 hd, hd', if_true, if_false, false_and]
  rfl

theorem lanesWritten_setV_main (b : Bank) (u : Bool) {d : BitVec 6} (m : BitVec 64) (a : VReg) (free : Nat → W)
    (hd : d.toNat < 48) : lanesWritten b (b.setV u d m a free) u d.toNat m a := by
  have hfile (n : Nat) : sget 0 (vfile (b.setV u d m a free) u) n = if n = d.toNat
      then putLanes m a (if b.releasedV u d.toNat then ofLanes free else sget 0 (vfile b u) n) else sget 0 (vfile b u) n := by
    rw [setV_main b u m a free hd]
    cases u
    · exact sget_smod 0 b.v0 d.toNat n fun o => putLanes m a (if b.releasedV false d.toNat then ofLanes free else o)
    · exact sget_smod 0 b.v1 d.toNat n fun o => putLanes m a (if b.releasedV true d.toNat then ofLanes free else o)
  have hlive (n : Nat) : (b.setV u d m a free).releasedV u n = if n = d.toNat then false else b.releasedV u n := by
    rw [setV_main b u m a free hd]
    cases u
    · exact getLsbD_clearBit b.relV0 hd
    · exact getLsbD_clearBit b.relV1 hd
  have hlanes : ∀ l < 64, (m.getLsbD l = true → lane (sget 0 (vfile (b.setV u d m a free) u) d.toNat) l = lane a l) ∧
      (m.getLsbD l = false → b.releasedV u d.toNat = false →
        lane (sget 0 (vfile (b.setV u d m a free) u) d.toNat) l = lane (sget 0 (vfile b u) d.toNat) l) := by
    intro l hl
    rw [hfile, if_pos rfl, lane_putLanes m a _ hl]
    exact ⟨fun h => if_pos h, fun h h' => by simp [h, h']⟩
  refine ⟨fun n hn => (hfile n).trans (if_neg (by omega)), ?_, fun _ => ⟨(hlive _).trans (if_pos rfl), hlanes⟩,
    fun n _ hn => (hlive n).trans (if_neg hn), ?_⟩
  · rw [setV_main b u m a free hd]
    cases u <;> rfl
  · rw [setV_main b u m a free hd]
    cases u <;> exact ⟨fun _ => rfl, fun _ _ => rfl, fun h => absurd hd (Nat.not_lt.2 h), rfl⟩

theorem lanesWritten_setV_operand (b : Bank) (u : Bool) {d : BitVec 6} (m : BitVec 64) (a : VReg) (free : Nat → W)
    (hd : 48 ≤ d.toNat) (hd' : d.toNat < 56) : lanesWritten b (b.setV u d m a free) u d.toNat m a := by
  rw [setV_operand b u m a free hd hd']
  have hvk (n : Nat) := sget_smod 0 b.vk (d.toNat - 48) n (putLanes m a)
  refine ⟨fun _ _ => rfl, rfl, fun h => absurd hd (Nat.not_le.2 h), fun _ _ _ => rfl, fun _ => rfl,
    fun n hn => (hvk n).trans (if_neg (by omega)), fun _ _ l hl => ?_, rfl⟩
  refine (congrArg (lane · l) ((hvk _).trans (if_pos rfl))).trans ?_
  exact lane_putLanes m a _ hl

/-- A write to a vector register by its code: a main-file register, an operand-file register or, from 56 on, none. -/
theorem lanesWritten_setV (b : Bank) (u : Bool) (d : BitVec 6) (m : BitVec 64) (a : VReg) (free : Nat → W) :
    lanesWritten b (b.setV u d m a free) u d.toNat m a := by
  by_cases hd : d.toNat < 48
  · exact lanesWritten_setV_main b u m a free hd
  · by_cases hd' : d.toNat < 56
    · exact lanesWritten_setV_operand b u m a free (Nat.not_lt.1 hd) hd'
    · rw [setV_discards b u d m a free (Nat.not_lt.1 hd')]
      exact ⟨fun _ _ => rfl, rfl, fun h => absurd h hd, fun _ _ _ => rfl, fun _ => rfl, fun _ _ => rfl,
        fun _ h => absurd h hd', rfl⟩

/-! ### Forming a result changes the flags and the generators alone (R56, R206) -/

/-- The second bank differs from the first in the flags and the generators at most. -/
def flagsOnly (b b' : Bank) : Prop := b' = { b with flags := b'.flags, gen := b'.gen }

theorem flagsOnly_refl (b : Bank) : flagsOnly b b := rfl

theorem flagsOnly_trans {b b₁ b₂ : Bank} (h : flagsOnly b b₁) (h' : flagsOnly b₁ b₂) : flagsOnly b b₂ := by
  unfold flagsOnly at *
  exact h'.trans (by rw [h])

theorem flagsOnly_draws (mode : RMode) (l n : Nat) (b : Bank) : flagsOnly b (b.draws mode l n).2 := by
  induction n generalizing b with
  | zero => exact flagsOnly_refl b
  | succ n ih =>
    unfold Bank.draws
    split
    · exact flagsOnly_trans (b₁ := (b.draw l).2) rfl (ih _)
    · exact ih b

theorem flagsOnly_orFlag (b : Bank) (l : Nat) (f : Flags) : flagsOnly b (b.orFlag l f) := by
  unfold Bank.orFlag
  split
  · exact flagsOnly_refl b
  · rfl

theorem flagsOnly_orFlags (u : Bool) (fs : List (Nat × Flags)) (b : Bank) : flagsOnly b (b.orFlags u fs) := by
  unfold Bank.orFlags
  induction fs generalizing b with
  | nil => exact flagsOnly_refl b
  | cons f fs ih => exact flagsOnly_trans (flagsOnly_orFlag b _ _) (ih _)

theorem flagsOnly_foldl {α β : Type} {b : Bank} (f : α × Bank → β → α × Bank)
    (hf : ∀ acc x, flagsOnly b acc.2 → flagsOnly b (f acc x).2) (l : List β) (acc : α × Bank) (h : flagsOnly b acc.2) :
    flagsOnly b (l.foldl f acc).2 := by
  induction l generalizing acc with
  | nil => exact h
  | cons x l ih => exact ih _ (hf acc x h)

theorem flagsOnly_perLane (b : Bank) (u : Bool) (m : BitVec 64) (mode : RMode) (nd : Nat → Nat)
    (f : Nat → List Nat → W × Flags) : flagsOnly b (perLane b u m mode nd f).2 := by
  unfold perLane
  refine flagsOnly_foldl _ (fun acc l h => ?_) _ _ (flagsOnly_refl b)
  by_cases hl : m.getLsbD l = true
  · rw [if_pos hl]
    exact flagsOnly_trans h (flagsOnly_trans (flagsOnly_draws mode _ _ _) (flagsOnly_orFlag _ _ _))
  · rw [if_neg hl]
    exact h

theorem flagsOnly_formRed (b : Bank) (u : Bool) (m : BitVec 64) (op : RedOp) (mode : RMode) (a : VReg) :
    flagsOnly b (formRed b u m op mode a).2 := by
  unfold formRed
  extract_lets xs d r
  refine flagsOnly_trans (b₁ := d.2) ?_ (flagsOnly_perLane _ _ _ _ _ _)
  unfold d
  split
  · exact flagsOnly_draws mode _ _ b
  · exact flagsOnly_refl b

theorem flagsOnly_formCvt (b : Bank) (u : Bool) (df sf : Nat) (teS teD : Int) (sat : Bool) (mode : RMode) (a : VReg) :
    flagsOnly b (formCvt b u df sf teS teD sat mode a).2 := by
  unfold formCvt
  extract_lets
  exact flagsOnly_perLane _ _ _ _ _ _

theorem flagsOnly_formBmax (b : Bank) (u : Bool) (t : BlkTy) (a : VReg) : flagsOnly b (formBmax b u t a).2 := by
  unfold formBmax
  extract_lets
  exact flagsOnly_orFlags _ _ _

theorem flagsOnly_formBcvt (b : Bank) (u : Bool) (t : BlkTy) (mode : RMode) (a bw : VReg) :
    flagsOnly b (formBcvt b u t mode a bw).2 := by
  unfold formBcvt
  extract_lets
  dsimp only
  exact flagsOnly_perLane _ _ _ _ _ _

theorem flagsOnly_formDq (b : Bank) (u : Bool) (t : BlkTy) (a bw : VReg) : flagsOnly b (formDq b u t a bw).2 := by
  unfold formDq
  exact flagsOnly_perLane _ _ _ _ _ _

theorem flagsOnly_formDual (b : Bank) (u : Bool) (t : BlkTy) (mode : RMode) (regs : List VReg) :
    flagsOnly b (formDual b u t mode regs).2.2 := by
  unfold formDual
  extract_lets
  dsimp only
  exact flagsOnly_perLane _ _ _ _ _ _

theorem flagsOnly_formV (b : Bank) (r : VRes) : flagsOnly b (formV b r).2.2 := by
  unfold formV
  cases r.form with
  | value => exact flagsOnly_refl b
  | fbin | fma | iarith | fn =>
    dsimp only
    exact flagsOnly_perLane _ _ _ _ _ _
  | red =>
    dsimp only
    exact flagsOnly_formRed _ _ _ _ _ _
  | cvt =>
    dsimp only
    exact flagsOnly_formCvt _ _ _ _ _ _ _ _ _
  | bmax =>
    dsimp only
    exact flagsOnly_formBmax _ _ _ _
  | bcvt =>
    dsimp only
    exact flagsOnly_formBcvt _ _ _ _ _ _
  | qdual =>
    dsimp only
    exact flagsOnly_formDual _ _ _ _ _
  | dq =>
    dsimp only
    exact flagsOnly_formDq _ _ _ _ _

theorem lanesWritten_of_flagsOnly {b b₁ b' : Bank} {u : Bool} {d : Nat} {m : BitVec 64} {a : VReg} (h : flagsOnly b b₁)
    (hw : lanesWritten b₁ b' u d m a) : lanesWritten b b' u d m a := by
  unfold flagsOnly at h
  rw [h] at hw
  exact hw

/-! ### A vector result in its bank (R62, R63, R139) -/

theorem setV_frame (b : Bank) (u : Bool) (d : BitVec 6) (m : BitVec 64) (a : VReg) (free : Nat → W) :
    let b' := b.setV u d m a free
    b' = { b with v0 := b'.v0, v1 := b'.v1, relV0 := b'.relV0, relV1 := b'.relV1, vk := b'.vk } := by
  intro b'
  by_cases hd : d.toNat < 48
  · unfold b'
    rw [setV_main b u m a free hd]
    cases u <;> rfl
  · by_cases hd' : d.toNat < 56
    · unfold b'
      rw [setV_operand b u m a free (Nat.not_lt.1 hd) hd']
    · unfold b'
      rw [setV_discards b u d m a free (Nat.not_lt.1 hd')]

/-- A vector write leaves the last results, the flags and the generators. -/
theorem setV_keeps (b : Bank) (u : Bool) (d : BitVec 6) (m : BitVec 64) (a : VReg) (free : Nat → W) :
    (b.setV u d m a free).vn = b.vn ∧ (b.setV u d m a free).flags = b.flags ∧ (b.setV u d m a free).gen = b.gen := by
  rw [setV_frame]
  exact ⟨rfl, rfl, rfl⟩

theorem lanesWritten_pushV {b b' : Bank} {u : Bool} {d : Nat} {m : BitVec 64} {a : VReg} (h : lanesWritten b b' u d m a)
    (v : VReg) : lanesWritten b (b'.pushV v) u d m a := by
  obtain ⟨hfile, hother, hmain, hlive, hotherLive, hvk, hoperand, hframe⟩ := h
  refine ⟨hfile, hother, hmain, hlive, hotherLive, hvk, hoperand, ?_⟩
  unfold Bank.pushV
  rw [hframe]

/-- The bank in which a result's lanes stand, before it enters the last results. -/
def placeV (b : Bank) (r : VRes) (free : Nat → Nat → W) : Bank :=
  (formV b r).2.2.setV r.unit r.d r.mask (formV b r).1 (free r.d.toNat)

theorem lanesWritten_placeV (b : Bank) (r : VRes) (free : Nat → Nat → W) :
    lanesWritten b (placeV b r free) r.unit r.d.toNat r.mask (formV b r).1 :=
  lanesWritten_of_flagsOnly (flagsOnly_formV b r) (lanesWritten_setV _ _ _ _ _ _)

theorem placeV_keeps (b : Bank) (r : VRes) (free : Nat → Nat → W) :
    (placeV b r free).vn = b.vn ∧ (placeV b r free).flags = (formV b r).2.2.flags ∧
      (placeV b r free).gen = (formV b r).2.2.gen := by
  obtain ⟨hvn, hflags, hgen⟩ := setV_keeps (formV b r).2.2 r.unit r.d r.mask (formV b r).1 (free r.d.toNat)
  refine ⟨hvn.trans ?_, hflags, hgen⟩
  rw [flagsOnly_formV b r]

theorem applyV_of_single (b : Bank) {r : VRes} (free : Nat → Nat → W) (hform : ∀ bt, r.form ≠ .qdual bt) :
    b.applyV r free = if r.push then (placeV b r free).pushV (formV b r).1 else placeV b r free := by
  unfold Bank.applyV
  cases hr : r.form with
  | qdual bt => exact absurd hr (hform bt)
  | _ => rfl

theorem applyV_of_dual (b : Bank) {r : VRes} {bt : Nat} (free : Nat → Nat → W) (hform : r.form = .qdual bt) :
    b.applyV r free =
      let b' := (placeV b r free).setV r.unit (r.d + 1) r.mask (formV b r).2.1 (free (r.d.toNat + 1))
      if r.push then b'.pushV (formV b r).1 else b' := by
  unfold Bank.applyV
  rw [hform]
  rfl

/-! ### A vector result in its core -/

theorem map_eq_self {α : Type} {f : α → α} {l : List α} (h : ∀ x ∈ l, f x = x) : l.map f = l :=
  (List.map_congr_left h).trans (List.map_id' l)

/-- Without late reads a new value of a register is marked nowhere. -/
theorem refresh_of_noLateRead {c : Core} (h : Spec.noLateRead c) (n u : Bool) (d : BitVec 6) : c.refresh n u d = c := by
  unfold Core.refresh
  rw [map_eq_self fun e he => ?_]
  split
  · next hkind => exact absurd hkind (h e he _ _ _ _)
  · rfl

theorem noLateRead_setBankN {c : Core} (h : Spec.noLateRead c) (n : Bool) (b : Bank) : Spec.noLateRead (c.setBankN n b) := by
  cases n <;> exact h

theorem noLateRead_shown {s : State} {k : Nat} (h : Spec.noLateRead (s.core k)) : Spec.noLateRead (Spec.shown s k) :=
  fun e he => h e (List.mem_filter.1 he).1

theorem writesBank_vload {s : State} {k : Nat} {e : Pend} (hlate : Spec.noLateRead (s.core k)) {u : Bool} {d : BitVec 6}
    {m : BitVec 64} {a : VReg} (hkind : e.kind = .vload u d m a) (done : List Pend) :
    writesBank s (s.visibleAfter k done e) k e.bank
      (((s.core k).bankN e.bank).setV u d m a (s.freeLanes k u d.toNat)) := by
  unfold State.visibleAfter State.visible
  simp only [hkind, State.modCore, Core.modBankN]
  rw [refresh_of_noLateRead (noLateRead_setBankN hlate _ _)]
  exact writesBank_setCore s k e.bank _

theorem writesBank_visible_vres {s : State} {k : Nat} {e : Pend} (hlate : Spec.noLateRead (s.core k)) {r : VRes}
    (hkind : e.kind = .vres r) :
    writesBank s (s.visible k e) k e.bank (((s.core k).bankN e.bank).applyV r (s.freeLanes k r.unit)) := by
  have hrefresh (b : Bank) (d : BitVec 6) :
      ((s.core k).setBankN e.bank b).refresh e.bank r.unit d = (s.core k).setBankN e.bank b :=
    refresh_of_noLateRead (noLateRead_setBankN hlate _ _) _ _ _
  unfold State.visible
  cases hform : r.form <;> simp only [hkind, hform, State.modCore, Core.modBankN, hrefresh] <;>
    exact writesBank_setCore s k e.bank _

theorem writesBank_foldl {α : Type} {s t : State} {k : Nat} {n : Bool} {b : Bank} (h : writesBank s t k n b)
    (f : α → Bank → Bank) (l : List α) :
    writesBank s (l.foldl (fun t x => t.modCore k fun c => c.modBankN n (f x)) t) k n (l.foldl (fun b x => f x b) b) := by
  induction l generalizing t b with
  | nil => exact h
  | cons x l ih =>
    refine ih (writesBank_trans h ?_)
    have hw := writesBank_modBankN t k n (f x)
    rwa [bankN_of_writesBank h] at hw

/-- A vector result shown after others of its cycle: a V0 result leaves the lanes of an operand-file register that V1 results
among them have written (log 48). -/
theorem writesBank_vres {s : State} {k : Nat} {e : Pend} (hlate : Spec.noLateRead (s.core k)) {r : VRes}
    (hkind : e.kind = .vres r) (done : List Pend) :
    let b := (s.core k).bankN e.bank
    let b' := b.applyV r (s.freeLanes k r.unit)
    writesBank s (s.visibleAfter k done e) k e.bank
      (if r.unit then b' else r.vkDests.foldl (fun b' d => b'.keepVk b d (v1Lanes e.bank d done)) b') := by
  intro b b'
  have hw := writesBank_visible_vres hlate hkind
  unfold State.visibleAfter
  simp only [hkind]
  split
  · exact hw
  · exact writesBank_foldl hw (fun d b' => b'.keepVk b d (v1Lanes e.bank d done)) r.vkDests

/-- A vector result shown after none of V1. -/
theorem writesBank_vres_alone {s : State} {k : Nat} {e : Pend} (hlate : Spec.noLateRead (s.core k)) {r : VRes}
    (hkind : e.kind = .vres r) {done : List Pend} (hdone : ∀ d, v1Lanes e.bank d done = 0) :
    writesBank s (s.visibleAfter k done e) k e.bank (((s.core k).bankN e.bank).applyV r (s.freeLanes k r.unit)) := by
  have hw := writesBank_vres hlate hkind done
  have hkeep (b old : Bank) (l : List Nat) : l.foldl (fun b' d => b'.keepVk old d (v1Lanes e.bank d done)) b = b :=
    List.foldl_fixed' (fun d => if_pos (hdone d)) l
  simpa only [hkeep, ite_self] using hw

/-- A vector result that enters the last results, shown alone. -/
theorem showsIn_vres {s : State} {k : Nat} {e : Pend} {r : VRes} (hk : s.ev.k = k)
    (hdue : (s.core k).pend.filter Spec.isDue = [e]) (hlate : Spec.noLateRead (s.core k)) (hkind : e.kind = .vres r) :
    ∃ (t : State) (free : Nat → Nat → W), exec .resultVisible s = .next t ∧
      Spec.showsIn s t k e (((s.core k).bankN e.bank).applyV r free) := by
  have hw := writesBank_vres_alone (s := afterTaking s k) (done := []) ((core_afterTaking s k).symm ▸ noLateRead_shown hlate)
    hkind fun _ => rfl
  rw [core_afterTaking, bankN_shown] at hw
  exact ⟨_, _, exec_resultVisible_one hk hdue, showsIn_of_writesBank hw⟩

theorem formV_value (b : Bank) {r : VRes} (hform : r.form = .value) :
    (formV b r).2.2 = b ∧ ∀ l < 64, lane (formV b r).1 l = if r.mask.getLsbD l then lane r.a l else 0 := by
  have hval : formV b r = (putLanes r.mask r.a 0, 0, b) := by
    unfold formV
    rw [hform]
    rfl
  rw [hval]
  refine ⟨rfl, fun l hl => (lane_putLanes r.mask r.a 0 hl).trans ?_⟩
  rw [show lane 0 l = 0 by simp [lane]]

/-! ### Vector predicates (R66) -/

theorem readVP_setVP (b : Bank) (u : Bool) (n : Nat) (m v : BitVec 64) {j : Nat} (hj : j ≠ 0) {l : Nat} (hl : l < 64) :
    ((b.setVP u n m v).readVP u j).getLsbD l =
      if j = n ∧ m.getLsbD l = true then v.getLsbD l else (b.readVP u j).getLsbD l := by
  by_cases hn : n = 0
  · rw [hn, setVP_zero, if_neg fun h => hj h.1]
  · have hread : (b.setVP u n m v).readVP u j =
        if j = n then (v &&& m) ||| (b.readVP u j &&& ~~~m) else b.readVP u j := by
      unfold Bank.setVP Bank.readVP
      rw [if_neg hn, if_neg hj, if_neg hj]
      cases u
      · exact sget_smod 0 b.vp0 n j fun o => (v &&& m) ||| (o &&& ~~~m)
      · exact sget_smod 0 b.vp1 n j fun o => (v &&& m) ||| (o &&& ~~~m)
    rw [hread]
    by_cases hjn : j = n
    · rw [if_pos hjn, BitVec.getLsbD_or, BitVec.getLsbD_and, BitVec.getLsbD_and, BitVec.getLsbD_not]
      cases m.getLsbD l <;> simp [hjn, hl]
    · simp [hjn]

theorem setVP_frame (b : Bank) (u : Bool) (n : Nat) (m v : BitVec 64) :
    let b' := b.setVP u n m v
    b' = { b with vp0 := b'.vp0, vp1 := b'.vp1 } ∧ if u then b'.vp0 = b.vp0 else b'.vp1 = b.vp1 := by
  unfold Bank.setVP
  by_cases hn : n = 0
  · rw [if_pos hn]
    cases u <;> exact ⟨rfl, rfl⟩
  · rw [if_neg hn]
    cases u <;> exact ⟨rfl, rfl⟩

theorem setVP_setVP_frame (b : Bank) (u : Bool) (n₁ n₂ : Nat) (m₁ v₁ m₂ v₂ : BitVec 64) :
    let b' := (b.setVP u n₁ m₁ v₁).setVP u n₂ m₂ v₂
    b' = { b with vp0 := b'.vp0, vp1 := b'.vp1 } ∧ if u then b'.vp0 = b.vp0 else b'.vp1 = b.vp1 := by
  obtain ⟨h₁, hu₁⟩ := setVP_frame b u n₁ m₁ v₁
  obtain ⟨h₂, hu₂⟩ := setVP_frame (b.setVP u n₁ m₁ v₁) u n₂ m₂ v₂
  refine ⟨h₂.trans (by rw [h₁]), ?_⟩
  cases u
  · exact hu₂.trans hu₁
  · exact hu₂.trans hu₁

theorem vectorResultsBecomeVisible : Spec.VectorResultsBecomeVisible := by
  intro s k e hk hdue hlate b file written
  refine ⟨?vload, ?vres, ?qdual, ?value, ?vpreds⟩
  case vload =>
    intro u d m a hkind
    have hw := writesBank_vload (s := afterTaking s k) ((core_afterTaking s k).symm ▸ noLateRead_shown hlate) hkind []
    rw [core_afterTaking, bankN_shown] at hw
    obtain ⟨hvn, hflags, hgen⟩ := setV_keeps b u d m a ((afterTaking s k).freeLanes k u d.toNat)
    exact ⟨_, _, exec_resultVisible_one hk hdue, showsIn_of_writesBank hw, lanesWritten_setV _ _ _ _ _ _, hvn, hflags, hgen⟩
  case vres =>
    intro r hkind hpush hform
    obtain ⟨t, free, ht, hshows⟩ := showsIn_vres hk hdue hlate hkind
    rw [applyV_of_single _ free hform, if_pos hpush] at hshows
    obtain ⟨hvn, hflags, hgen⟩ := placeV_keeps b r free
    exact ⟨t, _, ht, hshows, lanesWritten_pushV (lanesWritten_placeV b r free) _, hvn ▸ pushed_pushV _ _, hflags, hgen⟩
  case qdual =>
    intro r bt hkind hpush hform hd _
    obtain ⟨t, free, ht, hshows⟩ := showsIn_vres hk hdue hlate hkind
    rw [applyV_of_dual _ free hform] at hshows
    simp only [hpush, if_true] at hshows
    obtain ⟨hvn, hflags, hgen⟩ := placeV_keeps b r free
    obtain ⟨hvn', hflags', hgen'⟩ :=
      setV_keeps (placeV b r free) r.unit (r.d + 1) r.mask (formV b r).2.1 (free (r.d.toNat + 1))
    have hnext : (r.d + 1).toNat = r.d.toNat + 1 := by bv_omega
    have hsecond := lanesWritten_setV (placeV b r free) r.unit (r.d + 1) r.mask (formV b r).2.1 (free (r.d.toNat + 1))
    rw [hnext] at hsecond
    exact ⟨t, _, placeV b r free, ht, hshows, lanesWritten_placeV b r free, lanesWritten_pushV hsecond _,
      (hvn'.trans hvn) ▸ pushed_pushV _ _, hflags'.trans hflags, hgen'.trans hgen⟩
  case value => exact fun b r hform => formV_value b hform
  case vpreds =>
    intro u n₁ n₂ m₁ v₁ m₂ v₂ hne hkind
    obtain ⟨t, ht, hshows⟩ :=
      showsIn_bankEdit (f := fun b => (b.setVP u n₁ m₁ v₁).setVP u n₂ m₂ v₂) (by rw [hkind]; rfl) hk hdue
    obtain ⟨hframe, hunit⟩ := setVP_setVP_frame b u n₁ n₂ m₁ v₁ m₂ v₂
    refine ⟨t, _, ht, hshows, hframe, hunit, readVP_zero _ _, fun j hj l hl => ?_⟩
    rw [readVP_setVP _ u n₂ m₂ v₂ hj hl, readVP_setVP _ u n₁ m₁ v₁ hj hl]
    by_cases h₁ : j = n₁ ∧ m₁.getLsbD l = true
    · rw [if_pos h₁, if_pos h₁, if_neg (by omega)]
    · rw [if_neg h₁, if_neg h₁]

/-! ### Two results of one cycle (R62, R65, R56, R76) -/

theorem lastResults_pushS_pushS (b : Bank) (v w : W) {b' : Bank} (hb' : b'.sn = (b.pushS v).sn) :
    sget 0 (b'.pushS w).sn 0 = w ∧ sget 0 (b'.pushS w).sn 1 = v ∧
      ∀ n < 4, sget 0 (b'.pushS w).sn (n + 2) = sget 0 b.sn n := by
  obtain ⟨hv, hold⟩ := pushed_pushS b v
  obtain ⟨hw, hnew⟩ := pushed_pushS b' w
  rw [hb'] at hnew
  exact ⟨hw, (hnew 0 (by omega)).trans hv, fun n hn => (hnew (n + 1) (by omega)).trans (hold n (by omega))⟩

/-- The lanes that two vector results for one operand-file register leave in it, where V1's was issued first: V0's result
takes the lanes that V1's has not written. -/
theorem lane_keepVk (b old : Bank) {d : Nat} (m : BitVec 64) {l : Nat} (hl : l < 64) :
    lane (sget 0 (b.keepVk old d m).vk (d - 48)) l =
      if m.getLsbD l then lane (sget 0 old.vk (d - 48)) l else lane (sget 0 b.vk (d - 48)) l := by
  unfold Bank.keepVk
  by_cases hm : m = 0
  · rw [if_pos hm, hm]
    simp
  · rw [if_neg hm]
    change lane (sget 0 (smod 0 b.vk (d - 48) fun v => mergeLanes m (sget 0 old.vk (d - 48)) v) (d - 48)) l = _
    rw [sget_smod, if_pos rfl, lane_mergeLanes _ _ _ hl]

/-- A value result for an operand-file register, shown. -/
theorem lane_vk_applyV_value (b : Bank) {r : VRes} (free : Nat → Nat → W) (hform : r.form = .value) (hd : 48 ≤ r.d.toNat)
    (hd' : r.d.toNat < 56) {l : Nat} (hl : l < 64) :
    lane (sget 0 (b.applyV r free).vk (r.d.toNat - 48)) l =
      if r.mask.getLsbD l then lane r.a l else lane (sget 0 b.vk (r.d.toNat - 48)) l := by
  have hvk : (b.applyV r free).vk = (placeV b r free).vk := by
    rw [applyV_of_single b free fun bt h => by simp [hform] at h]
    split <;> rfl
  obtain ⟨-, -, -, -, -, -, hoperand, -⟩ := lanesWritten_placeV b r free
  rw [hvk, hoperand hd hd' l hl]
  split
  · next hm => rw [(formV_value b hform).2 l hl, if_pos hm]
  · rfl

theorem applyV_flags (b : Bank) {r : VRes} (free : Nat → Nat → W) : (b.applyV r free).flags = (formV b r).2.2.flags := by
  have hplace : (placeV b r free).flags = (formV b r).2.2.flags := (placeV_keeps b r free).2.1
  by_cases hform : ∃ bt, r.form = .qdual bt
  · obtain ⟨bt, hform⟩ := hform
    rw [applyV_of_dual b free hform, ← hplace, ← (setV_keeps (placeV b r free) _ _ _ _ _).2.1]
    cases r.push <;> rfl
  · rw [applyV_of_single b free fun bt h => hform ⟨bt, h⟩, ← hplace]
    split <;> rfl

theorem noLateRead_of_writesBank {s t : State} {k : Nat} {n : Bool} {b : Bank} (hlate : Spec.noLateRead (s.core k))
    (h : writesBank (afterTaking s k) t k n b) : Spec.noLateRead (t.core k) := by
  rw [h.2.1, core_afterTaking]
  exact noLateRead_setBankN (noLateRead_shown hlate) n b

theorem writesBank_flags {e : Pend} {v : W} (hkind : e.kind = .ctl 0x08 v) (s : State) (k : Nat) (done : List Pend) :
    writesBank s (s.visibleAfter k done e) k e.bank (((s.core k).bankN e.bank).clearFlags v) := by
  unfold State.visibleAfter State.visible
  rw [hkind]
  exact writesBank_modBankN s k e.bank fun b => b.clearFlags v

theorem v1Lanes_of_ctl {e : Pend} {sel : BitVec 6} {v : W} (hkind : e.kind = .ctl sel v) (n : Bool) (d : Nat) :
    v1Lanes n d [e] = 0 := by
  simp [v1Lanes, hkind]

theorem v1Lanes_of_value {e : Pend} {r : VRes} (hkind : e.kind = .vres r) (hunit : r.unit = true) (hform : r.form = .value)
    (hd : 48 ≤ r.d.toNat) (hd' : r.d.toNat < 56) : v1Lanes e.bank r.d.toNat [e] = r.mask := by
  simp [v1Lanes, hkind, hunit, VRes.vkDests, hform, hd, hd']

section
variable {s : State} {k : Nat} {x y : Pend} (hk : s.ev.k = k) (hdue : (s.core k).pend.filter Spec.isDue = [x, y])
  (hbank : x.bank = y.bank) (hlate : Spec.noLateRead (s.core k))
include hk hdue hbank hlate

/-- Of two value results of the units for one operand-file register V1's remains, whichever issued first. -/
theorem showsIn_vres_vres {p q : VRes} (hx : x.kind = .vres p) (hy : y.kind = .vres q) (hunit : p.unit ≠ q.unit)
    (hp : p.form = .value) (hq : q.form = .value) (hpq : p.d = q.d) (hd : 48 ≤ p.d.toNat) (hd' : p.d.toNat < 56) :
    ∃ (t : State) (b' : Bank), exec .resultVisible s = .next t ∧ Spec.showsIn s t k x b' ∧
      let one := if p.unit then p else q
      let zero := if p.unit then q else p
      ∀ l < 64, lane (sget 0 b'.vk (p.d.toNat - 48)) l =
        if one.mask.getLsbD l then lane one.a l else if zero.mask.getLsbD l then lane zero.a l
        else lane (sget 0 ((s.core k).bankN x.bank).vk (p.d.toNat - 48)) l := by
  have hfirst : y.kind.first = false := by rw [hy]; rfl
  have hwx := writesBank_vres_alone (s := afterTaking s k) (done := []) ((core_afterTaking s k).symm ▸ noLateRead_shown hlate)
    hx fun _ => rfl
  rw [core_afterTaking, bankN_shown] at hwx
  have hwy := writesBank_vres (noLateRead_of_writesBank hlate hwx) hy [x]
  rw [← hbank, bankN_of_writesBank hwx] at hwy
  refine ⟨_, _, exec_resultVisible_two hk hdue (.inr hfirst), showsIn_of_writesBank (writesBank_trans hwx hwy), ?_⟩
  intro one zero l hl
  cases hpu : p.unit
  · have hqu : q.unit = true := by simpa [hpu] using hunit
    simp only [one, zero, hpu, hqu, if_true, Bool.false_eq_true, if_false]
    rw [hpq, lane_vk_applyV_value _ _ hq (hpq ▸ hd) (hpq ▸ hd') hl, ← hpq, lane_vk_applyV_value _ _ hp hd hd' hl]
  · have hqu : q.unit = false := by simpa [hpu] using hunit
    have hdests : q.vkDests = [p.d.toNat] := by simp [VRes.vkDests, hq, ← hpq, hd, hd']
    simp only [one, zero, hpu, hqu, if_true, Bool.false_eq_true, if_false, hdests, List.foldl_cons, List.foldl_nil]
    rw [lane_keepVk _ _ _ hl, v1Lanes_of_value hx hpu hp hd hd', lane_vk_applyV_value _ _ hp hd hd' hl, hpq,
      lane_vk_applyV_value _ _ hq (hpq ▸ hd) (hpq ▸ hd') hl, ← hpq, lane_vk_applyV_value _ _ hp hd hd' hl]
    cases p.mask.getLsbD l <;> rfl

/-- A write of FLAGS clears before a vector result of its cycle sets, whichever issued first. -/
theorem showsIn_vres_flags {r : VRes} {v : W}
    (hkind : (x.kind = .vres r ∧ y.kind = .ctl 0x08 v) ∨ (x.kind = .ctl 0x08 v ∧ y.kind = .vres r)) :
    ∃ (t : State) (b' : Bank), exec .resultVisible s = .next t ∧ Spec.showsIn s t k x b' ∧
      b'.flags = (formV (((s.core k).bankN x.bank).clearFlags v) r).2.2.flags := by
  rcases hkind with ⟨hx, hy⟩ | ⟨hx, hy⟩
  · have hwy := writesBank_flags hy (afterTaking s k) k []
    rw [← hbank, core_afterTaking, bankN_shown] at hwy
    have hwx := writesBank_vres_alone (noLateRead_of_writesBank hlate hwy) hx (done := [y]) fun d => v1Lanes_of_ctl hy x.bank d
    rw [bankN_of_writesBank hwy] at hwx
    have hexec := exec_resultVisible_two_swapped hk hdue (by rw [hx]; rfl) (by rw [hy]; rfl)
    exact ⟨_, _, hexec, showsIn_of_writesBank (writesBank_trans hwy hwx), applyV_flags _ _⟩
  · have hwx := writesBank_flags hx (afterTaking s k) k []
    rw [core_afterTaking, bankN_shown] at hwx
    have hwy := writesBank_vres_alone (noLateRead_of_writesBank hlate hwx) hy (done := [x]) fun d => v1Lanes_of_ctl hx y.bank d
    rw [← hbank, bankN_of_writesBank hwx] at hwy
    have hexec := exec_resultVisible_two hk hdue (.inl (by rw [hx]; rfl))
    exact ⟨_, _, hexec, showsIn_of_writesBank (writesBank_trans hwx hwy), applyV_flags _ _⟩

end

theorem resultsOfOneCycleAreOrdered : Spec.ResultsOfOneCycleAreOrdered := by
  intro s k x y hk hdue hbank hlate b
  obtain ⟨t, ht⟩ : ∃ t, exec .resultVisible s = .next t := ⟨_, exec_resultVisible s⟩
  have hresult {t' : State} {b' : Bank} (ht' : exec .resultVisible s = .next t') (hshows : Spec.showsIn s t' k x b') :
      Spec.showsIn s t k x ((t.core k).bankN x.bank) ∧ (t.core k).bankN x.bank = b' := by
    obtain rfl : t = t' := by
      rw [ht] at ht'
      exact Host.Outcome.next.inj ht'
    rw [bankN_of_showsIn hshows]
    exact ⟨hshows, rfl⟩
  have hedits {f g : Bank → Bank} (hx : bankEdit x.kind = some f) (hy : bankEdit y.kind = some g) :
      Spec.showsIn s t k x ((t.core k).bankN x.bank) ∧ (t.core k).bankN x.bank = g (f b) := by
    obtain ⟨t', ht', hshows⟩ := showsIn_bankEdit_bankEdit hx hy hk hdue hbank
    exact hresult ht' hshows
  refine ⟨t, (t.core k).bankN x.bank, ht, ?sres, ?base, ?preds, ?vres, ?flags⟩
  case sres =>
    intro d v w hx hy
    obtain ⟨hshows, hb⟩ := hedits (f := fun b => (b.setS d v).pushS v) (g := fun b => (b.setS d w).pushS w) (by rw [hx]; rfl)
      (by rw [hy]; rfl)
    have hsn (b : Bank) (v : W) : (b.setS d v).sn = b.sn := by rw [setS_frame]
    have hlast := lastResults_pushS_pushS (b.setS d v) v w (hsn ((b.setS d v).pushS v) w)
    rw [hsn] at hlast
    refine ⟨hshows, fun hd => ?_, fun hd hd' => ?_, ?_⟩
    · rw [hb]
      exact (sget_s_setS _ d w d.toNat).trans (if_pos ⟨rfl, hd⟩)
    · rw [hb]
      exact (sget_sk_setS _ d w _).trans (if_pos (by omega))
    · rw [hb]
      exact hlast
  case base =>
    intro n v w hx hy
    obtain ⟨hshows, hb⟩ := hedits (f := fun b => { b with b := sset 0 b.b n v })
      (g := fun b => { b with b := sset 0 b.b n w }) (by rw [hx]; rfl) (by rw [hy]; rfl)
    refine ⟨hshows, fun m => ?_⟩
    rw [hb, sget_sset, sget_sset]
    split <;> rfl
  case preds =>
    intro n v w hn hn16 hx hy
    obtain ⟨hshows, hb⟩ := hedits (f := fun b => b.setP n v) (g := fun b => b.setP n w) (by rw [hx]; rfl) (by rw [hy]; rfl)
    refine ⟨hshows, fun m hm => ?_⟩
    rw [hb, getLsbD_setP _ w hm, getLsbD_setP _ v hm]
    by_cases hmn : m = n
    · simp [hmn, hn]
    · simp [hmn]
  case vres =>
    intro p q hx hy hunit hp hq hpq hd hd'
    obtain ⟨t', b', ht', hshows', hlanes⟩ := showsIn_vres_vres hk hdue hbank hlate hx hy hunit hp hq hpq hd hd'
    obtain ⟨hshows, hb⟩ := hresult ht' hshows'
    rw [← hb] at hlanes
    exact ⟨hshows, hlanes⟩
  case flags =>
    intro r v _ hkind
    obtain ⟨t', b', ht', hshows', hflags⟩ := showsIn_vres_flags hk hdue hbank hlate hkind
    obtain ⟨hshows, hb⟩ := hresult ht' hshows'
    exact ⟨hshows, hb ▸ hflags⟩

/-! ### Control registers (R74 to R77, R124) -/

theorem sget_of_notMem {α : Type} (d : α) (m : SMap α) (i : Nat) (h : i ∉ m.map (·.1)) : sget d m i = d := by
  induction m with
  | nil => rfl
  | cons x m ih =>
    obtain ⟨a, v⟩ := x
    obtain ⟨hia, hm⟩ := not_or.1 (mt List.mem_cons.2 h)
    rcases Nat.lt_or_gt_of_ne hia with hlt | hgt
    · exact sget_cons_lt d v m hlt
    · exact (sget_cons_gt d v m hgt).trans (ih hm)

/-- Reading a map with every value changed by a function of its key, those that became the default left out. -/
theorem sget_map_filter {α : Type} [DecidableEq α] (d : α) (m : SMap α) (f : Nat → α → α) (hf : ∀ i, f i d = d)
    (hm : swf d m = true) (i : Nat) :
    sget d ((m.map fun x => (x.1, f x.1 x.2)).filter fun x => x.2 ≠ d) i = f i (sget d m i) := by
  have hkeys {m : SMap α} (hi : i ∉ m.map (·.1)) :
      i ∉ ((m.map fun x => (x.1, f x.1 x.2)).filter fun x => x.2 ≠ d).map (·.1) := fun h =>
    hi (by simpa [Function.comp_def] using (List.filter_sublist.map _).subset h)
  induction m with
  | nil => exact (hf i).symm
  | cons x m ih =>
    obtain ⟨a, v⟩ := x
    have habove : ∀ y ∈ m, a < y.1 := (List.pairwise_cons.1 ((swf_iff_pairwise d _).1 hm).2).1
    rcases Nat.lt_trichotomy i a with hia | rfl | hia
    · have hi : i ∉ ((a, v) :: m).map (·.1) := by
        rintro h
        obtain ⟨y, hy, rfl⟩ := List.mem_map.1 h
        rcases List.mem_cons.1 hy with rfl | hy
        · exact absurd hia (Nat.lt_irrefl _)
        · exact absurd (habove y hy) (by omega)
      rw [sget_of_notMem d _ i (hkeys hi), sget_of_notMem d _ i hi, hf]
    · rw [sget_cons_eq, List.map_cons]
      by_cases hv : f i v = d
      · have hi : i ∉ m.map (·.1) := by
          intro h
          obtain ⟨y, hy, hyi⟩ := List.mem_map.1 h
          exact absurd (habove y hy) (by omega)
        rw [List.filter_cons_of_neg (by simpa using hv), sget_of_notMem d _ i (hkeys hi), hv]
      · rw [List.filter_cons_of_pos (by simpa using hv), sget_cons_eq]
    · rw [sget_cons_gt d v m hia, List.map_cons]
      by_cases hv : f a v = d
      · rw [List.filter_cons_of_neg (by simpa using hv), ih (swf_tail hm)]
      · rw [List.filter_cons_of_pos (by simpa using hv), sget_cons_gt _ _ _ hia, ih (swf_tail hm)]

theorem sget_clearFlags (b : Bank) (v : W) (h : swf 0 b.flags = true) (i : Nat) :
    sget 0 (b.clearFlags v).flags i = sget 0 b.flags i &&& ~~~(if i < 64 then v.extractLsb' 0 5 else v.extractLsb' 8 5) :=
  sget_map_filter 0 b.flags (fun i x => x &&& ~~~(if i < 64 then v.extractLsb' 0 5 else v.extractLsb' 8 5))
    (fun _ => BitVec.zero_and) h i

theorem sget_map_range' {α : Type} (d : α) (f : Nat → α) (n lo i : Nat) (hi : i < n) :
    sget d ((List.range' lo n).map fun l => (l, f l)) (lo + i) = f (lo + i) := by
  induction n generalizing lo i with
  | zero => cases hi
  | succ n ih =>
    rw [List.range'_succ, List.map_cons]
    cases i with
    | zero => exact sget_cons_eq d lo (f lo) _
    | succ i =>
      rw [sget_cons_gt _ _ _ (by omega), show lo + (i + 1) = lo + 1 + i by omega]
      exact ih (lo + 1) i (by omega)

theorem sget_seedAll (v : W) {i : Nat} (hi : i < 128) : sget 0 (seedAll v) i = seedLane v i := by
  have hread := sget_map_range' 0 (seedLane v) 128 0 i hi
  rwa [Nat.zero_add, ← List.range_eq_range'] at hread

/-- A control register's write, shown alone. -/
theorem exec_resultVisible_ctl {s : State} {k : Nat} {e : Pend} {sel : BitVec 6} {v : W} (hk : s.ev.k = k)
    (hdue : (s.core k).pend.filter Spec.isDue = [e]) (hkind : e.kind = .ctl sel v) :
    exec .resultVisible s = .next ((afterTaking s k).writeCtl k e.bank sel v) := by
  rw [exec_resultVisible_one hk hdue]
  unfold State.visibleAfter State.visible
  rw [hkind]

/-- Only this core changed, and it is now c. -/
def writesCore (s t : State) (k : Nat) (c : Core) : Prop :=
  Spec.showsCore s t k c ∧ t.columns = s.columns ∧ t.agenda = s.agenda

theorem writesCore_modCore (s : State) (k : Nat) (f : Core → Core) :
    writesCore s ((afterTaking s k).modCore k f) k (f (Spec.shown s k)) := by
  refine ⟨⟨fun j hj => ?_, by rw [core_modCore_self, core_afterTaking], rfl, rfl⟩, rfl, rfl⟩
  rw [core_modCore, if_neg hj]
  exact core_setCore_other s _ hj

theorem writesCore_afterTaking (s : State) (k : Nat) : writesCore s (afterTaking s k) k (Spec.shown s k) :=
  ⟨⟨fun _ hj => core_setCore_other s _ hj, core_afterTaking s k, rfl, rfl⟩, rfl, rfl⟩

theorem writesCore_modBankN (s : State) (k : Nat) (n : Bool) (f : Bank → Bank) :
    writesCore s ((afterTaking s k).modCore k fun c => c.modBankN n f) k
      ((Spec.shown s k).setBankN n (f ((s.core k).bankN n))) := writesCore_modCore s k _

/-- The column of this core is now x, no other column changed, and the core has lost its due entries. -/
def writesColumn (s t : State) (k : Nat) (x : Column) : Prop :=
  Spec.showsCore s t k (Spec.shown s k) ∧ t.col (colOf k) = x ∧ ∀ j, j ≠ colOf k → t.col j = s.col j

theorem writesColumn_modCol (s : State) (k : Nat) (f : Column → Column) :
    writesColumn s ((afterTaking s k).modCol (colOf k) f) k (f (s.col (colOf k))) := by
  obtain ⟨hcore, -, -⟩ := writesCore_afterTaking s k
  refine ⟨hcore, col_modCol_self _ _ f, fun j hj => ?_⟩
  rw [col_modCol, if_neg hj]
  rfl

theorem writeCtl_of_loop (s : State) (k : Nat) (n : Bool) {sel : BitVec 6} (v : W) (h : 0x20 ≤ sel.toNat) :
    s.writeCtl k n sel v = s.modCore k fun c => c.modBankN n fun b => { b with loop := b.loop.write sel.toNat v } := by
  unfold State.writeCtl
  split
  case h_14 => exact if_pos h
  all_goals omega

/-- A write to a read-only register is ignored. -/
theorem writeCtl_of_readOnly (s : State) (k : Nat) (n : Bool) {sel : BitVec 6} (v : W)
    (h : sel.toNat < 0x08 ∨ (0x0B ≤ sel.toNat ∧ sel.toNat < 0x10) ∨ (0x13 ≤ sel.toNat ∧ sel.toNat < 0x18) ∨
      sel.toNat = 0x1F) :
    s.writeCtl k n sel v = s := by
  have hlow : ¬ 0x20 ≤ sel.toNat := by omega
  unfold State.writeCtl
  split
  case h_14 => rw [if_neg hlow]
  all_goals omega

theorem write_linc (l : LoopRegs) {n : Nat} (v : W) (h : 0x28 ≤ n) :
    l.write n v = { l with linc := sset 0 l.linc (n - 0x28) (v &&& 0xFF003FFF) } := by
  unfold LoopRegs.write
  split
  case h_9 => rfl
  all_goals omega

theorem controlWritesBecomeVisible : Spec.ControlWritesBecomeVisible := by
  intro s k e sel v hk hdue hkind b c l
  have hexec := exec_resultVisible_ctl hk hdue hkind
  obtain ⟨n, hn⟩ : ∃ n, sel.toNat = n := ⟨_, rfl⟩
  unfold State.writeCtl at hexec
  rw [hn] at hexec ⊢
  intro n' col slot0 waits
  refine ⟨_, hexec, ?_⟩
  intro bank core column
  refine ⟨?flags, ?round, ?seed, ?mcmask, ?slots, ?bankBits, ?cause, ?trapPc, ?ckpPc, ?corr, ?debug, ?cpsel, ?page, ?trip,
    ?pass, ?idx, ?state, ?body, ?lpc, ?res, ?rem, ?linc, ?ignored⟩
  case flags =>
    rintro rfl hflags
    exact ⟨_, writesCore_modBankN s k e.bank fun b => b.clearFlags v, rfl, fun i _ => sget_clearFlags b v hflags i⟩
  case round =>
    rintro rfl
    exact writesCore_modBankN s k e.bank _
  case seed =>
    rintro rfl
    exact ⟨_, writesCore_modBankN s k e.bank fun b => b.reseed v, rfl, fun i hi => sget_seedAll v hi⟩
  case mcmask =>
    rintro rfl
    exact ⟨writesColumn_modCol s k _, rfl⟩
  case slots =>
    rintro rfl
    exact ⟨writesColumn_modCol s k fun x => { x with vbSlotsNext := some v }, rfl⟩
  case bankBits =>
    rintro rfl
    exact ⟨writesColumn_modCol s k fun x => { x with vbBankNext := some (v.extractLsb' 0 16) }, rfl⟩
  case cause =>
    rintro rfl
    exact writesCore_modCore s k _
  case trapPc =>
    rintro rfl
    exact writesCore_modCore s k _
  case ckpPc =>
    rintro rfl
    exact writesCore_modCore s k _
  case corr =>
    rintro rfl
    exact writesCore_modCore s k _
  case debug =>
    rintro rfl
    exact writesCore_modCore s k _
  case cpsel =>
    rintro rfl
    exact writesCore_modCore s k _
  case page =>
    rintro rfl
    exact writesCore_modCore s k _
  case trip =>
    rintro rfl
    exact writesCore_modBankN s k e.bank _
  case pass =>
    rintro rfl
    exact writesCore_modBankN s k e.bank _
  case idx =>
    rintro rfl
    exact writesCore_modBankN s k e.bank _
  case state =>
    rintro rfl
    exact writesCore_modBankN s k e.bank _
  case body =>
    rintro rfl
    exact writesCore_modBankN s k e.bank _
  case lpc =>
    rintro rfl
    exact writesCore_modBankN s k e.bank _
  case res =>
    rintro rfl
    exact writesCore_modBankN s k e.bank _
  case rem =>
    rintro rfl
    exact writesCore_modBankN s k e.bank _
  case linc =>
    intro hlo _
    subst hn
    have hw := writesCore_modBankN s k e.bank fun b => { b with loop := b.loop.write sel.toNat v }
    rw [← writeCtl_of_loop _ _ _ _ (Nat.le_trans (by decide) hlo), write_linc _ v hlo] at hw
    exact hw
  case ignored =>
    intro hro
    subst hn
    have hw := writesCore_afterTaking s k
    rw [← writeCtl_of_readOnly (afterTaking s k) k e.bank v hro] at hw
    exact hw

/-! ### The statistics buffer and the staging register (R159, R191, R209) -/

/-- One word written into the statistics buffer; one of the task holds the old word unless the interval holds one. -/
def writeWord (c : Core) (owner : Bool) (x : Nat × W) : Core :=
  let c := if owner then c else { c with undoStat := smod none c.undoStat x.1 fun o => some (o.getD (sget 0 c.stat x.1)) }
  { c with stat := sset 0 c.stat x.1 x.2 }

theorem writeStat_cons (c : Core) (owner : Bool) (x : Nat × W) (w : List (Nat × W)) :
    c.writeStat owner (x :: w) = (writeWord c owner x).writeStat owner w := rfl

theorem writeWord_frame (c : Core) (owner : Bool) (x : Nat × W) :
    writeWord c owner x = { c with stat := (writeWord c owner x).stat, undoStat := (writeWord c owner x).undoStat } := by
  cases owner <;> rfl

theorem sget_stat_writeWord (c : Core) (owner : Bool) (x : Nat × W) (n : Nat) :
    sget 0 (writeWord c owner x).stat n = if n = x.1 then x.2 else sget 0 c.stat n := by
  cases owner <;> exact sget_sset 0 c.stat x.1 n x.2

theorem sget_undoStat_writeWord (c : Core) (owner : Bool) (x : Nat × W) (n : Nat) :
    sget none (writeWord c owner x).undoStat n = if owner = false ∧ n = x.1
      then some ((sget none c.undoStat n).getD (sget 0 c.stat n)) else sget none c.undoStat n := by
  cases owner
  · refine (sget_smod none c.undoStat x.1 n fun o => some (o.getD (sget 0 c.stat x.1))).trans ?_
    by_cases hn : n = x.1 <;> simp [hn]
  · simp [writeWord]

theorem writeStat_frame (w : List (Nat × W)) (c : Core) (owner : Bool) :
    c.writeStat owner w = { c with stat := (c.writeStat owner w).stat, undoStat := (c.writeStat owner w).undoStat } := by
  induction w generalizing c with
  | nil => rfl
  | cons x w ih =>
    rw [writeStat_cons]
    exact (ih (writeWord c owner x)).trans (by rw [writeWord_frame c owner x])

theorem sget_stat_writeStat_of_notMem (w : List (Nat × W)) (c : Core) (owner : Bool) (n : Nat) (h : n ∉ w.map (·.1)) :
    sget 0 (c.writeStat owner w).stat n = sget 0 c.stat n := by
  induction w generalizing c with
  | nil => rfl
  | cons x w ih =>
    obtain ⟨hx, hw⟩ := not_or.1 (mt List.mem_cons.2 h)
    rw [writeStat_cons, ih _ hw, sget_stat_writeWord, if_neg hx]

theorem sget_stat_writeStat_of_mem (w : List (Nat × W)) (hw : (w.map (·.1)).Nodup) (c : Core) (owner : Bool) {x : Nat × W}
    (hx : x ∈ w) : sget 0 (c.writeStat owner w).stat x.1 = x.2 := by
  induction w generalizing c with
  | nil => cases hx
  | cons y w ih =>
    obtain ⟨hy, hw⟩ := List.nodup_cons.1 hw
    rw [writeStat_cons]
    rcases List.mem_cons.1 hx with rfl | hx
    · rw [sget_stat_writeStat_of_notMem w _ owner _ hy, sget_stat_writeWord, if_pos rfl]
    · exact ih hw _ hx

theorem sget_undoStat_writeStat (w : List (Nat × W)) (hw : (w.map (·.1)).Nodup) (c : Core) (owner : Bool) (n : Nat) :
    sget none (c.writeStat owner w).undoStat n = if owner = false ∧ n ∈ w.map (·.1)
      then some ((sget none c.undoStat n).getD (sget 0 c.stat n)) else sget none c.undoStat n := by
  induction w generalizing c with
  | nil => simp [Core.writeStat]
  | cons y w ih =>
    obtain ⟨hy, hw⟩ := List.nodup_cons.1 hw
    rw [writeStat_cons, ih hw, sget_undoStat_writeWord, sget_stat_writeWord]
    by_cases hn : n = y.1
    · subst hn
      simp [hy]
    · simp [hn]

theorem statisticsAndStagingBecomeVisible : Spec.StatisticsAndStagingBecomeVisible := by
  intro s k e hk hdue c
  have hexec := exec_resultVisible_one hk hdue
  unfold State.visibleAfter State.visible at hexec
  refine ⟨fun w hw hkind => ?_, fun d hkind => ?_⟩
  · rw [hkind] at hexec
    obtain ⟨hcore, hcols, -⟩ := writesCore_modCore s k fun c => c.writeStat e.owner w
    exact ⟨_, _, hexec, hcore, hcols, writeStat_frame w c e.owner, fun x hx => sget_stat_writeStat_of_mem w hw c e.owner hx,
      sget_stat_writeStat_of_notMem w c e.owner, sget_undoStat_writeStat w hw c e.owner⟩
  · rw [hkind] at hexec
    obtain ⟨hcore, hcols, -⟩ := writesCore_modCore s k fun c => { c with seq := { c.seq with staging := d, loaded := true } }
    exact ⟨_, hexec, hcore, hcols⟩

/-- Settles O12: RESULT_VISIBLE shows its entries one after another, each an edit of one bank, of the core or of its column. -/
theorem resultsBecomeVisible : Obligations.ResultsBecomeVisible :=
  ⟨scalarResultsBecomeVisible, otherRegistersBecomeVisible, vectorResultsBecomeVisible, resultsOfOneCycleAreOrdered,
    controlWritesBecomeVisible, statisticsAndStagingBecomeVisible⟩

end Sys2Proof.Machine
end

section

/-!
## Words and instructions (R82, R87 to R107; O52)

A word of a format is a list of fields packed into a number, and the reader of the format asks of a word that each field stands
at its place. That both say the same is shown once, for every list of fields (`ofNat_packFields_eq_iff`); for each format it is
then a comparison of two lists of fields (`toWord_eq_iff`). A row of an opcode map reads one format, or the first of several
that fits, and the encoder writes the same format under the same opcode.
-/
namespace Sys2Proof

/-! ### Packed fields and their places -/

/-- The number of bits that fields take. -/
def fieldBits : List (Nat × Nat) → Nat
  | [] => 0
  | f :: l => f.1 + fieldBits l

/-- Each field stands in a word at its place, the last field in the lowest bits. -/
def standsIn (w : W) : List (Nat × Nat) → Prop
  | [] => True
  | f :: l => w.extractLsb' (fieldBits l) f.1 = BitVec.ofNat f.1 f.2 ∧ standsIn w l

/-- Every field's value has the bits of its width. -/
def fieldsFit (l : List (Nat × Nat)) : Prop := ∀ f ∈ l, f.2 < 2 ^ f.1

@[simp] theorem fieldsFit_nil : fieldsFit [] := by simp [fieldsFit]

theorem fieldsFit_cons (f : Nat × Nat) (l : List (Nat × Nat)) : fieldsFit (f :: l) ↔ f.2 < 2 ^ f.1 ∧ fieldsFit l :=
  List.forall_mem_cons

@[simp] theorem fieldsFit_bits {n : Nat} (x : BitVec n) (l : List (Nat × Nat)) : fieldsFit ((n, x.toNat) :: l) ↔ fieldsFit l :=
  (fieldsFit_cons _ _).trans (and_iff_right x.isLt)

@[simp] theorem fieldsFit_bool (b : Bool) (l : List (Nat × Nat)) : fieldsFit ((1, b.toNat) :: l) ↔ fieldsFit l :=
  (fieldsFit_cons _ _).trans (and_iff_right b.toNat_lt)

@[simp] theorem fieldsFit_zero (n : Nat) (l : List (Nat × Nat)) : fieldsFit ((n, 0) :: l) ↔ fieldsFit l :=
  (fieldsFit_cons _ _).trans (and_iff_right (Nat.two_pow_pos n))

@[simp] theorem fieldsFit_one (n : Nat) (l : List (Nat × Nat)) : fieldsFit ((n, 1) :: l) ↔ 0 < n ∧ fieldsFit l :=
  (fieldsFit_cons _ _).trans (and_congr_left fun _ => Nat.one_lt_two_pow_iff.trans Nat.pos_iff_ne_zero.symm)

theorem foldl_packFields (l : List (Nat × Nat)) (n : Nat) :
    l.foldl (fun acc f => acc * 2 ^ f.1 + f.2) n = n * 2 ^ fieldBits l + packFields l := by
  induction l generalizing n with
  | nil => simp [fieldBits, packFields]
  | cons f l ih =>
    have hl : packFields (f :: l) = f.2 * 2 ^ fieldBits l + packFields l := by
      simpa [packFields] using ih (0 * 2 ^ f.1 + f.2)
    rw [List.foldl_cons, ih, hl, fieldBits, Nat.pow_add]
    ring

theorem packFields_cons (f : Nat × Nat) (l : List (Nat × Nat)) :
    packFields (f :: l) = f.2 * 2 ^ fieldBits l + packFields l := by
  simpa [packFields] using foldl_packFields l (0 * 2 ^ f.1 + f.2)

theorem packFields_lt {l : List (Nat × Nat)} (h : fieldsFit l) : packFields l < 2 ^ fieldBits l := by
  induction l with
  | nil => simp [fieldBits, packFields]
  | cons f l ih =>
    obtain ⟨hf, hl⟩ := (fieldsFit_cons f l).1 h
    rw [packFields_cons, fieldBits, Nat.pow_add]
    nlinarith [ih hl, hf]

theorem extractLsb'_eq_ofNat_iff (w : W) (lo n : Nat) {v : Nat} (hv : v < 2 ^ n) :
    w.extractLsb' lo n = BitVec.ofNat n v ↔ w.toNat / 2 ^ lo % 2 ^ n = v := by
  rw [← BitVec.toNat_inj, BitVec.extractLsb'_toNat, Nat.shiftRight_eq_div_pow, BitVec.toNat_ofNat, Nat.mod_eq_of_lt hv]

/-- A field of one bit is that bit of the word. -/
@[simp] theorem extractLsb'_one_eq_ofNat_toNat (w : W) (i : Nat) (b : Bool) :
    w.extractLsb' i 1 = BitVec.ofNat 1 b.toNat ↔ w.getLsbD i = b := by
  rw [extractLsb'_eq_ofNat_iff w i 1 b.toNat_lt, BitVec.getLsbD, Nat.testBit_eq_decide_div_mod_eq]
  cases b <;> simp

theorem standsIn_iff_mod (w : W) {l : List (Nat × Nat)} (h : fieldsFit l) :
    standsIn w l ↔ w.toNat % 2 ^ fieldBits l = packFields l := by
  induction l with
  | nil => simp [standsIn, fieldBits, packFields, Nat.mod_one]
  | cons f l ih =>
    obtain ⟨hf, hl⟩ := (fieldsFit_cons f l).1 h
    have hdiv := Nat.div_mod_unique (a := w.toNat % (2 ^ fieldBits l * 2 ^ f.1)) (c := packFields l) (d := f.2)
      (Nat.two_pow_pos (fieldBits l))
    rw [Nat.mod_mul_right_div_self, Nat.mod_mul_right_mod, and_iff_left (packFields_lt hl)] at hdiv
    rw [standsIn, extractLsb'_eq_ofNat_iff w _ _ hf, ih hl, hdiv, packFields_cons, fieldBits, Nat.add_comm f.1, Nat.pow_add,
      Nat.mul_comm f.2, Nat.add_comm, eq_comm]

/-- Fields of 32 bits together make a word exactly if each of them stands in it. -/
theorem ofNat_packFields_eq_iff (w : W) {l : List (Nat × Nat)} (h : fieldsFit l) (hbits : fieldBits l = 32) :
    BitVec.ofNat 32 (packFields l) = w ↔ standsIn w l := by
  have hp : packFields l < 2 ^ 32 := hbits ▸ packFields_lt h
  rw [standsIn_iff_mod w h, hbits, Nat.mod_eq_of_lt w.isLt, ← BitVec.toNat_inj, BitVec.toNat_ofNat, Nat.mod_eq_of_lt hp,
    eq_comm]

/-! ### The formats (R87 to R97): a word is what a format writes exactly if its reader finds the record in it -/

@[simp] theorem FmtG.toWord_eq_iff (op : BitVec 6) (w : W) (f : FmtG) :
    f.toWord op = w ↔ w.extractLsb' 26 6 = op ∧ FmtG.ofWord w = some f := by
  rw [toWord, ofNat_packFields_eq_iff w (by simp) rfl]
  cases f
  simp [standsIn, fieldBits, ofWord]
  tauto

@[simp] theorem FmtR.toWord_eq_iff (op : BitVec 6) (w : W) (f : FmtR) :
    f.toWord op = w ↔ w.extractLsb' 26 6 = op ∧ FmtR.ofWord w = some f := by
  rw [toWord, ofNat_packFields_eq_iff w (by simp) rfl]
  cases f
  simp [standsIn, fieldBits, ofWord]

@[simp] theorem FmtRA.toWord_eq_iff (op : BitVec 6) (w : W) (f : FmtRA) :
    f.toWord op = w ↔ w.extractLsb' 26 6 = op ∧ FmtRA.ofWord w = some f := by
  rw [toWord, ofNat_packFields_eq_iff w (by simp) rfl]
  cases f
  simp [standsIn, fieldBits, ofWord]
  tauto

@[simp] theorem FmtP.toWord_eq_iff (op : BitVec 6) (w : W) (f : FmtP) :
    f.toWord op = w ↔ w.extractLsb' 26 6 = op ∧ FmtP.ofWord w = some f := by
  rw [toWord, ofNat_packFields_eq_iff w (by simp) rfl]
  cases f
  simp [standsIn, fieldBits, ofWord]

@[simp] theorem FmtMfc.toWord_eq_iff (op : BitVec 6) (w : W) (f : FmtMfc) :
    f.toWord op = w ↔ w.extractLsb' 26 6 = op ∧ FmtMfc.ofWord w = some f := by
  rw [toWord, ofNat_packFields_eq_iff w (by simp) rfl]
  cases f
  simp [standsIn, fieldBits, ofWord]
  tauto

@[simp] theorem FmtMtc.toWord_eq_iff (op : BitVec 6) (w : W) (f : FmtMtc) :
    f.toWord op = w ↔ w.extractLsb' 26 6 = op ∧ FmtMtc.ofWord w = some f := by
  rw [toWord, ofNat_packFields_eq_iff w (by simp) rfl]
  cases f
  simp [standsIn, fieldBits, ofWord]
  tauto

@[simp] theorem FmtD.toWord_eq_iff (op : BitVec 6) (w : W) (f : FmtD) :
    f.toWord op = w ↔ w.extractLsb' 26 6 = op ∧ FmtD.ofWord w = some f := by
  rw [toWord, ofNat_packFields_eq_iff w (by simp) rfl]
  cases f
  simp [standsIn, fieldBits, ofWord]
  tauto

@[simp] theorem FmtMtp.toWord_eq_iff (op : BitVec 6) (w : W) (f : FmtMtp) :
    f.toWord op = w ↔ w.extractLsb' 26 6 = op ∧ FmtMtp.ofWord w = some f := by
  rw [toWord, ofNat_packFields_eq_iff w (by simp) rfl]
  cases f
  simp [standsIn, fieldBits, ofWord]
  tauto

@[simp] theorem FmtMfb.toWord_eq_iff (op : BitVec 6) (w : W) (f : FmtMfb) :
    f.toWord op = w ↔ w.extractLsb' 26 6 = op ∧ FmtMfb.ofWord w = some f := by
  rw [toWord, ofNat_packFields_eq_iff w (by simp) rfl]
  cases f
  simp [standsIn, fieldBits, ofWord]
  tauto

@[simp] theorem FmtMtb.toWord_eq_iff (op : BitVec 6) (w : W) (f : FmtMtb) :
    f.toWord op = w ↔ w.extractLsb' 26 6 = op ∧ FmtMtb.ofWord w = some f := by
  rw [toWord, ofNat_packFields_eq_iff w (by simp) rfl]
  cases f
  simp [standsIn, fieldBits, ofWord]
  tauto

@[simp] theorem FmtMfq.toWord_eq_iff (op : BitVec 6) (w : W) (f : FmtMfq) :
    f.toWord op = w ↔ w.extractLsb' 26 6 = op ∧ FmtMfq.ofWord w = some f := by
  rw [toWord, ofNat_packFields_eq_iff w (by simp) rfl]
  cases f
  simp [standsIn, fieldBits, ofWord]
  tauto

@[simp] theorem FmtMtq.toWord_eq_iff (op : BitVec 6) (w : W) (f : FmtMtq) :
    f.toWord op = w ↔ w.extractLsb' 26 6 = op ∧ FmtMtq.ofWord w = some f := by
  rw [toWord, ofNat_packFields_eq_iff w (by simp) rfl]
  cases f
  simp [standsIn, fieldBits, ofWord]
  tauto

@[simp] theorem FmtMftask.toWord_eq_iff (op : BitVec 6) (w : W) (f : FmtMftask) :
    f.toWord op = w ↔ w.extractLsb' 26 6 = op ∧ FmtMftask.ofWord w = some f := by
  rw [toWord, ofNat_packFields_eq_iff w (by simp) rfl]
  cases f
  simp [standsIn, fieldBits, ofWord]
  tauto

@[simp] theorem FmtMttask.toWord_eq_iff (op : BitVec 6) (w : W) (f : FmtMttask) :
    f.toWord op = w ↔ w.extractLsb' 26 6 = op ∧ FmtMttask.ofWord w = some f := by
  rw [toWord, ofNat_packFields_eq_iff w (by simp) rfl]
  cases f
  simp [standsIn, fieldBits, ofWord]
  tauto

@[simp] theorem FmtTrapi.toWord_eq_iff (op : BitVec 6) (w : W) (f : FmtTrapi) :
    f.toWord op = w ↔ w.extractLsb' 26 6 = op ∧ FmtTrapi.ofWord w = some f := by
  rw [toWord, ofNat_packFields_eq_iff w (by simp) rfl]
  cases f
  simp [standsIn, fieldBits, ofWord]
  tauto

@[simp] theorem FmtBJ.toWord_eq_iff (op : BitVec 6) (w : W) (f : FmtBJ) :
    f.toWord op = w ↔ w.extractLsb' 26 6 = op ∧ FmtBJ.ofWord w = some f := by
  rw [toWord, ofNat_packFields_eq_iff w (by simp) rfl]
  cases f
  simp [standsIn, fieldBits, ofWord]

@[simp] theorem FmtBX.toWord_eq_iff (op : BitVec 6) (w : W) (f : FmtBX) :
    f.toWord op = w ↔ w.extractLsb' 26 6 = op ∧ FmtBX.ofWord w = some f := by
  rw [toWord, ofNat_packFields_eq_iff w (by simp) rfl]
  cases f
  simp [standsIn, fieldBits, ofWord]
  tauto

@[simp] theorem FmtLoop.toWord_eq_iff (op : BitVec 6) (w : W) (f : FmtLoop) :
    f.toWord op = w ↔ w.extractLsb' 26 6 = op ∧ FmtLoop.ofWord w = some f := by
  rw [toWord, ofNat_packFields_eq_iff w (by simp) rfl]
  cases f
  simp [standsIn, fieldBits, ofWord]
  tauto

@[simp] theorem FmtLinc.toWord_eq_iff (op : BitVec 6) (w : W) (f : FmtLinc) :
    f.toWord op = w ↔ w.extractLsb' 26 6 = op ∧ FmtLinc.ofWord w = some f := by
  rw [toWord, ofNat_packFields_eq_iff w (by simp) rfl]
  cases f
  simp [standsIn, fieldBits, ofWord]

@[simp] theorem FmtRot.toWord_eq_iff (op : BitVec 6) (w : W) (f : FmtRot) :
    f.toWord op = w ↔ w.extractLsb' 26 6 = op ∧ FmtRot.ofWord w = some f := by
  rw [toWord, ofNat_packFields_eq_iff w (by simp) rfl]
  cases f
  simp [standsIn, fieldBits, ofWord]
  tauto

@[simp] theorem FmtBB.toWord_eq_iff (op : BitVec 6) (w : W) (f : FmtBB) :
    f.toWord op = w ↔ w.extractLsb' 26 6 = op ∧ FmtBB.ofWord w = some f := by
  rw [toWord, ofNat_packFields_eq_iff w (by simp) rfl]
  cases f
  simp [standsIn, fieldBits, ofWord]
  tauto

@[simp] theorem FmtPhase.toWord_eq_iff (op : BitVec 6) (w : W) (f : FmtPhase) :
    f.toWord op = w ↔ w.extractLsb' 26 6 = op ∧ FmtPhase.ofWord w = some f := by
  rw [toWord, ofNat_packFields_eq_iff w (by simp) rfl]
  cases f
  simp [standsIn, fieldBits, ofWord]
  tauto

@[simp] theorem FmtPhaseRg.toWord_eq_iff (op : BitVec 6) (w : W) (f : FmtPhaseRg) :
    f.toWord op = w ↔ w.extractLsb' 26 6 = op ∧ FmtPhaseRg.ofWord w = some f := by
  rw [toWord, ofNat_packFields_eq_iff w (by simp) rfl]
  cases f
  simp [standsIn, fieldBits, ofWord]
  tauto

@[simp] theorem FmtVR.toWord_eq_iff (op : BitVec 6) (x : BitVec 1) (w : W) (f : FmtVR) :
    f.toWord op x = w ↔ w.extractLsb' 26 6 = op ∧ FmtVR.ofWord x w = some f := by
  rw [toWord, ofNat_packFields_eq_iff w (by simp) rfl]
  cases f
  simp [standsIn, fieldBits, ofWord]
  tauto

@[simp] theorem FmtVRX.toWord_eq_iff (op : BitVec 6) (w : W) (f : FmtVRX) :
    f.toWord op = w ↔ w.extractLsb' 26 6 = op ∧ FmtVRX.ofWord w = some f := by
  rw [toWord, ofNat_packFields_eq_iff w (by simp) rfl]
  cases f
  simp [standsIn, fieldBits, ofWord]

@[simp] theorem FmtVRA.toWord_eq_iff (op : BitVec 6) (sub : BitVec 6) (w : W) (f : FmtVRA) :
    f.toWord op sub = w ↔ w.extractLsb' 26 6 = op ∧ FmtVRA.ofWord sub w = some f := by
  rw [toWord, ofNat_packFields_eq_iff w (by simp) rfl]
  cases f
  simp [standsIn, fieldBits, ofWord]
  tauto

@[simp] theorem FmtVSel.toWord_eq_iff (op : BitVec 6) (w : W) (f : FmtVSel) :
    f.toWord op = w ↔ w.extractLsb' 26 6 = op ∧ FmtVSel.ofWord w = some f := by
  rw [toWord, ofNat_packFields_eq_iff w (by simp) rfl]
  cases f
  simp [standsIn, fieldBits, ofWord]
  tauto

@[simp] theorem FmtVFlg.toWord_eq_iff (op : BitVec 6) (w : W) (f : FmtVFlg) :
    f.toWord op = w ↔ w.extractLsb' 26 6 = op ∧ FmtVFlg.ofWord w = some f := by
  rw [toWord, ofNat_packFields_eq_iff w (by simp) rfl]
  cases f
  simp [standsIn, fieldBits, ofWord]
  tauto

@[simp] theorem FmtVC.toWord_eq_iff (op : BitVec 6) (w : W) (f : FmtVC) :
    f.toWord op = w ↔ w.extractLsb' 26 6 = op ∧ FmtVC.ofWord w = some f := by
  rw [toWord, ofNat_packFields_eq_iff w (by simp) rfl]
  cases f
  simp [standsIn, fieldBits, ofWord]

@[simp] theorem FmtVBMax.toWord_eq_iff (op : BitVec 6) (w : W) (f : FmtVBMax) :
    f.toWord op = w ↔ w.extractLsb' 26 6 = op ∧ FmtVBMax.ofWord w = some f := by
  rw [toWord, ofNat_packFields_eq_iff w (by simp) rfl]
  cases f
  simp [standsIn, fieldBits, ofWord]
  tauto

@[simp] theorem FmtVBCvt.toWord_eq_iff (op : BitVec 6) (w : W) (f : FmtVBCvt) :
    f.toWord op = w ↔ w.extractLsb' 26 6 = op ∧ FmtVBCvt.ofWord w = some f := by
  rw [toWord, ofNat_packFields_eq_iff w (by simp) rfl]
  cases f
  simp [standsIn, fieldBits, ofWord]

@[simp] theorem FmtVQDual.toWord_eq_iff (op : BitVec 6) (w : W) (f : FmtVQDual) :
    f.toWord op = w ↔ w.extractLsb' 26 6 = op ∧ FmtVQDual.ofWord w = some f := by
  rw [toWord, ofNat_packFields_eq_iff w (by simp) rfl]
  cases f
  simp [standsIn, fieldBits, ofWord]
  tauto

@[simp] theorem FmtVDq.toWord_eq_iff (op : BitVec 6) (w : W) (f : FmtVDq) :
    f.toWord op = w ↔ w.extractLsb' 26 6 = op ∧ FmtVDq.ofWord w = some f := by
  rw [toWord, ofNat_packFields_eq_iff w (by simp) rfl]
  cases f
  simp [standsIn, fieldBits, ofWord]
  tauto

@[simp] theorem FmtVStr.toWord_eq_iff (op : BitVec 6) (w : W) (f : FmtVStr) :
    f.toWord op = w ↔ w.extractLsb' 26 6 = op ∧ FmtVStr.ofWord w = some f := by
  rw [toWord, ofNat_packFields_eq_iff w (by simp) rfl]
  cases f
  simp [standsIn, fieldBits, ofWord]
  tauto

@[simp] theorem FmtVStw.toWord_eq_iff (op : BitVec 6) (w : W) (f : FmtVStw) :
    f.toWord op = w ↔ w.extractLsb' 26 6 = op ∧ FmtVStw.ofWord w = some f := by
  rw [toWord, ofNat_packFields_eq_iff w (by simp) rfl]
  cases f
  simp [standsIn, fieldBits, ofWord]
  tauto

@[simp] theorem FmtVP.toWord_eq_iff (op : BitVec 6) (w : W) (f : FmtVP) :
    f.toWord op = w ↔ w.extractLsb' 26 6 = op ∧ FmtVP.ofWord w = some f := by
  rw [toWord, ofNat_packFields_eq_iff w (by simp) rfl]
  cases f
  simp [standsIn, fieldBits, ofWord]

@[simp] theorem FmtMldw.toWord_eq_iff (op : BitVec 6) (w : W) (f : FmtMldw) :
    f.toWord op = w ↔ w.extractLsb' 26 6 = op ∧ FmtMldw.ofWord w = some f := by
  rw [toWord, ofNat_packFields_eq_iff w (by simp) rfl]
  cases f
  simp [standsIn, fieldBits, ofWord]
  tauto

@[simp] theorem FmtMldwb.toWord_eq_iff (op : BitVec 6) (w : W) (f : FmtMldwb) :
    f.toWord op = w ↔ w.extractLsb' 26 6 = op ∧ FmtMldwb.ofWord w = some f := by
  rw [toWord, ofNat_packFields_eq_iff w (by simp) rfl]
  cases f
  simp [standsIn, fieldBits, ofWord]
  tauto

@[simp] theorem FmtMstream.toWord_eq_iff (op : BitVec 6) (w : W) (f : FmtMstream) :
    f.toWord op = w ↔ w.extractLsb' 26 6 = op ∧ FmtMstream.ofWord w = some f := by
  rw [toWord, ofNat_packFields_eq_iff w (by simp) rfl]
  cases f
  simp [standsIn, fieldBits, ofWord]
  tauto

@[simp] theorem FmtMclr.toWord_eq_iff (op : BitVec 6) (w : W) (f : FmtMclr) :
    f.toWord op = w ↔ w.extractLsb' 26 6 = op ∧ FmtMclr.ofWord w = some f := by
  rw [toWord, ofNat_packFields_eq_iff w (by simp) rfl]
  cases f
  simp [standsIn, fieldBits, ofWord]
  tauto

@[simp] theorem FmtMsetp.toWord_eq_iff (op : BitVec 6) (w : W) (f : FmtMsetp) :
    f.toWord op = w ↔ w.extractLsb' 26 6 = op ∧ FmtMsetp.ofWord w = some f := by
  rw [toWord, ofNat_packFields_eq_iff w (by simp) rfl]
  cases f
  simp [standsIn, fieldBits, ofWord]
  tauto

@[simp] theorem FmtMdrain.toWord_eq_iff (op : BitVec 6) (w : W) (f : FmtMdrain) :
    f.toWord op = w ↔ w.extractLsb' 26 6 = op ∧ FmtMdrain.ofWord w = some f := by
  rw [toWord, ofNat_packFields_eq_iff w (by simp) rfl]
  cases f
  simp [standsIn, fieldBits, ofWord]
  tauto

@[simp] theorem FmtMflg.toWord_eq_iff (op : BitVec 6) (w : W) (f : FmtMflg) :
    f.toWord op = w ↔ w.extractLsb' 26 6 = op ∧ FmtMflg.ofWord w = some f := by
  rw [toWord, ofNat_packFields_eq_iff w (by simp) rfl]
  cases f
  simp [standsIn, fieldBits, ofWord]
  tauto

@[simp] theorem FmtMclrf.toWord_eq_iff (op : BitVec 6) (w : W) (f : FmtMclrf) :
    f.toWord op = w ↔ w.extractLsb' 26 6 = op ∧ FmtMclrf.ofWord w = some f := by
  rw [toWord, ofNat_packFields_eq_iff w (by simp) rfl]
  cases f
  simp [standsIn, fieldBits, ofWord]
  tauto

@[simp] theorem FmtC0.toWord_eq_iff (op : BitVec 6) (w : W) (f : FmtC0) :
    f.toWord op = w ↔ w.extractLsb' 26 6 = op ∧ FmtC0.ofWord w = some f := by
  rw [toWord, ofNat_packFields_eq_iff w (by simp) rfl]
  cases f
  simp [standsIn, fieldBits, ofWord]
  tauto

@[simp] theorem FmtC0R.toWord_eq_iff (op : BitVec 6) (w : W) (f : FmtC0R) :
    f.toWord op = w ↔ w.extractLsb' 26 6 = op ∧ FmtC0R.ofWord w = some f := by
  rw [toWord, ofNat_packFields_eq_iff w (by simp) rfl]
  cases f
  simp [standsIn, fieldBits, ofWord]
  tauto

@[simp] theorem FmtC0Q.toWord_eq_iff (op : BitVec 6) (w : W) (f : FmtC0Q) :
    f.toWord op = w ↔ w.extractLsb' 26 6 = op ∧ FmtC0Q.ofWord w = some f := by
  rw [toWord, ofNat_packFields_eq_iff w (by simp) rfl]
  cases f
  simp [standsIn, fieldBits, ofWord]

@[simp] theorem FmtGA.toWord_eq_iff (op : BitVec 6) (w : W) (f : FmtGA) :
    f.toWord op = w ↔ w.extractLsb' 26 6 = op ∧ FmtGA.ofWord w = some f := by
  rw [toWord, ofNat_packFields_eq_iff w (by simp) rfl]
  cases f
  simp [standsIn, fieldBits, ofWord]
  tauto

@[simp] theorem FmtDA.toWord_eq_iff (op : BitVec 6) (sub : BitVec 3) (w : W) (f : FmtDA) :
    f.toWord op sub = w ↔ w.extractLsb' 26 6 = op ∧ FmtDA.ofWord sub w = some f := by
  rw [toWord, ofNat_packFields_eq_iff w (by simp) rfl]
  cases f
  simp [standsIn, fieldBits, ofWord]
  tauto

@[simp] theorem FmtDAB.toWord_eq_iff (op : BitVec 6) (sub : BitVec 3) (w : W) (f : FmtDAB) :
    f.toWord op sub = w ↔ w.extractLsb' 26 6 = op ∧ FmtDAB.ofWord sub w = some f := by
  rw [toWord, ofNat_packFields_eq_iff w (by simp) rfl]
  cases f
  simp [standsIn, fieldBits, ofWord]
  tauto

@[simp] theorem FmtX.toWord_eq_iff (op : BitVec 6) (w : W) (f : FmtX) :
    f.toWord op = w ↔ w.extractLsb' 26 6 = op ∧ FmtX.ofWord w = some f := by
  rw [toWord, ofNat_packFields_eq_iff w (by simp) rfl]
  cases f
  simp [standsIn, fieldBits, ofWord]
  tauto

@[simp] theorem FmtXFwd.toWord_eq_iff (op : BitVec 6) (w : W) (f : FmtXFwd) :
    f.toWord op = w ↔ w.extractLsb' 26 6 = op ∧ FmtXFwd.ofWord w = some f := by
  rw [toWord, ofNat_packFields_eq_iff w (by simp) rfl]
  cases f
  simp [standsIn, fieldBits, ofWord]
  tauto
/-! ### The rows of the opcode maps (R99 to R105) -/

/-- The word encodes the instruction, and the instruction stands in the map. -/
def encodesIn (om : OpMap) (w : W) (i : Instr) : Prop := encode i = some w ∧ (opMap i = some om ∨ i = .nop)

/-- What a row reads from a word is encoded in that word. -/
def rowSound (om : OpMap) (w : W) (row : Option Instr) : Prop := ∀ i, row = some i → encodesIn om w i

theorem rowSound_none (om : OpMap) (w : W) : rowSound om w none := fun _ h => nomatch h

theorem rowSound_fixed {om : OpMap} {w v : W} {i : Instr} (h : encodesIn om v i) :
    rowSound om w (if w = v then some i else none) := by
  intro j hj
  obtain ⟨hw, hi⟩ := Option.ite_none_right_eq_some.1 hj
  obtain rfl := Option.some.inj hi
  exact hw ▸ h

theorem rowSound_orElse {om : OpMap} {w : W} {a b : Option Instr} (ha : rowSound om w a) (hb : rowSound om w b) :
    rowSound om w (a <|> b) := by
  cases a with
  | none => exact hb
  | some i => exact ha

theorem rowSound_map {om : OpMap} {w : W} {F : Type} {o : Option F} {c : F → Instr}
    (h : ∀ f, o = some f → encodesIn om w (c f)) : rowSound om w (o.map c) := by
  intro i hi
  obtain ⟨f, hf, rfl⟩ := Option.map_eq_some_iff.1 hi
  exact h f hf

theorem opcode_eq_ofNat {w : W} {n : Nat} (h : (w.extractLsb' 26 6).toNat = n) : w.extractLsb' 26 6 = BitVec.ofNat 6 n := by
  rw [← h, BitVec.ofNat_toNat, BitVec.setWidth_eq]

/-! In each map the first row is NOP's and the last is that of the unassigned opcodes; any other reads formats, each of which
the encoder writes under the row's opcode. -/

theorem decodeS_sound (w : W) : rowSound .s w (decodeS (w.extractLsb' 26 6).toNat w) := by
  unfold decodeS
  split
  case h_1 => exact rowSound_fixed ⟨rfl, .inr rfl⟩
  case h_46 => exact rowSound_fixed ⟨rfl, .inl rfl⟩
  case h_47 => exact rowSound_none _ _
  all_goals next hop =>
    exact rowSound_map fun f hf => by simp [encodesIn, encode, opMap, opcode_eq_ofNat hop, hf]

theorem decodeB_sound (w : W) : rowSound .b w (decodeB (w.extractLsb' 26 6).toNat w) := by
  unfold decodeB
  split
  case h_1 => exact rowSound_fixed ⟨rfl, .inr rfl⟩
  case h_16 => exact rowSound_none _ _
  all_goals next hop =>
    repeat' apply rowSound_orElse
    all_goals exact rowSound_map fun f hf => by simp [encodesIn, encode, opMap, opcode_eq_ofNat hop, hf]

theorem decodeV_sound (w : W) : rowSound .v w (decodeV (w.extractLsb' 26 6).toNat w) := by
  unfold decodeV
  split
  case h_1 => exact rowSound_fixed ⟨rfl, .inr rfl⟩
  case h_62 => exact rowSound_none _ _
  all_goals next hop =>
    repeat' apply rowSound_orElse
    all_goals exact rowSound_map fun f hf => by simp [encodesIn, encode, opMap, opcode_eq_ofNat hop, hf]

theorem decodeM_sound (w : W) : rowSound .m w (decodeM (w.extractLsb' 26 6).toNat w) := by
  unfold decodeM
  split
  case h_1 => exact rowSound_fixed ⟨rfl, .inr rfl⟩
  case h_12 => exact rowSound_none _ _
  all_goals next hop =>
    exact rowSound_map fun f hf => by simp [encodesIn, encode, opMap, opcode_eq_ofNat hop, hf]

theorem decodeC0_sound (w : W) : rowSound .c0 w (decodeC0 (w.extractLsb' 26 6).toNat w) := by
  unfold decodeC0
  split
  case h_1 => exact rowSound_fixed ⟨rfl, .inr rfl⟩
  case h_25 => exact rowSound_none _ _
  all_goals next hop =>
    repeat' apply rowSound_orElse
    all_goals exact rowSound_map fun f hf => by simp [encodesIn, encode, opMap, opcode_eq_ofNat hop, hf]

theorem decodeC1_sound (w : W) : rowSound .c1 w (decodeC1 (w.extractLsb' 26 6).toNat w) := by
  unfold decodeC1
  split
  case h_1 => exact rowSound_fixed ⟨rfl, .inr rfl⟩
  case h_28 => exact rowSound_none _ _
  all_goals next hop =>
    repeat' apply rowSound_orElse
    all_goals exact rowSound_map fun f hf => by simp [encodesIn, encode, opMap, opcode_eq_ofNat hop, hf]

theorem decodeX_sound (w : W) : rowSound .x w (decodeX (w.extractLsb' 26 6).toNat w) := by
  unfold decodeX
  split
  case h_1 => exact rowSound_fixed ⟨rfl, .inr rfl⟩
  case h_7 => exact rowSound_none _ _
  all_goals next hop =>
    exact rowSound_map fun f hf => by simp [encodesIn, encode, opMap, opcode_eq_ofNat hop, hf]

theorem decodeRaw_sound (om : OpMap) (w : W) : rowSound om w (decodeRaw om w) := by
  cases om with
  | s => exact decodeS_sound w
  | v => exact decodeV_sound w
  | m => exact decodeM_sound w
  | c0 => exact decodeC0_sound w
  | c1 => exact decodeC1_sound w
  | x => exact decodeX_sound w
  | b => exact decodeB_sound w

/-! Of the formats of one row at most one fits a word: they differ in a fixed field. -/

theorem FmtVR.ofWord_eq_none {x y : BitVec 1} {w : W} {f : FmtVR} (h : ofWord x w = some f) (hxy : x ≠ y) :
    ofWord y w = none :=
  if_neg fun hy => hxy ((Option.ite_none_right_eq_some.1 h).1.symm.trans hy)

theorem FmtVRA.ofWord_eq_none {x y : BitVec 6} {w : W} {f : FmtVRA} (h : ofWord x w = some f) (hxy : x ≠ y) :
    ofWord y w = none :=
  if_neg fun hy => hxy ((Option.ite_none_right_eq_some.1 h).1.1.symm.trans hy.1)

theorem FmtDA.ofWord_eq_none {x y : BitVec 3} {w : W} {f : FmtDA} (h : ofWord x w = some f) (hxy : x ≠ y) :
    ofWord y w = none :=
  if_neg fun hy => hxy ((Option.ite_none_right_eq_some.1 h).1.2.symm.trans hy.2)

theorem FmtDAB.ofWord_eq_none {x y : BitVec 3} {w : W} {f : FmtDAB} (h : ofWord x w = some f) (hxy : x ≠ y) :
    ofWord y w = none :=
  if_neg fun hy => hxy ((Option.ite_none_right_eq_some.1 h).1.symm.trans hy)

theorem FmtC0.ofWord_eq_none {w : W} {f : FmtC0R} (h : FmtC0R.ofWord w = some f) : ofWord w = none :=
  if_neg fun h0 => absurd ((Option.ite_none_right_eq_some.1 h).1.1.symm.trans h0) (by decide)

theorem FmtPhase.ofWord_eq_none {w : W} {f : FmtPhaseRg} (h : FmtPhaseRg.ofWord w = some f) : ofWord w = none :=
  if_neg fun h0 => absurd ((Option.ite_none_right_eq_some.1 h).1.1.symm.trans h0) (by decide)

/-! An instruction's word has its opcode and its fields, so its row reads it back. -/

theorem decodeS_of_encode {w : W} {i : Instr} (hi : opMap i = some .s) (hw : encode i = some w) :
    decodeS (w.extractLsb' 26 6).toNat w = some i := by
  cases i with
  | rft =>
    cases hw
    rfl
  | iadd f | isub f | imul f | imulh f | imulhu f | and f | or f | xor f | andn f | shl f | shr f | sra f | rotl f
  | min f | max f | minu f | maxu f | shadd1 f | shadd2 f | shadd3 f | clz f | popc f | mov f | sel f | iadds f
  | isubs f | cmpeq f | cmpne f | cmplt f | cmple f | cmpltu f | cmpleu f | cmpbit f | mfc f | mtc f | mfp f | mtp f
  | mfb f | mtb f | mfq f | mtq f | mftask f | mttask f | trapi f =>
    simp [encode] at hw
    simp [decodeS, hw]
  | _ => cases hi

theorem decodeB_of_encode {w : W} {i : Instr} (hi : opMap i = some .b) (hw : encode i = some w) :
    decodeB (w.extractLsb' 26 6).toNat w = some i := by
  cases i with
  | br f | call f | bri f | calli f | ret f | loop f | linc f | lexit f | rot f | barr f | bwait f | bsync f | phase f
  | halt f =>
    simp [encode] at hw
    simp [decodeB, hw]
  | phaseRg f =>
    simp [encode] at hw
    simp [decodeB, hw, FmtPhase.ofWord_eq_none hw.2]
  | _ => cases hi

theorem decodeV_of_encode {w : W} {i : Instr} (hi : opMap i = some .v) (hw : encode i = some w) :
    decodeV (w.extractLsb' 26 6).toNat w = some i := by
  cases i with
  | vaddF32 f | vaddF16 f | vaddBf16 f | vsubF32 f | vsubF16 f | vsubBf16 f | vmulF32 f | vmulF16 f | vmulBf16 f
  | vfmaF32 f | vfmaF16 f | vfmaBf16 f | vminF32 f | vminF16 f | vminBf16 f | vmaxF32 f | vmaxF16 f | vmaxBf16 f
  | viminI32 f | viminI16 f | viminI8 f | vimaxI32 f | vimaxI16 f | vimaxI8 f | vand f | vor f | vxor f | vandn f
  | vshl f | vshr f | vsra f | vperm f | vbcst f =>
    simp [encode] at hw
    simp [decodeV, hw, FmtVR.ofWord_eq_none hw.2]
  | viaddI32 f | viaddI16 f | viaddI8 f | visubI32 f | visubI16 f | visubI8 f | vimulI32 f | vimulI16 f | vimulI8 f
  | vsel f | vflg f | vcvt f | vcvts f | vbmax f | vbcvt f | vqdual f | vdq f | vstr f | vstw f | vfcmpeq f
  | vfcmpne f | vfcmplt f | vfcmple f | vfcmpun f | vicmpeq f | vicmpne f | vicmplt f | vicmple f | vicmpltu f
  | vicmpleu f =>
    simp [encode] at hw
    rw [hw.1]
    exact congrArg (Option.map _) hw.2
  | vredAddF32 f | vredMaxF32 f | vredMinF32 f | vredAddI32 f | vredMaxI32 f | vredMinI32 f | vexp2 f | vlog2 f
  | vrcp f | vrsq f | vmov f =>
    simp [encode] at hw
    simp [decodeV, hw, FmtVRA.ofWord_eq_none hw.2]
  | _ => cases hi

theorem decodeM_of_encode {w : W} {i : Instr} (hi : opMap i = some .m) (hw : encode i = some w) :
    decodeM (w.extractLsb' 26 6).toNat w = some i := by
  cases i with
  | mldw f | mldwb f | mswap f | mstream f | mstreamb f | mclr f | msetp f | mdrain f | mflg f | mclrf f =>
    simp [encode] at hw
    simp [decodeM, hw]
  | _ => cases hi

theorem decodeC0_of_encode {w : W} {i : Instr} (hi : opMap i = some .c0) (hw : encode i = some w) :
    decodeC0 (w.extractLsb' 26 6).toNat w = some i := by
  cases i with
  | ldw f | ldh f | ldhu f | ldb f | ldbu f | stw f | sth f | stb f | vldV0 f | vldV1 f | vstV0 f | vstV1 f
  | qpushV0 f | qpushV1 f | qpopV0 f | qpopV1 f | spadd f | spmax f | spswp f =>
    simp [encode] at hw
    simp [decodeC0, hw]
  | ldwReg f | ldhReg f | ldhuReg f | ldbReg f | ldbuReg f | stwReg f | sthReg f | stbReg f | vldV0Reg f | vldV1Reg f
  | vstV0Reg f | vstV1Reg f | vgthV0 f | vgthV1 f | vsctV0 f | vsctV1 f | spaddReg f | spmaxReg f | spswpReg f =>
    simp [encode] at hw
    simp [decodeC0, hw, FmtC0.ofWord_eq_none hw.2]
  | _ => cases hi

theorem decodeC1_of_encode {w : W} {i : Instr} (hi : opMap i = some .c1) (hw : encode i = some w) :
    decodeC1 (w.extractLsb' 26 6).toNat w = some i := by
  cases i with
  | cpyld f | cpygo f | cpystat f | wbfence f | fstat f | cstat f =>
    simp [encode] at hw
    simp [decodeC1, hw]
  | vbcpySs f | vbcpyBs f | vbcpySb f | wbcopy f | wbcmp f | grel f | grelX f | grelS f | cpld f =>
    simp [encode] at hw
    simp [decodeC1, hw, FmtDAB.ofWord_eq_none hw.2]
  | wbzero f | lupd f | wbtag f | tload f | tstore f | tloadz f | gacq f | gacqX f | gacqS f | fadd f | fcas f
  | fswap f | nmsadd f | nmsgd f | nmzero f | nmcopy f | nmcmp f | nmfence f | bkalloc f | bkxlat f | bkshare f
  | bkfree f | bkload f | bkstore f | collAr f | collRs f | collAg f | collBc f | ccancel f =>
    simp [encode] at hw
    simp [decodeC1, hw, FmtDA.ofWord_eq_none hw.2]
  | _ => cases hi

theorem decodeX_of_encode {w : W} {i : Instr} (hi : opMap i = some .x) (hw : encode i = some w) :
    decodeX (w.extractLsb' 26 6).toNat w = some i := by
  cases i with
  | xsend f | xrecv f | xfwd f | fsend f | frecv f =>
    simp [encode] at hw
    simp [decodeX, hw]
  | _ => cases hi

theorem decodeRaw_of_encode {om : OpMap} {w : W} {i : Instr} (hi : opMap i = some om) (hw : encode i = some w) :
    decodeRaw om w = some i := by
  cases om with
  | s => exact decodeS_of_encode hi hw
  | v => exact decodeV_of_encode hi hw
  | m => exact decodeM_of_encode hi hw
  | c0 => exact decodeC0_of_encode hi hw
  | c1 => exact decodeC1_of_encode hi hw
  | x => exact decodeX_of_encode hi hw
  | b => exact decodeB_of_encode hi hw

theorem decodeRaw_zero (om : OpMap) : decodeRaw om 0#32 = some .nop := by
  cases om <;> rfl

/-- A map reads an instruction from a word exactly if the word encodes it and it stands in the map. -/
theorem decodeRaw_eq_some_iff (om : OpMap) (w : W) (i : Instr) : decodeRaw om w = some i ↔ encodesIn om w i := by
  refine ⟨decodeRaw_sound om w i, ?_⟩
  rintro ⟨hw, hi | rfl⟩
  · exact decodeRaw_of_encode hi hw
  · cases hw
    exact decodeRaw_zero om

theorem decodeSlot_eq_ok_iff (om : OpMap) (w : W) (i : Instr) :
    decodeSlot om w = .ok i ↔ encodesIn om w i ∧ i.wf = true := by
  rw [← decodeRaw_eq_some_iff, decodeSlot]
  cases decodeRaw om w with
  | none => simp
  | some j =>
    constructor
    · intro h
      by_cases hj : j.wf = true
      · cases (if_pos hj).symm.trans h
        exact ⟨rfl, hj⟩
      · cases (if_neg hj).symm.trans h
    · rintro ⟨hj, hwf⟩
      cases hj
      exact if_pos hwf

/-- What stands in a map has a word. -/
theorem isSome_encode {i : Instr} : (encode i).isSome = true ↔ (opMap i).isSome = true ∨ i = .nop := by
  cases i <;> simp [encode, opMap]

/-- Settles O52: a map's row and the encoder write and read the same format under the same opcode. -/
theorem decodeAndEncodeAgree : Obligations.DecodeAndEncodeAgree := by
  refine ⟨fun i om hwf hi => ?_, fun om w i h => ?_, fun i hmap hnop => ?_⟩
  · obtain ⟨w, hw⟩ := Option.isSome_iff_exists.1 (isSome_encode.2 (hi.imp_left fun h => by simp [h]))
    exact ⟨w, hw, (decodeSlot_eq_ok_iff om w i).2 ⟨⟨hw, hi⟩, hwf⟩⟩
  · obtain ⟨⟨hw, hi⟩, hwf⟩ := (decodeSlot_eq_ok_iff om w i).1 h
    exact ⟨hw, hwf, hi⟩
  · exact Option.not_isSome_iff_eq_none.1 fun h => (isSome_encode.1 h).elim (by simp [hmap]) hnop

end Sys2Proof
end

section

/-!
## A false guard (R87, R139, R162, R179, R255, R343; O59)

Every guarded form ends at its guard: with a false one it answers the state as it is, or the state with the releases of its
last-use bits on their way. `Out.onlyReleases` says both at once, and a form is its shared operation.
-/
namespace Sys2Proof.Machine

/-! ### Cores and states that gain releases only -/

/-- A core that differs from another by releases on their way. -/
def Core.gainsReleases (c d : Core) : Prop := ∃ l, Spec.onlyReleases l ∧ d = Spec.pending c (c.pend ++ l)

theorem gainsReleases_refl (c : Core) : c.gainsReleases c := ⟨[], by simp [Spec.onlyReleases], by simp [Spec.pending]⟩

theorem gainsReleases_lastUse {c d : Core} (h : c.gainsReleases d) (file : Nat) (bit : Bool) (r : BitVec 6) :
    c.gainsReleases (d.lastUse file bit r) := by
  obtain ⟨l, hl, rfl⟩ := h
  rcases lastUse_cases (Spec.pending c (c.pend ++ l)) file bit r with ⟨-, -, heq⟩ | ⟨-, heq⟩ <;> rw [heq]
  · refine ⟨l ++ [⟨0, c.cur, c.cur, .release file r⟩], fun e he => ?_, by simp [Core.send, Spec.pending]⟩
    rcases List.mem_append.1 he with he | he
    · exact hl e he
    · obtain rfl := List.mem_singleton.1 he
      exact ⟨rfl, file, r, rfl⟩
  · exact ⟨l, hl, rfl⟩

theorem gainsReleases_relR (c : Core) (f : FmtR) : c.gainsReleases (c.relR f) :=
  gainsReleases_lastUse (gainsReleases_lastUse (gainsReleases_refl c) _ _ _) _ _ _

/-- An outcome in which nothing differs from a state but releases that the executing core has on their way. -/
def Out.onlyReleases (o : Out) (s : State) : Prop :=
  ∃ l, Spec.onlyReleases l ∧ Spec.completesAs o (s.setCore s.ictx.core (Spec.pending s.cur (s.cur.pend ++ l)))

theorem onlyReleases_upd (s : State) {f : Core → Core} (h : s.cur.gainsReleases (f s.cur)) :
    Out.onlyReleases (.next (s.upd f)) s := by
  obtain ⟨l, hl, heq⟩ := h
  refine ⟨l, hl, s.upd f, rfl, ?_⟩
  rw [← heq]
  exact ⟨fun _ => rfl, fun _ => rfl, fun _ => rfl, fun _ => rfl, rfl⟩

theorem alike_setCore_cur (s : State) : Spec.alike s (s.setCore s.ictx.core s.cur) := by
  refine ⟨fun k => ?_, fun _ => rfl, fun _ => rfl, fun _ => rfl, rfl⟩
  rw [core_setCore]
  split
  · next hk => rw [hk]; rfl
  · rfl

theorem onlyReleases_self (s : State) : Out.onlyReleases (.next s) s := by
  obtain ⟨l, hl, heq⟩ := gainsReleases_refl s.cur
  exact ⟨l, hl, s, rfl, heq ▸ alike_setCore_cur s⟩

/-! ### A form at its guard -/

section
variable {s : State} {b : Bool} {o : Out}

theorem onlyReleases_of_unless (hb : b = false) : Out.onlyReleases (if !b then .next s else o) s := by
  simpa [hb] using onlyReleases_self s

theorem onlyReleases_of_unless_or (hb : b = false) (x : Bool) : Out.onlyReleases (if !b || x then .next s else o) s := by
  simpa [hb] using onlyReleases_self s

theorem onlyReleases_of_unless_or_or (hb : b = false) (x y : Bool) :
    Out.onlyReleases (if !b || x || y then .next s else o) s := by
  simpa [hb] using onlyReleases_self s

theorem onlyReleases_of_when (hb : b = false) : Out.onlyReleases (if b then o else .next s) s := by
  simpa [hb] using onlyReleases_self s

theorem onlyReleases_of_when_upd (hb : b = false) {f : Core → Core} (hf : s.cur.gainsReleases (f s.cur)) :
    Out.onlyReleases (if b then o else .next (s.upd f)) s := by
  simpa [hb] using onlyReleases_upd s hf

end

/-! ### The stops that come whatever the guard -/

section
variable {s : State} {f : State → Out}

theorem onlyReleases_bank1Only (hbank : s.cur.cur = true) (h : Out.onlyReleases (f s) s) :
    Out.onlyReleases (bank1Only s f) s := by
  rwa [bank1Only, if_pos hbank]

theorem onlyReleases_computeOnly (hcompute : s.compute = true) (h : Out.onlyReleases (f s) s) :
    Out.onlyReleases (computeOnly s f) s := by
  rwa [computeOnly, if_pos hcompute]

theorem onlyReleases_exchangeOnly (hexchange : s.compute = false) (h : Out.onlyReleases (f s) s) :
    Out.onlyReleases (exchangeOnly s f) s := by
  rwa [exchangeOnly, hexchange, if_neg Bool.false_ne_true]

theorem onlyReleases_notInLoop (hact : s.cur.bank.loop.act = false) (h : Out.onlyReleases (f s) s) :
    Out.onlyReleases (notInLoop s f) s := by
  rwa [notInLoop, hact, if_neg Bool.false_ne_true]

end

/-! ### Shared operations whose guard stands behind another test -/

theorem onlyReleases_execMtc {f : FmtMtc} {s : State} (hg : s.guard f.gn f.g = false)
    (hbank : bank1Reg f.sel = true → s.cur.cur = true) : Out.onlyReleases (execMtc f s) s := by
  have hpriv : (!s.cur.cur && bank1Reg f.sel) = false := by
    cases h : bank1Reg f.sel
    · simp
    · simp [hbank h]
  rw [execMtc, if_neg (by simp [hpriv])]
  exact onlyReleases_of_when_upd hg (gainsReleases_lastUse (gainsReleases_refl _) _ _ _)

theorem onlyReleases_execLexit {f : FmtG} {s : State} (hg : s.guard f.gn f.g = false)
    (hact : s.cur.bank.loop.act = true) : Out.onlyReleases (execLexit f s) s := by
  rw [execLexit, if_neg (by simp [hact])]
  exact onlyReleases_of_unless hg

theorem onlyReleases_phaseWith {gn : Bool} {g : BitVec 4} {s : State} (hg : s.guard gn g = false) (budget : Nat)
    (hact : s.cur.bank.loop.act = false) : Out.onlyReleases (phaseWith gn g budget s) s :=
  onlyReleases_notInLoop hact (onlyReleases_of_when (by rw [hg, Bool.false_and]))

theorem onlyReleases_transfer {gn : Bool} {g : BitVec 4} {s : State} (hg : s.guard gn g = false) (target : State → PC)
    (call : Bool) (hact : s.cur.bank.loop.act = false) : Out.onlyReleases (transfer gn g target call s) s :=
  onlyReleases_notInLoop hact (onlyReleases_of_when hg)

theorem onlyReleases_mstream {f : FmtMstream} {s : State} (hg : s.guard f.gn f.g = false) (back : Bool)
    (hcompute : s.compute = true) : Out.onlyReleases (mstream f back s) s :=
  onlyReleases_computeOnly hcompute (onlyReleases_of_unless hg)

section
variable {f : FmtDA} {s : State} (hg : s.guard f.gn f.g = false) (hexchange : s.compute = false)
include hg hexchange

theorem onlyReleases_tileForm (store : Bool) : Out.onlyReleases (tileForm store f s) s :=
  onlyReleases_exchangeOnly hexchange (onlyReleases_of_unless hg)

theorem onlyReleases_farAtomic (kind : FarKind) (sub : Nat) : Out.onlyReleases (farAtomic kind sub f s) s :=
  onlyReleases_exchangeOnly hexchange (onlyReleases_of_unless hg)

theorem onlyReleases_nmForm (kind : FarKind) (sub : Nat) : Out.onlyReleases (nmForm kind sub f s) s :=
  onlyReleases_exchangeOnly hexchange (onlyReleases_of_unless hg)

theorem onlyReleases_bkForm (kind : FarKind) (op sub : Nat) : Out.onlyReleases (bkForm kind op sub f s) s :=
  onlyReleases_exchangeOnly hexchange (onlyReleases_of_unless hg)

theorem onlyReleases_collForm (kind : CollKind) : Out.onlyReleases (collForm kind f s) s :=
  onlyReleases_exchangeOnly hexchange (onlyReleases_of_unless hg)

end

theorem onlyReleases_guardForm {gn : Bool} {g : BitVec 4} {s : State} (hg : s.guard gn g = false)
    (hexchange : s.compute = false) (release : Bool) (sub : Nat) (d a : BitVec 6) (b : W) :
    Out.onlyReleases (guardForm release sub gn g d a b s) s :=
  onlyReleases_exchangeOnly hexchange (onlyReleases_of_unless hg)

/-! ### Every guarded form -/

theorem onlyReleases_exec {i : Instr} {gn : Bool} {g : BitVec 4} {s : State} (hi : guardOf i = some (gn, g))
    (hg : s.guard gn g = false) (hplain : Spec.guardChooses i = false) (hreach : Spec.reachesItsGuard s i) :
    Out.onlyReleases (exec i s) s := by
  obtain ⟨hbank, hcompute, hexchange, hloop, hlexit⟩ := hreach
  unfold exec
  cases i with
  | iadd f | isub f | imul f | imulh f | imulhu f | and f | or f | xor f | andn f | shl f | shr f | sra f | rotl f
  | min f | max f | minu f | maxu f | shadd1 f | shadd2 f | shadd3 f | iadds f | isubs f =>
    cases hi
    exact onlyReleases_of_when_upd hg (gainsReleases_relR _ f)
  | clz f | popc f | mov f | mtb f | mtq f =>
    cases hi
    exact onlyReleases_of_when_upd hg (gainsReleases_lastUse (gainsReleases_refl _) _ _ _)
  | mtp f =>
    cases hi
    exact onlyReleases_of_when_upd hg (gainsReleases_lastUse (gainsReleases_lastUse (gainsReleases_refl _) _ _ _) _ _ _)
  | mtc f =>
    cases hi
    exact onlyReleases_execMtc hg hbank
  | mttask f =>
    cases hi
    exact onlyReleases_bank1Only (hbank rfl)
      (onlyReleases_of_when_upd hg (gainsReleases_lastUse (gainsReleases_refl _) _ _ _))
  | mftask f =>
    cases hi
    exact onlyReleases_bank1Only (hbank rfl) (onlyReleases_of_when hg)
  | cpld f =>
    cases hi
    exact onlyReleases_bank1Only (hbank rfl) (onlyReleases_of_unless hg)
  | mfc f | mfp f | mfb f | mfq f | trapi f | rot f | barr f | bwait f | bsync f | mswap f | mflg f | mclrf f | cpystat f
  | fstat f | cstat f =>
    cases hi
    exact onlyReleases_of_when hg
  | br f | call f | bri f | calli f | ret f =>
    cases hi
    exact onlyReleases_transfer hg _ _ (hloop rfl)
  | loop f | linc f | halt f =>
    cases hi
    exact onlyReleases_notInLoop (hloop rfl) (onlyReleases_of_unless hg)
  | phase f | phaseRg f =>
    cases hi
    exact onlyReleases_phaseWith hg _ (hloop rfl)
  | lexit f =>
    cases hi
    exact onlyReleases_execLexit hg (hlexit rfl)
  | mstream f | mstreamb f =>
    cases hi
    exact onlyReleases_mstream hg _ (hcompute rfl)
  | mclr f | mdrain f =>
    cases hi
    exact onlyReleases_computeOnly (hcompute rfl) (onlyReleases_of_unless hg)
  | mldw f | mldwb f | msetp f | ldw f | ldwReg f | ldh f | ldhReg f | ldhu f | ldhuReg f | ldb f | ldbReg f | ldbu f
  | ldbuReg f | stw f | stwReg f | sth f | sthReg f | stb f | stbReg f | vldV0 f | vldV0Reg f | vldV1 f | vldV1Reg f
  | vstV0 f | vstV0Reg f | vstV1 f | vstV1Reg f | vgthV0 f | vgthV1 f | vsctV0 f | vsctV1 f | qpushV0 f | qpushV1 f
  | qpopV0 f | qpopV1 f | spadd f | spaddReg f | spmax f | spmaxReg f | spswp f | spswpReg f | cpygo f | vbcpySs f
  | vbcpyBs f | vbcpySb f | wbzero f | wbcopy f | wbcmp f | wbfence f | lupd f | wbtag f =>
    cases hi
    exact onlyReleases_of_unless hg
  | cpyld f =>
    cases hi
    exact onlyReleases_of_unless_or hg _
  | tload f | tstore f =>
    cases hi
    exact onlyReleases_tileForm hg (hexchange rfl) _
  | gacq f | gacqX f | gacqS f | grel f | grelX f | grelS f =>
    cases hi
    exact onlyReleases_guardForm hg (hexchange rfl) _ _ _ _ _
  | fadd f | fcas f | fswap f =>
    cases hi
    exact onlyReleases_farAtomic hg (hexchange rfl) _ _
  | nmsadd f | nmsgd f | nmzero f | nmcopy f | nmcmp f =>
    cases hi
    exact onlyReleases_nmForm hg (hexchange rfl) _ _
  | bkalloc f | bkxlat f | bkshare f | bkfree f | bkload f | bkstore f =>
    cases hi
    exact onlyReleases_bkForm hg (hexchange rfl) _ _ _
  | collAr f | collRs f | collAg f | collBc f =>
    cases hi
    exact onlyReleases_collForm hg (hexchange rfl) _
  | tloadz f | nmfence f | ccancel f =>
    cases hi
    exact onlyReleases_exchangeOnly (hexchange rfl) (onlyReleases_of_unless hg)
  | xsend f | xrecv f | fsend f =>
    cases hi
    exact onlyReleases_exchangeOnly (hexchange rfl) (onlyReleases_of_unless_or hg _)
  | xfwd f | frecv f =>
    cases hi
    exact onlyReleases_exchangeOnly (hexchange rfl) (onlyReleases_of_unless_or_or hg _ _)
  | sel f | cmpeq f | cmpne f | cmplt f | cmple f | cmpltu f | cmpleu f | cmpbit f | vfcmpeq f | vfcmpne f | vfcmplt f
  | vfcmple f | vfcmpun f | vicmpeq f | vicmpne f | vicmplt f | vicmple f | vicmpltu f | vicmpleu f => cases hplain
  | _ => cases hi

/-- Settles O59: by the shared operation that each guarded form is. -/
theorem aFalseGuardDoesNothing : Obligations.AFalseGuardDoesNothing := fun _ _ _ _ hi hg hplain hreach =>
  onlyReleases_exec hi hg hplain hreach

end Sys2Proof.Machine
end

section

/-!
## Slots and bundles (R82 to R84, R86; O49, O53, O54)

The slots of a bundle are the present ones in ascending order, each decoded from its own word. One clause of O54 fails: the
bundle of a trap takes no effect, so the step drops what the instruction and its fetch did to the state, the pc among it.
-/
namespace Sys2Proof

/-! ### Slot words (R83) -/

theorem decodeSlot_zero (om : OpMap) : decodeSlot om 0#32 = .ok .nop :=
  (decodeSlot_eq_ok_iff om 0#32 .nop).2 ⟨⟨rfl, .inr rfl⟩, rfl⟩

/-- The first row of every map is NOP's, which no other word has. -/
theorem decodeSlot_opcode_zero (om : OpMap) {w : W} (hop : w.extractLsb' 26 6 = 0#6) (hw : w ≠ 0#32) :
    decodeSlot om w = .error .illegalSlot := by
  have hrow : (if w = 0#32 then some Instr.nop else none) = none := if_neg hw
  have hraw : decodeRaw om w = none := by
    cases om <;> (simp only [decodeRaw, hop]; exact hrow)
  rw [decodeSlot, hraw]

/-! ### The slots of a bundle -/

theorem decodeSlots_cons_eq_ok {k : Slot} {w : W} {l : List (Slot × W)} {slots : List (Slot × Instr)}
    (h : decodeSlots ((k, w) :: l) = .ok slots) :
    ∃ i rest, slots = (k, i) :: rest ∧ decodeSlot k.map w = .ok i ∧ decodeSlots l = .ok rest := by
  rw [decodeSlots] at h
  split at h
  · cases h
  · next i hi =>
    split at h
    · cases h
    · next rest hrest =>
      cases h
      exact ⟨i, rest, rfl, hi, hrest⟩

theorem map_fst_of_decodeSlots {l : List (Slot × W)} {slots : List (Slot × Instr)} (h : decodeSlots l = .ok slots) :
    slots.map (·.1) = l.map (·.1) := by
  induction l generalizing slots with
  | nil =>
    cases h
    rfl
  | cons x l ih =>
    obtain ⟨i, rest, rfl, -, hrest⟩ := decodeSlots_cons_eq_ok h
    exact congrArg (x.1 :: ·) (ih hrest)

theorem word_of_decodeSlots {l : List (Slot × W)} {slots : List (Slot × Instr)} (h : decodeSlots l = .ok slots) {n : Nat}
    {x : Slot × Instr} (hx : slots[n]? = some x) : ∃ w, l[n]? = some (x.1, w) ∧ decodeSlot x.1.map w = .ok x.2 := by
  induction l generalizing slots n with
  | nil =>
    cases h
    cases hx
  | cons y l ih =>
    obtain ⟨i, rest, rfl, hi, hrest⟩ := decodeSlots_cons_eq_ok h
    cases n with
    | zero =>
      cases hx
      exact ⟨y.2, rfl, hi⟩
    | succ n => exact ih hrest hx

theorem decodeBundleWords_eq_ok {hw : W} {ws : List W} {b : Bundle} (h : decodeBundleWords hw ws = .ok b) :
    b.header = Header.ofWord hw ∧ decodeSlots ((Header.ofWord hw).slots.zip ws) = .ok b.slots := by
  unfold decodeBundleWords at h
  dsimp only at h
  split at h
  · cases h
  · split at h
    · cases h
    · split at h
      · cases h
      · next hslots =>
        cases h
        exact ⟨rfl, hslots⟩

theorem slots_ofWord (hw : W) : (Header.ofWord hw).slots = Slot.all.filter fun k => hw.getLsbD (24 + k.num) := by
  refine List.filter_congr fun k _ => ?_
  have hk : k.num < 8 := by cases k <;> decide
  simp [Header.ofWord, hk]

theorem slots_length_le (h : Header) : h.slots.length ≤ h.words - 1 := by
  unfold Header.words
  omega

/-- The slots of a bundle are those its header marks, in ascending order, each read from the word at its place. -/
theorem slots_of_decodeBundleWords {hw : W} {ws : List W} {b : Bundle} (h : decodeBundleWords hw ws = .ok b)
    (hlen : b.header.words - 1 ≤ ws.length) :
    b.slots.map (·.1) = Slot.all.filter (fun k => hw.getLsbD (24 + k.num)) ∧
      ∀ (n : Nat) (x : Slot × Instr), b.slots[n]? = some x → ∃ w, ws[n]? = some w ∧ decodeSlot x.1.map w = .ok x.2 := by
  obtain ⟨hheader, hslots⟩ := decodeBundleWords_eq_ok h
  have hle : (Header.ofWord hw).slots.length ≤ ws.length := (slots_length_le _).trans (hheader ▸ hlen)
  refine ⟨?_, fun n x hx => ?_⟩
  · rw [map_fst_of_decodeSlots hslots, List.map_fst_zip hle, slots_ofWord]
  · obtain ⟨w, hw, hdecode⟩ := word_of_decodeSlots hslots hx
    exact ⟨w, (List.getElem?_zip_eq_some.1 hw).2, hdecode⟩

theorem slots_ascending (p : Slot → Bool) : (Slot.all.filter p).Pairwise fun j k => j.num < k.num :=
  List.Pairwise.filter p (by decide)

/-- Settles O49: opcode 0 is the first row of every map, and a bundle's slots decode one by one in the order of its header. -/
theorem nopStandsInEverySlot : Obligations.NopStandsInEverySlot := by
  refine ⟨fun k => decodeSlot_zero k.map, fun k w hop hw => decodeSlot_opcode_zero k.map hop hw, fun _ => rfl, fun _ _ => rfl,
    fun hw ws b h hlen => ?_, fun k => ?_⟩
  · obtain ⟨hpresent, hwords⟩ := slots_of_decodeBundleWords h hlen
    refine ⟨hpresent, ?_, hwords⟩
    exact (List.pairwise_map (f := Prod.fst) (R := fun j k : Slot => j.num < k.num)).1 (hpresent ▸ slots_ascending _)
  · cases k <;> exact ⟨_, rfl, rfl⟩

/-- Settles O53: the instructions' words, and the bundle of R82's example. -/
theorem wordsOfTheSpecDecode : Obligations.WordsOfTheSpecDecode :=
  ⟨⟨_, rfl, rfl, rfl, rfl, rfl⟩, rfl, rfl, rfl, rfl, rfl, rfl, rfl, rfl, rfl⟩

end Sys2Proof

namespace Sys2Proof.Machine

/-! ### The bundle of a trap (R201)

LUPD of a zero descriptor raises OPFMT, for its DMAX is 0 (R236). -/

def lupdZero : Instr := .lupd ⟨false, 0, 0, 0⟩

def lupdBundle : Bundle := ⟨⟨0x20#8, false, false, 0#4, false⟩, [(.c1, lupdZero)], none⟩

/-- The machine about to issue that LUPD at offset 0 of core 0. -/
def aboutToTrap : State := State.reset.withFetchWord 32 0x34000000

/-- The same with the bundle fetched: its instruction finds the pc past it. -/
def lupdFetched : State :=
  { ({ aboutToTrap with todo := [] } : State).setCore 0 { aboutToTrap.core 0 with pc := 8, dwell := 0 } with
    ictx := { core := 0, slot := 5, lit := 0, pc := 0, next := 8, trap := none, ckp := false } }

/-- The pc of core 0 in a next state. -/
def pcAfter : Out → Option PC
  | .next s => some (s.core 0).pc
  | _ => none

theorem bundleBytes_aboutToTrap : (aboutToTrap.core 0).bundleBytes (aboutToTrap.core 0).cur (aboutToTrap.core 0).pc.toNat =
    some (oneSlotBundle .c1 0x34000000#32 false) := by decide +kernel

theorem decodeBundle_lupd : decodeBundle (oneSlotBundle .c1 0x34000000#32 false) = .ok (lupdBundle, []) := by decide +kernel

theorem exec_lupdZero : exec lupdZero lupdFetched = .next (lupdFetched.trap cOpfmt) := by rfl

/-- Refutes O54: the bundle of a trap takes no effect, so after the trap of a LUPD at offset 0 the core's pc is 0 as before the
step; the statement begins the drain from the state that the instruction left, whose pc is 8. -/
theorem not_aStepRunsTheDecodedInstruction : ¬ Obligations.AStepRunsTheDecodedInstruction := by
  rintro ⟨h, -⟩
  have hstep := h aboutToTrap 0 [] _ [] lupdBundle .c1 lupdZero (by decide +kernel) (by decide +kernel) bundleBytes_aboutToTrap
    decodeBundle_lupd (by decide +kernel) rfl (by decide) (by decide +kernel) (by decide +kernel) (lupdFetched.trap cOpfmt)
    exec_lupdZero
  exact absurd (congrArg pcAfter hstep) (by decide +kernel)

end Sys2Proof.Machine
end

section

/-!
## Accesses to local memory (R78, R178 to R188; O18 to O22)

Every C0 form that reads or writes the scratchpad is one of a few shared operations at an effective address. Here stand what the
forms are, when an address is allowed, what a vector register's bytes are, and the cores that sending leaves behind; each
obligation then says of the shared operation what it does and reads it off for the forms.
-/
namespace Sys2Proof.Machine

/-! ### Bytes and the numbers they make (R5) -/

theorem natOfBytes_lt (bs : List Byte) : natOfBytes bs < 2 ^ (8 * bs.length) := by
  induction bs with
  | nil => exact Nat.one_pos
  | cons b r ih =>
    have hb := b.isLt
    rw [natOfBytes, List.length_cons, Nat.mul_succ, Nat.pow_add]
    omega

theorem toNat_ofNat_natOfBytes (bs : List Byte) (n : Nat) (hn : 8 * bs.length = n) :
    (BitVec.ofNat n (natOfBytes bs)).toNat = natOfBytes bs := by
  rw [BitVec.toNat_ofNat, Nat.mod_eq_of_lt (hn ▸ natOfBytes_lt bs)]

theorem natOfBytes_drop (bs : List Byte) (n : Nat) : natOfBytes (bs.drop n) = natOfBytes bs / 256 ^ n := by
  induction n generalizing bs with
  | zero => simp
  | succ n ih =>
    cases bs with
    | nil => simp [natOfBytes]
    | cons b r =>
      have hb := b.isLt
      rw [List.drop_succ_cons, ih, natOfBytes, Nat.pow_succ', ← Nat.div_div_eq_div_mul]
      congr 1
      omega

theorem natOfBytes_take (bs : List Byte) (n : Nat) : natOfBytes (bs.take n) = natOfBytes bs % 256 ^ n := by
  induction n generalizing bs with
  | zero => simp [natOfBytes, Nat.mod_one]
  | succ n ih =>
    cases bs with
    | nil => simp [natOfBytes]
    | cons b r =>
      have hb := b.isLt
      rw [List.take_succ_cons, natOfBytes, natOfBytes, ih, Nat.pow_succ', Nat.mod_mul,
        show (b.toNat + 256 * natOfBytes r) / 256 = natOfBytes r by omega]
      omega

theorem bytes_drop (m : Memory) (a n k : Nat) : (m.bytes a n).drop k = m.bytes (a + k) (n - k) := by
  refine List.ext_getElem (by simp [Memory.bytes]) fun i _ _ => ?_
  simp [Memory.bytes, Nat.add_assoc]

theorem bytes_take (m : Memory) (a : Nat) {n k : Nat} (h : k ≤ n) : (m.bytes a n).take k = m.bytes a k :=
  List.ext_getElem (by simp [Memory.bytes, h]) fun i _ _ => by simp [Memory.bytes]

theorem pow_32_eq_pow_bytes (l : Nat) : 2 ^ (32 * l) = 256 ^ (4 * l) := by
  rw [show 32 * l = 8 * (4 * l) by omega, Nat.pow_mul]

/-- Lane l of a register made of bytes is the word of its four bytes (R5, R180). -/
theorem lane_regOfBytes (m : Memory) (a : Nat) {l : Nat} (hl : l < 64) :
    lane (regOfBytes (m.bytes a 256)) l = BitVec.ofNat 32 (m.nat (a + 4 * l) 4) := by
  have hword : m.nat (a + 4 * l) 4 = natOfBytes (m.bytes a 256) / 2 ^ (32 * l) % 2 ^ 32 := by
    rw [Memory.nat, ← bytes_take m (a + 4 * l) (show 4 ≤ 256 - 4 * l by omega), ← bytes_drop, natOfBytes_take,
      natOfBytes_drop, pow_32_eq_pow_bytes]
    rfl
  apply BitVec.eq_of_toNat_eq
  rw [hword, lane, regOfBytes, BitVec.extractLsb'_toNat, toNat_ofNat_natOfBytes _ _ (by rw [length_bytes]),
    Nat.shiftRight_eq_div_pow, BitVec.toNat_ofNat, Nat.mod_mod]

theorem bytesOfNat_add (m n v : Nat) : bytesOfNat (m + n) v = bytesOfNat m v ++ bytesOfNat n (v / 256 ^ m) := by
  induction m generalizing v with
  | zero => simp [bytesOfNat]
  | succ m ih =>
    rw [Nat.succ_add, bytesOfNat, bytesOfNat, List.cons_append, ih, Nat.div_div_eq_div_mul, Nat.pow_succ, Nat.mul_comm 256]

theorem bytesOfNat_mod (n v : Nat) : bytesOfNat n (v % 256 ^ n) = bytesOfNat n v := by
  induction n generalizing v with
  | zero => rfl
  | succ n ih =>
    have hlow : BitVec.ofNat 8 (v % 256 ^ (n + 1)) = BitVec.ofNat 8 v :=
      BitVec.eq_of_toNat_eq (Nat.mod_mod_of_dvd v (Dvd.intro_left (256 ^ n) rfl))
    rw [bytesOfNat, bytesOfNat, hlow, Nat.pow_succ, Nat.mul_comm, Nat.mod_mul_right_div_self, ih]

/-- The bytes of n words of a number, word by word. -/
theorem bytesOfNat_words (n v : Nat) :
    bytesOfNat (4 * n) v = ((List.range n).map fun l => bytesOfNat 4 (v / 256 ^ (4 * l))).flatten := by
  induction n with
  | zero => rfl
  | succ n ih => rw [Nat.mul_succ, bytesOfNat_add, ih, List.range_succ]; simp

/-- The bytes of a register are those of its lanes, lane 0 first (R5, R180). -/
theorem regBytes_eq_laneBytes (v : VReg) : regBytes v = Spec.laneBytes v := by
  refine (bytesOfNat_words 64 v.toNat).trans (congrArg List.flatten (List.map_congr_left fun l _ => ?_))
  rw [lane, BitVec.extractLsb'_toNat, Nat.shiftRight_eq_div_pow, pow_32_eq_pow_bytes l]
  exact (bytesOfNat_mod 4 _).symm

theorem length_laneBytes (v : VReg) : (Spec.laneBytes v).length = 256 := by
  rw [← regBytes_eq_laneBytes]
  exact length_bytesOfNat 256 _

/-- The low n bits of a number, read as signed (R180). -/
theorem sext_eq_signExtend {n : Nat} (hn : 0 < n) (v : Nat) : Spec.sext n v = (BitVec.ofNat n v).signExtend 32 := by
  have hhalf : 2 ^ n = 2 * 2 ^ (n - 1) := by rw [← Nat.pow_succ', Nat.succ_eq_add_one, Nat.sub_add_cancel hn]
  have hsigned : sextNat n v = (BitVec.ofNat n v).toInt := by
    rw [BitVec.toInt_eq_toNat_cond, BitVec.toNat_ofNat, sextNat]
    split_ifs <;> omega
  rw [Spec.sext, Spec.wrapI, hsigned, BitVec.signExtend]

/-! ### Allowed addresses (R78) -/

theorem readOk_iff (a : Int) {n : Nat} (hn : 0 < n) : readOk a n = true ↔ Spec.readable a n := by
  simp only [readOk, Spec.readable, Bool.and_eq_true, decide_eq_true_eq, beq_iff_eq]
  simp only [spRow]
  grind

theorem writeOk_iff (a : Int) {n : Nat} (hn : 0 < n) : writeOk a n = true ↔ Spec.readable a n ∨ Spec.aliased a n := by
  simp only [writeOk, Spec.readable, Spec.aliased, Bool.and_eq_true, decide_eq_true_eq, beq_iff_eq]
  simp only [spRow]
  grind

theorem spRow_eq_two_iff (a : Nat) : spRow a = 2 ↔ 0x400000 ≤ a ∧ a < 0x410000 := by
  rw [spRow]
  grind

theorem spRow_ne_two_of_readable {a n : Nat} (hn : 0 < n) (h : Spec.readable a n) : spRow a ≠ 2 := by
  rw [Ne, spRow_eq_two_iff]
  rw [Spec.readable] at h
  omega

theorem spRow_eq_two_of_aliased {a n : Nat} (hn : 0 < n) (h : Spec.aliased a n) : spRow a = 2 := by
  rw [spRow_eq_two_iff]
  rw [Spec.aliased] at h
  omega

theorem toNat_of_readable {a : Int} {n : Nat} (h : Spec.readable a n) : (a.toNat : Int) = a := Int.toNat_of_nonneg h.1

/-! ### The cause of an access (R178, R179) -/

section
variable {ok : Int → Nat → Bool} {ea align : Int} {n : Nat}

theorem eaCause_of_allowed (hok : ok ea n = true) (hal : ea % align = 0) : eaCause ok ea n align = none := by
  rw [eaCause, hok, if_neg (by decide), if_neg (not_not.2 hal)]

theorem eaCause_of_forbidden (hok : ok ea n ≠ true) : eaCause ok ea n align = some cSpRange := by
  rw [eaCause, Bool.eq_false_iff.2 hok]
  rfl

theorem eaCause_of_misaligned (hok : ok ea n = true) (hal : ea % align ≠ 0) : eaCause ok ea n align = some cAlign := by
  rw [eaCause, hok, if_neg (by decide), if_pos hal]

end

/-! ### The undo budget (R208) -/

theorem undoOver_of_room {c : Core} {n : Nat} (h : Spec.room c n) : c.undoOver n = false := by
  rw [Core.undoOver]
  rcases h with h | h
  · rw [h]; rfl
  · rw [decide_eq_false (by omega), Bool.and_false]

theorem undoOver_of_beyond {c : Core} {n : Nat} (hbank : c.cur = false) (h : 65536 < c.undoCount + n) :
    c.undoOver n = true := by
  rw [Core.undoOver, hbank, decide_eq_true h]; rfl

theorem countUndo_eq_counting (c : Core) (n : Nat) : c.countUndo n = Spec.counting c n := by
  rw [Core.countUndo, Spec.counting]
  split <;> rfl

/-! ### What the executing core sends, and its trap (R80, R201) -/

theorem foldl_send (c : Core) (res : List (Nat × PendKind)) :
    res.foldl (fun c x => c.send x.1 x.2) c = Spec.pending c (c.pend ++ res.map fun x => Pend.mk x.1 c.cur c.cur x.2) := by
  induction res generalizing c with
  | nil => rw [List.map_nil, List.append_nil]; rfl
  | cons x r ih => rw [List.foldl_cons, ih, List.map_cons, ← List.singleton_append, ← List.append_assoc]; rfl

/-- Results put on their way one after another are what the statements write as `sentFrom`. -/
theorem sentFrom_eq_foldl_send (s : State) (c : Core) (res : List (Nat × PendKind)) :
    Spec.sentFrom s c res [] = s.setCore s.ictx.core (res.foldl (fun c x => c.send x.1 x.2) c) := by
  rw [foldl_send]
  exact congrArg (fun l => s.setCore s.ictx.core (Spec.pending c l)) (List.append_nil _)

theorem upd_countUndo_send (s : State) (n left : Nat) (k : PendKind) :
    (s.upd fun c => (c.countUndo n).send left k) = Spec.sentFrom s (Spec.counting s.cur n) [(left, k)] [] := by
  rw [sentFrom_eq_foldl_send, ← countUndo_eq_counting]
  rfl

theorem trap_eq_trapped {s : State} (hbank : s.cur.cur = false) (code : Nat) : s.trap code = Spec.trapped s code :=
  trap_bank0 s code hbank

/-! ### Loads (R180, R181) -/

/-- A scalar load of the list is `loadS` at its size and extension, in both address forms. -/
theorem exec_loads {x : (FmtC0 → Instr) × (FmtC0R → Instr) × Nat × (Nat → W)} (hx : x ∈ Spec.loads) (s : State) :
    0 < x.2.2.1 ∧
    (∀ f, exec (x.1 f) s = loadS f.gn f.g f.d x.2.2.1 x.2.2.2 (fun s => Spec.eaOff s f.bq f.off x.2.2.1) s) ∧
    ∀ f, exec (x.2.1 f) s = loadS f.gn f.g f.d x.2.2.1 x.2.2.2 (fun s => Spec.eaIdx s f.bq f.a) s := by
  have h16 : Spec.sext 16 = fun v => (BitVec.ofNat 16 v).signExtend 32 := funext (sext_eq_signExtend (by decide))
  have h8 : Spec.sext 8 = fun v => (BitVec.ofNat 8 v).signExtend 32 := funext (sext_eq_signExtend (by decide))
  simp only [Spec.loads, h16, h8, List.mem_cons, List.not_mem_nil, or_false] at hx
  rcases hx with rfl | rfl | rfl | rfl | rfl <;> exact ⟨by decide, fun _ => rfl, fun _ => rfl⟩

theorem exec_vectorLoads {x : (FmtC0 → Instr) × (FmtC0R → Instr) × Bool} (hx : x ∈ Spec.vectorLoads) (s : State) :
    (∀ f, exec (x.1 f) s = loadV f.gn f.g x.2.2 f.d (fun s => Spec.eaOff s f.bq f.off 256) s) ∧
    ∀ f, exec (x.2.1 f) s = loadV f.gn f.g x.2.2 f.d (fun s => Spec.eaIdx s f.bq f.a) s := by
  simp only [Spec.vectorLoads, List.mem_cons, List.not_mem_nil, or_false] at hx
  rcases hx with rfl | rfl <;> exact ⟨fun _ => rfl, fun _ => rfl⟩

section
variable {s : State} {gn : Bool} {g : BitVec 4} {ea : State → Int}

theorem loadS_of_allowed {a n : Nat} (hg : s.guard gn g = true) (hea : ea s = a) (hn : 0 < n) (hr : Spec.readable a n)
    (hal : a % n = 0) (d : BitVec 6) (ext : Nat → W) :
    loadS gn g d n ext ea s = .next (Spec.sent s [(6, .reg d (ext (s.cur.sp.nat a n)))] []) := by
  rw [loadS, hg, hea, eaCause_of_allowed ((readOk_iff _ hn).2 hr) (by exact_mod_cast hal), ← upd_send_eq_sent]
  rfl

theorem loadV_of_allowed {a : Nat} (hg : s.guard gn g = true) (hea : ea s = a) (hr : Spec.readable a 256)
    (hal : a % 4 = 0) (u : Bool) (d : BitVec 6) :
    loadV gn g u d ea s =
      .next (Spec.sent s [(6, .vload u d (BitVec.allOnes 64) (regOfBytes (s.cur.sp.bytes a 256)))] []) := by
  rw [loadV, hg, hea, eaCause_of_allowed ((readOk_iff _ (by decide)).2 hr) (by exact_mod_cast hal), ← upd_send_eq_sent]
  rfl

end

/-! ### Stores (R180, R181, R188) -/

/-- A scalar store of the list stores the low bytes of its register, in both address forms. -/
theorem exec_stores {x : (FmtC0 → Instr) × (FmtC0R → Instr) × Nat} (hx : x ∈ Spec.stores) :
    0 < x.2.2 ∧ ∃ op, ∀ s : State,
      (∀ f : FmtC0, s.guard f.gn f.g = true → exec (x.1 f) s =
        .next (s.storeAt op (Spec.eaOff s f.bq f.off x.2.2) x.2.2 (bytesOfNat x.2.2 (s.rs 2 f.d).toNat))) ∧
      ∀ f : FmtC0R, s.guard f.gn f.g = true → exec (x.2.1 f) s =
        .next (s.storeAt op (Spec.eaIdx s f.bq f.a) x.2.2 (bytesOfNat x.2.2 (s.rs 2 f.d).toNat)) := by
  have guarded : ∀ {b : Bool} {o p : Out}, b = true → (if !b then o else p) = p := by rintro _ _ _ rfl; rfl
  simp only [Spec.stores, List.mem_cons, List.not_mem_nil, or_false] at hx
  rcases hx with rfl | rfl | rfl <;>
    exact ⟨by decide, _, fun s => ⟨fun _ hg => guarded hg, fun _ hg => guarded hg⟩⟩

/-- A vector store of the list stores the bytes of the lanes, in both address forms. -/
theorem exec_vectorStores {x : (FmtC0 → Instr) × (FmtC0R → Instr) × Bool} (hx : x ∈ Spec.vectorStores) :
    ∃ op, ∀ s : State,
      (∀ f : FmtC0, s.guard f.gn f.g = true → exec (x.1 f) s =
        .next (s.storeAt op (Spec.eaOff s f.bq f.off 256) 4 (Spec.laneBytes (s.rv x.2.2 2 f.d)))) ∧
      ∀ f : FmtC0R, s.guard f.gn f.g = true → exec (x.2.1 f) s =
        .next (s.storeAt op (Spec.eaIdx s f.bq f.a) 4 (Spec.laneBytes (s.rv x.2.2 2 f.d))) := by
  have guarded : ∀ {b : Bool} {o p : Out}, b = true → (if !b then o else p) = p := by rintro _ _ _ rfl; rfl
  simp only [Spec.vectorStores, List.mem_cons, List.not_mem_nil, or_false] at hx
  simp only [← regBytes_eq_laneBytes]
  rcases hx with rfl | rfl <;> exact ⟨_, fun s => ⟨fun _ hg => guarded hg, fun _ hg => guarded hg⟩⟩

section
variable {s : State} {a : Nat} {align : Int} {bs : List Byte} {n op : Nat} {o : Out}

/-- A store to the core's own part or the window counts its bytes and sends them (R181, R188, R208). -/
theorem storeAt_of_readable (ho : o = .next (s.storeAt op a align bs)) (hbs : bs.length = n) (hn : 0 < n)
    (hr : Spec.readable a n) (hal : (a : Int) % align = 0) (hroom : Spec.room s.cur n) :
    o = .next (Spec.sentFrom s (Spec.counting s.cur n) [(2, .spw (placed a bs))] []) := by
  rw [ho, State.storeAt, hbs, eaCause_of_allowed ((writeOk_iff _ hn).2 (.inl hr)) hal]
  refine congrArg _ ((if_neg (spRow_ne_two_of_readable hn hr)).trans ?_)
  rw [State.localStore, Int.toNat_natCast, hbs, undoOver_of_room hroom, ← upd_countUndo_send]
  rfl

/-- A store to the aliased part is a multicast store (R187). -/
theorem storeAt_of_aliased (hn : 0 < bs.length) (ha : Spec.aliased a bs.length) (hal : (a : Int) % align = 0) :
    s.storeAt op a align bs = s.mcastStore op a bs := by
  rw [State.storeAt, eaCause_of_allowed ((writeOk_iff _ hn).2 (.inr ha)) hal]
  exact if_pos (spRow_eq_two_of_aliased hn ha)

end

/-! ### Atomics (R186) -/

theorem exec_atomics {x : (FmtC0 → Instr) × (FmtC0R → Instr) × Nat} (hx : x ∈ Spec.atomics) (s : State) :
    (∀ f, exec (x.1 f) s = spAtomic f.gn f.g x.2.2 f.d (fun s => Spec.eaOff s f.bq f.off 4) s) ∧
    ∀ f, exec (x.2.1 f) s = spAtomic f.gn f.g x.2.2 f.d (fun s => Spec.eaIdx s f.bq f.a) s := by
  simp only [Spec.atomics, List.mem_cons, List.not_mem_nil, or_false] at hx
  rcases hx with rfl | rfl | rfl <;> exact ⟨fun _ => rfl, fun _ => rfl⟩

theorem spAtomic_of_allowed {s : State} {gn : Bool} {g : BitVec 4} {ea : State → Int} {a : Nat} (hg : s.guard gn g = true)
    (hea : ea s = a) (hr : Spec.readable a 4) (hal : a % 4 = 0) (hroom : Spec.room s.cur 4) (op : Nat) (d : BitVec 6) :
    spAtomic gn g op d ea s =
      .next (Spec.sentFrom s (Spec.counting s.cur 4) [(2, .atom op a d (s.rs 2 d))] []) := by
  rw [spAtomic, hg, hea, eaCause_of_allowed ((readOk_iff _ (by decide)).2 hr) (by exact_mod_cast hal),
    undoOver_of_room hroom, ← upd_countUndo_send]
  rfl

/-! ### Gathers and scatters (R183, R188) -/

theorem map_range_congr {α : Type} {n : Nat} {f g : Nat → α} (h : ∀ i < n, f i = g i) :
    (List.range n).map f = (List.range n).map g :=
  List.map_congr_left fun i hi => h i (List.mem_range.1 hi)

theorem getD_map_range {α : Type} {n i : Nat} (f : Nat → α) (d : α) (h : i < n) : ((List.range n).map f).getD i d = f i := by
  simp [List.getD, h]

theorem laneAddrs_of_allowed {ok : Int → Nat → Bool} {ea : Nat → Int} {a : Nat → Nat} (hea : ∀ l < 64, ea l = a l)
    (hok : ∀ l < 64, ok (a l) 4 = true) (hal : ∀ l < 64, a l % 4 = 0) :
    laneAddrs ok ((List.range 64).map ea) = .ok ((List.range 64).map a) := by
  rw [map_range_congr hea, laneAddrs, if_neg, if_neg, List.map_map]
  · rfl
  · simp only [List.any_map, List.any_eq_true, List.mem_range, not_exists, not_and, Function.comp_apply, decide_eq_true_eq,
      not_not]
    exact fun l hl => by exact_mod_cast hal l hl
  · simp only [List.any_map, List.any_eq_true, List.mem_range, not_exists, not_and, Function.comp_apply, Bool.not_eq_true',
      Bool.not_eq_false]
    exact hok

theorem gather_of_allowed {f : FmtC0R} {s : State} {u : Bool} {a : Nat → Nat} (hg : s.guard f.gn f.g = true)
    (hea : ∀ l < 64, s.eaLane f.bq (s.rv u 0 f.a) l = a l) (hr : ∀ l < 64, Spec.readable (a l) 4)
    (hal : ∀ l < 64, a l % 4 = 0) :
    ∃ v : VReg, (∀ l < 64, lane v l = BitVec.ofNat 32 (s.cur.sp.nat (a l) 4)) ∧
      gather u f s = .next (Spec.sent s [(6, .vload u f.d (BitVec.allOnes 64) v)] []) := by
  refine ⟨ofLanes fun l => BitVec.ofNat 32 (s.cur.sp.nat (((List.range 64).map a).getD l 0) 4), fun l hl => ?_, ?_⟩
  · rw [lane_ofLanes _ hl, getD_map_range a 0 hl]
  · simp only [gather, hg, laneAddrs_of_allowed hea (fun l hl => (readOk_iff _ (by decide)).2 (hr l hl)) hal,
      ← upd_send_eq_sent]
    rfl

/-- The words that the lanes of a scatter store, at the addresses of a list. -/
def laneWords (a : Nat → Nat) (v : VReg) : List (Nat × List Byte) :=
  (List.range 64).map fun l => (a l, bytesOfNat 4 (lane v l).toNat)

/-- The executing core after the lanes of a scatter outside the aliased part have gone their way. -/
def State.scatterHere (s : State) (here : List (Nat × List Byte)) : State :=
  if here.isEmpty then s
  else Spec.sentFrom s (Spec.counting s.cur (4 * here.length)) [(2, .spw (here.map fun x => placed x.1 x.2).flatten)] []

/-- A scatter within its ranges and budgets: its local lanes go first, and then those in the aliased part one by one (R183). -/
theorem scatter_of_allowed {f : FmtC0R} {s : State} {u : Bool} {a : Nat → Nat} (hg : s.guard f.gn f.g = true)
    (hea : ∀ l < 64, s.eaLane f.bq (s.rv u 0 f.a) l = a l)
    (hok : ∀ l < 64, Spec.readable (a l) 4 ∨ Spec.aliased (a l) 4) (hal : ∀ l < 64, a l % 4 = 0)
    {here out : List (Nat × List Byte)}
    (hhere : here = (laneWords a (s.rv u 2 f.d)).filter fun x => decide (x.1 < 0x400000))
    (hout : out = (laneWords a (s.rv u 2 f.d)).filter fun x => decide (0x400000 ≤ x.1))
    (hroom : Spec.room s.cur (4 * here.length)) (hbudget : out = [] ∨ s.cur.cur = true ∨ s.cur.outPos + out.length ≤ 256)
    (op : Nat) :
    scatter op u f s = .next (out.foldl (fun s x => s.mcastStore op x.1 x.2) (s.scatterHere here)) := by
  have hwords : ((List.range 64).map fun l => (((List.range 64).map a).getD l 0, bytesOfNat 4 (lane (s.rv u 2 f.d) l).toNat)) =
      laneWords a (s.rv u 2 f.d) := map_range_congr fun l hl => by rw [getD_map_range a 0 hl]
  have hrow : ∀ x ∈ laneWords a (s.rv u 2 f.d), (spRow x.1 = 2 ↔ 0x400000 ≤ x.1) := by
    intro x hx
    obtain ⟨l, hl, rfl⟩ := List.mem_map.1 hx
    have h := hok l (List.mem_range.1 hl)
    simp only [Spec.readable, Spec.aliased] at h
    rw [spRow_eq_two_iff]
    omega
  have hout' : (laneWords a (s.rv u 2 f.d)).filter (fun x => spRow x.1 == 2) = out :=
    hout ▸ List.filter_congr fun x hx => by rw [Bool.eq_iff_iff, beq_iff_eq, decide_eq_true_eq, hrow x hx]
  have hhere' : (laneWords a (s.rv u 2 f.d)).filter (fun x => spRow x.1 != 2) = here :=
    hhere ▸ List.filter_congr fun x hx => by rw [Bool.eq_iff_iff, bne_iff_ne, decide_eq_true_eq, Ne, hrow x hx, Nat.not_le]
  have hover : (!s.cur.cur && !out.isEmpty && decide (256 < s.cur.outPos + out.length)) = false := by
    rcases hbudget with h | h | h
    · rw [h, List.isEmpty_nil, Bool.not_true, Bool.and_false, Bool.false_and]
    · rw [h]; rfl
    · rw [decide_eq_false (by omega), Bool.and_false]
  simp only [scatter, hg, laneAddrs_of_allowed hea (fun l hl => (writeOk_iff _ (by decide)).2 (hok l hl)) hal, hwords, hout',
    hhere', undoOver_of_room hroom, hover, upd_countUndo_send]
  rfl

/-! ### Rings (R163, R184) -/

theorem ringPush_of_allowed {f : FmtC0Q} {s : State} {r : Ring} {a : Nat} (hg : s.guard f.gn f.g = true)
    (hr : s.ringTail f.q = r) (ha : r.slotAt r.tail + f.off.toNat * 256 = a) (hok : r.ok = true) (hfull : r.full = false)
    (hslot : f.off.toNat * 256 + 256 ≤ r.slotsz) (hread : Spec.readable a 256) (hroom : Spec.room s.cur 256) (u : Bool) :
    ringPush u f s = .next (Spec.sentFrom s (Spec.counting s.cur 256)
      ((2, .spw (placed a (Spec.laneBytes (s.rv u 2 f.d)))) ::
        if f.adv then [(1, .qtail f.q.toNat (BitVec.ofNat 8 (r.next r.tail r.twrap).1) (r.next r.tail r.twrap).2)]
        else []) []) := by
  simp only [ringPush, hg, hr, ha, hok, hfull, (writeOk_iff _ (show 0 < 256 by decide)).2 (.inl hread),
    decide_eq_false (Nat.not_lt.2 hslot), undoOver_of_room hroom, sentFrom_eq_foldl_send, ← countUndo_eq_counting,
    ← regBytes_eq_laneBytes]
  cases f.adv <;> rfl

theorem ringPop_of_allowed {f : FmtC0Q} {s : State} {r : Ring} {a : Nat} (hg : s.guard f.gn f.g = true)
    (hr : s.ringHead f.q = r) (ha : r.slotAt r.head + f.off.toNat * 256 = a) (hok : r.ok = true) (hempty : r.empty = false)
    (hslot : f.off.toNat * 256 + 256 ≤ r.slotsz) (hread : Spec.readable a 256) (u : Bool) :
    ringPop u f s = .next (Spec.sent s
      ((6, .vload u f.d (BitVec.allOnes 64) (regOfBytes (s.cur.sp.bytes a 256))) ::
        if f.adv then [(1, .qhead f.q.toNat (BitVec.ofNat 8 (r.next r.head r.hwrap).1) (r.next r.head r.hwrap).2)]
        else []) []) := by
  simp only [ringPop, hg, hr, ha, hok, hempty, (readOk_iff _ (show 0 < 256 by decide)).2 hread,
    decide_eq_false (Nat.not_lt.2 hslot), Spec.sent, sentFrom_eq_foldl_send]
  cases f.adv <;> rfl

/-! ### The obligations -/

theorem scalarLoadsSampleAtIssue : Spec.ScalarLoadsSampleAtIssue := by
  intro x hx s a hr hal
  obtain ⟨hn, himm, hreg⟩ := exec_loads hx s
  exact ⟨fun f hg hea => (himm f).trans (loadS_of_allowed hg hea hn hr hal f.d _),
    fun f hg hea => (hreg f).trans (loadS_of_allowed hg hea hn hr hal f.d _)⟩

theorem scalarStoresSendTheirBytes : Spec.ScalarStoresSendTheirBytes := by
  intro x hx s a hr hal hroom
  obtain ⟨hn, op, hop⟩ := exec_stores hx
  obtain ⟨himm, hreg⟩ := hop s
  have hal' : (a : Int) % x.2.2 = 0 := by exact_mod_cast hal
  exact ⟨fun f hg hea => storeAt_of_readable (hea ▸ himm f hg) (length_bytesOfNat _ _) hn hr hal' hroom,
    fun f hg hea => storeAt_of_readable (hea ▸ hreg f hg) (length_bytesOfNat _ _) hn hr hal' hroom⟩

theorem vectorLoadsAndStores : Spec.VectorLoadsAndStores := by
  refine fun s a hr hal => ⟨fun x hx => ?_, fun x hx hroom => ?_⟩
  · obtain ⟨himm, hreg⟩ := exec_vectorLoads hx s
    exact ⟨regOfBytes (s.cur.sp.bytes a 256), fun l hl => lane_regOfBytes _ a hl,
      fun f hg hea => (himm f).trans (loadV_of_allowed hg hea hr hal _ f.d),
      fun f hg hea => (hreg f).trans (loadV_of_allowed hg hea hr hal _ f.d)⟩
  · obtain ⟨op, hop⟩ := exec_vectorStores hx
    obtain ⟨himm, hreg⟩ := hop s
    have hal' : (a : Int) % 4 = 0 := by exact_mod_cast hal
    exact ⟨fun f hg hea => storeAt_of_readable (hea ▸ himm f hg) (length_laneBytes _) (by decide) hr hal' hroom,
      fun f hg hea => storeAt_of_readable (hea ▸ hreg f hg) (length_laneBytes _) (by decide) hr hal' hroom⟩

/-- Settles O18: each form is a load or a store at its effective address. -/
theorem loadsAndStoresComplete : Obligations.LoadsAndStoresComplete :=
  ⟨scalarLoadsSampleAtIssue, scalarStoresSendTheirBytes, vectorLoadsAndStores⟩

theorem gathersAndScatters : Spec.GathersAndScatters := by
  intro f s u a hg h
  have hea : ∀ l < 64, s.eaLane f.bq (s.rv u 0 f.a) l = a l := fun l hl => (h l hl).1
  have hr : ∀ l < 64, Spec.readable (a l) 4 := fun l hl => (h l hl).2.1
  have hal : ∀ l < 64, a l % 4 = 0 := fun l hl => (h l hl).2.2
  refine ⟨?_, fun hroom => ?_⟩
  · obtain ⟨v, hv, hexec⟩ := gather_of_allowed hg hea hr hal
    exact ⟨v, hv, by cases u <;> exact hexec⟩
  · have hlow : ∀ x ∈ laneWords a (s.rv u 2 f.d), x.1 < 0x400000 := by
      intro x hx
      obtain ⟨l, hl, rfl⟩ := List.mem_map.1 hx
      have := hr l (List.mem_range.1 hl)
      rw [Spec.readable] at this
      show a l < 0x400000
      omega
    have hhere : laneWords a (s.rv u 2 f.d) = (laneWords a (s.rv u 2 f.d)).filter fun x => decide (x.1 < 0x400000) :=
      (List.filter_eq_self.2 fun x hx => decide_eq_true (hlow x hx)).symm
    have hout : [] = (laneWords a (s.rv u 2 f.d)).filter fun x => decide (0x400000 ≤ x.1) :=
      (List.filter_eq_nil_iff.2 fun x hx => by rw [decide_eq_true_eq, Nat.not_le]; exact hlow x hx).symm
    have hexec (op : Nat) := scatter_of_allowed hg hea (fun l hl => .inl (hr l hl)) hal hhere hout
      (by simpa [laneWords] using hroom) (.inl rfl) op
    have hsent : s.scatterHere (laneWords a (s.rv u 2 f.d)) = Spec.sentFrom s (Spec.counting s.cur 256)
        [(2, .spw ((List.range 64).map fun l => placed (a l) (bytesOfNat 4 (lane (s.rv u 2 f.d) l).toNat)).flatten)] [] := by
      rw [State.scatterHere, laneWords, List.map_map]
      rfl
    rw [← hsent]
    cases u <;> exact hexec _

theorem localAtomicsIssue : Spec.LocalAtomicsIssue := by
  intro x hx s a hr hal hroom
  obtain ⟨himm, hreg⟩ := exec_atomics hx s
  exact ⟨fun f hg hea => (himm f).trans (spAtomic_of_allowed hg hea hr hal hroom _ f.d),
    fun f hg hea => (hreg f).trans (spAtomic_of_allowed hg hea hr hal hroom _ f.d)⟩

/-- Settles O19: the lanes' addresses are all allowed, and no lane of the scatter lies in the aliased part. -/
theorem gathersScattersAndLocalAtomicsComplete : Obligations.GathersScattersAndLocalAtomicsComplete :=
  ⟨gathersAndScatters, localAtomicsIssue⟩

/-- Settles O20: the slot's address is allowed, so the ring's bytes and its pointer are sent together. -/
theorem ringPushAndPop : Obligations.RingPushAndPop := by
  refine fun f s u hg => ⟨fun hok hfull hslot hread hroom => ?_, fun hok hempty hslot hread => ?_⟩
  · have hexec := ringPush_of_allowed hg rfl rfl hok hfull hslot hread hroom u
    cases u <;> exact hexec
  · refine ⟨_, fun l hl => lane_regOfBytes _ _ hl, ?_⟩
    have hexec := ringPop_of_allowed hg rfl rfl hok hempty hslot hread u
    cases u <;> exact hexec

end Sys2Proof.Machine
end

section

/-!
## Accesses that trap (R178, R179, R183, R184, R186, R208; O21)

What each shared operation raises, in the order of its checks, when the executing bank is bank 0.
-/
namespace Sys2Proof.Machine

/-! ### One address -/

section
variable {s : State} {gn : Bool} {g : BitVec 4} {ea : State → Int} {a : Int}

theorem loadS_traps (hbank : s.cur.cur = false) (hg : s.guard gn g = true) (hea : ea s = a) {n : Nat} (hn : 0 < n)
    (d : BitVec 6) (ext : Nat → W) :
    (¬ Spec.readable a n → loadS gn g d n ext ea s = .next (Spec.trapped s cSpRange)) ∧
    (Spec.readable a n → a % n ≠ 0 → loadS gn g d n ext ea s = .next (Spec.trapped s cAlign)) := by
  rw [loadS, hg, hea, ← readOk_iff a hn, ← trap_eq_trapped hbank, ← trap_eq_trapped hbank]
  refine ⟨fun hr => ?_, fun hr hal => ?_⟩
  · rw [eaCause_of_forbidden hr]; rfl
  · rw [eaCause_of_misaligned hr hal]; rfl

theorem loadV_traps (hbank : s.cur.cur = false) (hg : s.guard gn g = true) (hea : ea s = a) (u : Bool) (d : BitVec 6) :
    (¬ Spec.readable a 256 → loadV gn g u d ea s = .next (Spec.trapped s cSpRange)) ∧
    (Spec.readable a 256 → a % 4 ≠ 0 → loadV gn g u d ea s = .next (Spec.trapped s cAlign)) := by
  rw [loadV, hg, hea, ← readOk_iff a (by decide), ← trap_eq_trapped hbank, ← trap_eq_trapped hbank]
  refine ⟨fun hr => ?_, fun hr hal => ?_⟩
  · rw [eaCause_of_forbidden hr]; rfl
  · rw [eaCause_of_misaligned hr hal]; rfl

theorem spAtomic_traps (hbank : s.cur.cur = false) (hg : s.guard gn g = true) (hea : ea s = a) (op : Nat) (d : BitVec 6) :
    ((¬ Spec.readable a 4 → spAtomic gn g op d ea s = .next (Spec.trapped s cSpRange)) ∧
      (Spec.readable a 4 → a % 4 ≠ 0 → spAtomic gn g op d ea s = .next (Spec.trapped s cAlign))) ∧
    (Spec.readable a 4 → a % 4 = 0 → 65536 < s.cur.undoCount + 4 →
      spAtomic gn g op d ea s = .next (Spec.trapped s cCkpBudget)) := by
  rw [spAtomic, hg, hea, ← readOk_iff a (by decide), ← trap_eq_trapped hbank, ← trap_eq_trapped hbank,
    ← trap_eq_trapped hbank]
  refine ⟨⟨fun hr => ?_, fun hr hal => ?_⟩, fun hr hal hbeyond => ?_⟩
  · rw [eaCause_of_forbidden hr]; rfl
  · rw [eaCause_of_misaligned hr hal]; rfl
  · rw [eaCause_of_allowed hr hal, undoOver_of_beyond hbank hbeyond]; rfl

/-- A store raises SP_RANGE, then ALIGN, then, where it stays in the core, CKP_BUDGET. -/
theorem storeAt_traps (hbank : s.cur.cur = false) {o : Out} {op n : Nat} {align : Int} {bs : List Byte}
    (ho : o = .next (s.storeAt op a align bs)) (hbs : bs.length = n) (hn : 0 < n) :
    (¬ Spec.readable a n → ¬ Spec.aliased a n → o = .next (Spec.trapped s cSpRange)) ∧
    (Spec.readable a n ∨ Spec.aliased a n → a % align ≠ 0 → o = .next (Spec.trapped s cAlign)) ∧
    (Spec.readable a n → a % align = 0 → 65536 < s.cur.undoCount + n → o = .next (Spec.trapped s cCkpBudget)) := by
  rw [ho, State.storeAt, hbs]
  simp only [← trap_eq_trapped hbank]
  refine ⟨fun hr ha => ?_, fun hra hal => ?_, fun hr hal hbeyond => ?_⟩
  · rw [eaCause_of_forbidden fun h => ((writeOk_iff a hn).1 h).elim hr ha]
  · rw [eaCause_of_misaligned ((writeOk_iff a hn).2 hra) hal]
  · rw [eaCause_of_allowed ((writeOk_iff a hn).2 (.inl hr)) hal]
    refine congrArg _ ((if_neg (spRow_ne_two_of_readable hn (toNat_of_readable hr ▸ hr))).trans ?_)
    rw [State.localStore, hbs, undoOver_of_beyond hbank hbeyond, if_pos rfl]

end

/-! ### The lanes of gathers and scatters (R183) -/

section
variable {ok : Int → Nat → Bool} {ea : Nat → Int}

theorem laneAddrs_of_forbidden (h : ∃ l < 64, ok (ea l) 4 ≠ true) :
    laneAddrs ok ((List.range 64).map ea) = .error cSpRange := by
  obtain ⟨l, hl, hok⟩ := h
  refine if_pos (List.any_eq_true.2 ⟨ea l, List.mem_map.2 ⟨l, List.mem_range.2 hl, rfl⟩, ?_⟩)
  rw [Bool.eq_false_iff.2 hok]
  rfl

theorem laneAddrs_of_misaligned (hok : ∀ l < 64, ok (ea l) 4 = true) (h : ∃ l < 64, ea l % 4 ≠ 0) :
    laneAddrs ok ((List.range 64).map ea) = .error cAlign := by
  obtain ⟨l, hl, hal⟩ := h
  rw [laneAddrs, if_neg, if_pos]
  · exact List.any_eq_true.2 ⟨ea l, List.mem_map.2 ⟨l, List.mem_range.2 hl, rfl⟩, decide_eq_true hal⟩
  · simp only [List.any_map, List.any_eq_true, List.mem_range, not_exists, not_and, Function.comp_apply, Bool.not_eq_true',
      Bool.not_eq_false]
    exact hok

end

section
variable {f : FmtC0R} {s : State} {u : Bool}

theorem gather_of_error (hg : s.guard f.gn f.g = true) {code : Nat}
    (h : laneAddrs readOk ((List.range 64).map (s.eaLane f.bq (s.rv u 0 f.a))) = .error code) :
    gather u f s = .next (s.trap code) := by
  simp only [gather, hg, h]
  rfl

theorem scatter_of_error (hg : s.guard f.gn f.g = true) {code : Nat}
    (h : laneAddrs writeOk ((List.range 64).map (s.eaLane f.bq (s.rv u 0 f.a))) = .error code) (op : Nat) :
    scatter op u f s = .next (s.trap code) := by
  simp only [scatter, hg, h]
  rfl

/-- A scatter with no lane in the aliased part stores 256 bytes. -/
theorem scatter_of_beyond (hbank : s.cur.cur = false) (hg : s.guard f.gn f.g = true)
    (h : ∀ l < 64, Spec.readable (s.eaLane f.bq (s.rv u 0 f.a) l) 4 ∧ s.eaLane f.bq (s.rv u 0 f.a) l % 4 = 0)
    (hbeyond : 65536 < s.cur.undoCount + 256) (op : Nat) : scatter op u f s = .next (s.trap cCkpBudget) := by
  let a (l : Nat) : Nat := (s.eaLane f.bq (s.rv u 0 f.a) l).toNat
  have hea : ∀ l < 64, s.eaLane f.bq (s.rv u 0 f.a) l = a l := fun l hl => (toNat_of_readable (h l hl).1).symm
  have haddrs := laneAddrs_of_allowed (ok := writeOk) hea
    (fun l hl => (writeOk_iff _ (by decide)).2 (.inl (hea l hl ▸ (h l hl).1))) fun l hl => by exact_mod_cast hea l hl ▸ (h l hl).2
  have hlocal : ∀ x ∈ (List.range 64).map (fun l => (((List.range 64).map a).getD l 0,
      bytesOfNat 4 (lane (s.rv u 2 f.d) l).toNat)), (spRow x.1 != 2) = true := by
    intro x hx
    obtain ⟨l, hl, rfl⟩ := List.mem_map.1 hx
    have hl' := List.mem_range.1 hl
    rw [getD_map_range a 0 hl', bne_iff_ne]
    exact spRow_ne_two_of_readable (by decide) (hea l hl' ▸ (h l hl').1)
  simp only [scatter, hg, haddrs, List.filter_eq_self.2 hlocal, List.length_map, List.length_range,
    undoOver_of_beyond hbank hbeyond]
  rfl

end

/-! ### Rings (R184) -/

/-- The bytes that a push or pop at an offset touches in slot n of a ring lie in the slot and in one row that is read. -/
def ringFits (r : Ring) (n off : Nat) : Prop := off + 256 ≤ r.slotsz ∧ Spec.readable (r.slotAt n + off : Nat) 256

/-- A slot of a good ring ends below the aliased part. -/
theorem slotAt_le_of_ok {r : Ring} (hok : r.ok = true) {n off : Nat} (hn : n < r.nslot) (hoff : off + 256 ≤ r.slotsz) :
    r.slotAt n + off + 256 ≤ 0x400000 := by
  have hend : r.base + r.nslot * r.slotsz ≤ 0x400000 := by
    simp only [Ring.ok, Bool.and_eq_true, decide_eq_true_eq] at hok
    exact hok.2
  have hslot : (n + 1) * r.slotsz ≤ r.nslot * r.slotsz := Nat.mul_le_mul_right _ hn
  rw [Nat.succ_mul] at hslot
  rw [Ring.slotAt]
  omega

theorem tail_lt_of_ok {r : Ring} (hok : r.ok = true) : r.tail < r.nslot := by
  simp only [Ring.ok, Bool.and_eq_true, decide_eq_true_eq] at hok
  exact hok.1.2

section
variable {f : FmtC0Q} {s : State} (hbank : s.cur.cur = false) (hg : s.guard f.gn f.g = true) (u : Bool) {r : Ring}
include hbank hg

theorem ringPush_traps (hr : s.ringTail f.q = r) :
    (r.ok = false → ringPush u f s = .next (Spec.trapped s cRingDesc)) ∧
    (r.ok = true → r.full = true → ringPush u f s = .next (Spec.trapped s cRingFull)) ∧
    (r.ok = true → r.full = false → ¬ ringFits r r.tail (f.off.toNat * 256) →
      ringPush u f s = .next (Spec.trapped s cSpRange)) ∧
    (r.ok = true → r.full = false → ringFits r r.tail (f.off.toNat * 256) → 65536 < s.cur.undoCount + 256 →
      ringPush u f s = .next (Spec.trapped s cCkpBudget)) := by
  simp only [← trap_eq_trapped hbank]
  refine ⟨fun hok => ?_, fun hok hfull => ?_, fun hok hfull hfits => ?_, fun hok hfull hfits hbeyond => ?_⟩
  · simp only [ringPush, hg, hr, hok]; rfl
  · simp only [ringPush, hg, hr, hok, hfull]; rfl
  · have hcheck : (decide (r.slotsz < f.off.toNat * 256 + 256) ||
        !writeOk ((r.slotAt r.tail + f.off.toNat * 256 : Nat) : Int) 256) = true := by
      by_cases hslot : f.off.toNat * 256 + 256 ≤ r.slotsz
      · have hend := slotAt_le_of_ok hok (tail_lt_of_ok hok) hslot
        have hforbidden : ¬ writeOk ((r.slotAt r.tail + f.off.toNat * 256 : Nat) : Int) 256 = true := by
          rw [writeOk_iff _ (by decide)]
          rintro (h | h)
          · exact hfits ⟨hslot, h⟩
          · rw [Spec.aliased] at h
            omega
        rw [Bool.eq_false_iff.2 hforbidden, Bool.not_false, Bool.or_true]
      · rw [decide_eq_true (Nat.not_le.1 hslot), Bool.true_or]
    simp only [ringPush, hg, hr, hok, hfull, hcheck]; rfl
  · simp only [ringPush, hg, hr, hok, hfull, (writeOk_iff _ (show 0 < 256 by decide)).2 (.inl hfits.2),
      decide_eq_false (Nat.not_lt.2 hfits.1), undoOver_of_beyond hbank hbeyond]
    rfl

theorem ringPop_traps (hr : s.ringHead f.q = r) :
    (r.ok = false → ringPop u f s = .next (Spec.trapped s cRingDesc)) ∧
    (r.ok = true → r.empty = true → ringPop u f s = .next (Spec.trapped s cRingEmpty)) ∧
    (r.ok = true → r.empty = false → ¬ ringFits r r.head (f.off.toNat * 256) →
      ringPop u f s = .next (Spec.trapped s cSpRange)) := by
  simp only [← trap_eq_trapped hbank]
  refine ⟨fun hok => ?_, fun hok hempty => ?_, fun hok hempty hfits => ?_⟩
  · simp only [ringPop, hg, hr, hok]; rfl
  · simp only [ringPop, hg, hr, hok, hempty]; rfl
  · have hcheck : (decide (r.slotsz < f.off.toNat * 256 + 256) ||
        !readOk ((r.slotAt r.head + f.off.toNat * 256 : Nat) : Int) 256) = true := by
      rw [Bool.or_eq_true, decide_eq_true_eq, Bool.not_eq_true', Bool.eq_false_iff, Ne, readOk_iff _ (by decide),
        ← Nat.not_le]
      exact not_and_or.1 hfits
    simp only [ringPop, hg, hr, hok, hempty, hcheck]; rfl

end

/-! ### The obligation -/

theorem gathersAndScattersTrap {s : State} (hbank : s.cur.cur = false) {f : FmtC0R} (u : Bool) (hg : s.guard f.gn f.g = true) :
    let ea := s.eaLane f.bq (s.rv u 0 f.a)
    let allowed (l : Nat) : Prop := Spec.readable (ea l) 4 ∨ Spec.aliased (ea l) 4
    ((∃ l < 64, ¬ Spec.readable (ea l) 4) → gather u f s = .next (Spec.trapped s cSpRange)) ∧
    ((∀ l < 64, Spec.readable (ea l) 4) → (∃ l < 64, ea l % 4 ≠ 0) → gather u f s = .next (Spec.trapped s cAlign)) ∧
    (∀ op, (∃ l < 64, ¬ allowed l) → scatter op u f s = .next (Spec.trapped s cSpRange)) ∧
    (∀ op, (∀ l < 64, allowed l) → (∃ l < 64, ea l % 4 ≠ 0) → scatter op u f s = .next (Spec.trapped s cAlign)) ∧
    ∀ op, (∀ l < 64, Spec.readable (ea l) 4 ∧ ea l % 4 = 0) → 65536 < s.cur.undoCount + 256 →
      scatter op u f s = .next (Spec.trapped s cCkpBudget) := by
  intro ea allowed
  simp only [allowed, ← writeOk_iff _ (show 0 < 4 by decide), ← trap_eq_trapped hbank]
  simp only [← readOk_iff _ (show 0 < 4 by decide)]
  exact ⟨fun h => gather_of_error hg (laneAddrs_of_forbidden h),
    fun hok h => gather_of_error hg (laneAddrs_of_misaligned hok h),
    fun op h => scatter_of_error hg (laneAddrs_of_forbidden h) op,
    fun op hok h => scatter_of_error hg (laneAddrs_of_misaligned hok h) op,
    fun op h hbeyond => scatter_of_beyond hbank hg
      (fun l hl => ⟨(readOk_iff _ (by decide)).1 (h l hl).1, (h l hl).2⟩) hbeyond op⟩

/-- Settles O21: the checks of each shared operation in their order. -/
theorem accessesOutsideTheirRangeTrap : Obligations.AccessesOutsideTheirRangeTrap := by
  intro s a hbank
  refine ⟨fun x hx => ?_, fun x hx => ?_, fun x hx => ?_, fun x hx => ?_, fun x hx => ?_, fun f u hg => ?_, fun f u hg => ?_⟩
  · obtain ⟨hn, himm, hreg⟩ := exec_loads hx s
    exact ⟨fun f ⟨hg, hea⟩ => by rw [himm f]; exact loadS_traps hbank hg hea hn f.d _,
      fun f ⟨hg, hea⟩ => by rw [hreg f]; exact loadS_traps hbank hg hea hn f.d _⟩
  · obtain ⟨himm, hreg⟩ := exec_vectorLoads hx s
    exact ⟨fun f ⟨hg, hea⟩ => by rw [himm f]; exact loadV_traps hbank hg hea _ f.d,
      fun f ⟨hg, hea⟩ => by rw [hreg f]; exact loadV_traps hbank hg hea _ f.d⟩
  · obtain ⟨hn, op, hop⟩ := exec_stores hx
    obtain ⟨himm, hreg⟩ := hop s
    exact ⟨fun f ⟨hg, hea⟩ => storeAt_traps hbank (hea ▸ himm f hg) (length_bytesOfNat _ _) hn,
      fun f ⟨hg, hea⟩ => storeAt_traps hbank (hea ▸ hreg f hg) (length_bytesOfNat _ _) hn⟩
  · obtain ⟨op, hop⟩ := exec_vectorStores hx
    obtain ⟨himm, hreg⟩ := hop s
    exact ⟨fun f ⟨hg, hea⟩ => storeAt_traps hbank (hea ▸ himm f hg) (length_laneBytes _) (by decide),
      fun f ⟨hg, hea⟩ => storeAt_traps hbank (hea ▸ hreg f hg) (length_laneBytes _) (by decide)⟩
  · obtain ⟨himm, hreg⟩ := exec_atomics hx s
    exact ⟨fun f ⟨hg, hea⟩ => by rw [himm f]; exact spAtomic_traps hbank hg hea _ f.d,
      fun f ⟨hg, hea⟩ => by rw [hreg f]; exact spAtomic_traps hbank hg hea _ f.d⟩
  · obtain ⟨hloadRange, hloadAlign, hrange, halign, hbudget⟩ := gathersAndScattersTrap hbank u hg
    cases u <;> exact ⟨hloadRange, hloadAlign, hrange _, halign _, hbudget _⟩
  · obtain ⟨hdesc, hfull, hrange, hbudget⟩ := ringPush_traps hbank hg u rfl
    have hpop := ringPop_traps hbank hg u rfl
    cases u <;> exact ⟨hdesc, hfull, hrange, hbudget, hpop⟩

end Sys2Proof.Machine
end

section

/-!
## Stores to the aliased part (R183, R187, R211; O22)

A multicast store is logged and sent, and nothing else of its core changes. `leavesAlias` says so of any number of them; it
composes, so a scatter's lanes are an induction over one store.
-/
namespace Sys2Proof.Machine

/-- The outbound log has room for n more operations, all of them new (R208, R211). -/
def Core.logsRoom (c : Core) (n : Nat) : Prop := c.cur = true ∨ (c.outPos = c.outLog.length ∧ c.outPos + n ≤ 256)

/-- A multicast store of the executing core on its way (R187). -/
def State.onItsWay (s : State) (x : Nat × List Byte) : Pend :=
  ⟨9, s.cur.cur, s.cur.cur, .mcast (s.col (colOf s.ictx.core)).mcmask (placed (x.1 - 0x10000) x.2)⟩

/-- What issues after the second state does so under the same bank, layers and rerun as after the first. -/
def sameIssue (s t : State) : Prop :=
  t.ictx = s.ictx ∧ t.columns = s.columns ∧ t.cur.cur = s.cur.cur ∧ t.cur.rerun = s.cur.rerun

/-- The second state is the first after entries of a list and then the stores of another have left the executing core, the
stores logged where bank 0 issues them. -/
def leavesAlias (s t : State) (here : List Pend) (out : List (Nat × List Byte)) : Prop :=
  (∀ j, j ≠ s.ictx.core → t.core j = s.core j) ∧
  t.cur.pend = s.cur.pend ++ here ++ out.map s.onItsWay ∧ t.cur.sp = s.cur.sp ∧
    (s.cur.cur = true → t.cur.outLog = s.cur.outLog ∧ t.cur.outPos = s.cur.outPos ∧ t.cur.undoCount = s.cur.undoCount) ∧
    (s.cur.cur = false → t.cur.outPos = s.cur.outPos + out.length ∧
      ∃ es : List OutEntry, t.cur.outLog = s.cur.outLog ++ es ∧
        es.map (fun e => (e.len, e.digest)) = out.map fun x => (x.2.length, digest x.2))

section
variable {s t u : State}

theorem sameIssue_refl (s : State) : sameIssue s s := ⟨rfl, rfl, rfl, rfl⟩

theorem onItsWay_of_sameIssue (h : sameIssue s t) : t.onItsWay = s.onItsWay := by
  obtain ⟨hictx, hcols, hcur, -⟩ := h
  funext x
  rw [State.onItsWay, State.onItsWay, State.col, State.col, hictx, hcols, hcur]

theorem leavesAlias_refl (s : State) : leavesAlias s s [] [] :=
  ⟨fun _ _ => rfl, by simp, rfl, fun _ => ⟨rfl, rfl, rfl⟩, fun _ => ⟨rfl, [], by simp, rfl⟩⟩

theorem leavesAlias_append (hst : sameIssue s t) {here : List Pend} {out out' : List (Nat × List Byte)}
    (h : leavesAlias s t here out) (h' : leavesAlias t u [] out') : leavesAlias s u here (out ++ out') := by
  have hway := onItsWay_of_sameIssue hst
  obtain ⟨hictx, -, hcur, -⟩ := hst
  obtain ⟨hother, hpend, hsp, hbank1, hbank0⟩ := h
  obtain ⟨hother', hpend', hsp', hbank1', hbank0'⟩ := h'
  refine ⟨fun j hj => (hother' j (hictx ▸ hj)).trans (hother j hj), ?_, hsp'.trans hsp, fun hb => ?_, fun hb => ?_⟩
  · rw [hpend', hpend, hway, List.append_nil, List.map_append, List.append_assoc]
  · obtain ⟨hlog, hpos, hundo⟩ := hbank1 hb
    obtain ⟨hlog', hpos', hundo'⟩ := hbank1' (hcur.trans hb)
    exact ⟨hlog'.trans hlog, hpos'.trans hpos, hundo'.trans hundo⟩
  · obtain ⟨hpos, es, hlog, hes⟩ := hbank0 hb
    obtain ⟨hpos', es', hlog', hes'⟩ := hbank0' (hcur.trans hb)
    refine ⟨by rw [hpos', hpos, List.length_append, Nat.add_assoc], es ++ es', by rw [hlog', hlog, List.append_assoc], ?_⟩
    rw [List.map_append, List.map_append, hes, hes']

theorem logsRoom_of_leavesAlias (hst : sameIssue s t) {here : List Pend} {out : List (Nat × List Byte)}
    (h : leavesAlias s t here out) {n : Nat} (hroom : s.cur.logsRoom (out.length + n)) : t.cur.logsRoom n := by
  obtain ⟨-, -, hcur, -⟩ := hst
  obtain ⟨-, -, -, -, hbank0⟩ := h
  cases hb : s.cur.cur with
  | true => exact .inl (hcur.trans hb)
  | false =>
    obtain ⟨hpos, es, hlog, hes⟩ := hbank0 hb
    obtain ⟨hnew, hmax⟩ := hroom.resolve_left (by simp [hb])
    have hlen := congrArg List.length hes
    rw [List.length_map, List.length_map] at hlen
    refine .inr ⟨?_, by omega⟩
    rw [hlog, hpos, hnew, List.length_append, hlen]

end

/-! ### One store -/

theorem logOut_of_bank1 {c : Core} (h : c.cur = true) (op dst len : Nat) (dg : BitVec 64) (result : W) :
    c.logOut op dst len dg result = c := if_pos h

theorem sign_of_noRerun {c : Core} (h : c.rerun = none) (ws : List (BitVec 64)) : c.sign ws = c := by rw [Core.sign, h]

/-- A new outbound operation of bank 0 outside a rerun adds its entry at the end of the log (R211). -/
theorem logOut_of_new {c : Core} (h : c.cur = false) (hrerun : c.rerun = none) (hnew : c.outPos = c.outLog.length)
    (op dst len : Nat) (dg : BitVec 64) (result : W) :
    c.logOut op dst len dg result =
      { c with outLog := c.outLog ++ [⟨op, dst, len, dg, result, none, none, none⟩], outPos := c.outPos + 1 } := by
  refine (if_neg (by rw [h]; decide)).trans ?_
  simp only [sign_of_noRerun hrerun]
  rw [if_neg (by omega)]

/-- A multicast store whose log entry is new is logged and sent. -/
theorem mcastStore_of_room {s : State} (hroom : s.cur.logsRoom 1) (op a : Nat) (bs : List Byte) :
    s.mcastStore op a bs =
      (s.upd fun c => c.logOut (256 + op) ((s.col (colOf s.ictx.core)).mcmask.toNat * 2 ^ 24 + a) bs.length (digest bs) 0).upd
        fun c => c.send 9 (.mcast (s.col (colOf s.ictx.core)).mcmask (placed (a - 0x10000) bs)) := by
  have hdigest : (if bs.isEmpty then 0 else digest bs) = digest bs := by cases bs <;> rfl
  have hover : s.cur.outOver = false := by
    rcases hroom with h | ⟨-, h⟩
    · rw [Core.outOver, h]; rfl
    · rw [Core.outOver, decide_eq_false (by omega), Bool.and_false]
  have hnew : s.cur.cur = true ∨ s.cur.outLog[s.cur.outPos]? = none :=
    hroom.imp_right fun h => List.getElem?_eq_none (Nat.le_of_eq h.1.symm)
  simp only [State.mcastStore, State.outOp, hover, hdigest, outbound_send _ _ _ _ _ hnew]
  rfl

theorem mcastStore_leavesAlias {s : State} (hrerun : s.cur.rerun = none) (hroom : s.cur.logsRoom 1) (op a : Nat) (bs : List Byte) :
    sameIssue s (s.mcastStore op a bs) ∧ leavesAlias s (s.mcastStore op a bs) [] [(a, bs)] := by
  rw [mcastStore_of_room hroom]
  generalize hm : (s.col (colOf s.ictx.core)).mcmask = m
  have hother : ∀ f g : Core → Core, ∀ j, j ≠ s.ictx.core → ((s.upd f).upd g).core j = s.core j := fun f g j hj =>
    (core_upd_other (s.upd f) g hj).trans (core_upd_other s f hj)
  have hway : s.onItsWay (a, bs) = ⟨9, s.cur.cur, s.cur.cur, .mcast m (placed (a - 0x10000) bs)⟩ := by rw [State.onItsWay, hm]
  rw [sameIssue, leavesAlias]
  simp only [cur_upd, upd_ictx, upd_columns, List.map_cons, List.map_nil, hway, List.append_nil, true_and]
  cases hb : s.cur.cur with
  | true =>
    rw [logOut_of_bank1 hb]
    exact ⟨⟨hb, rfl⟩, hother _ _, by simp [hb], rfl, fun _ => ⟨rfl, rfl, rfl⟩, nofun⟩
  | false =>
    obtain ⟨hnew, -⟩ := hroom.resolve_left (by simp [hb])
    rw [logOut_of_new hb hrerun hnew]
    exact ⟨⟨hb, rfl⟩, hother _ _, by simp [hb], rfl, nofun, fun _ => ⟨rfl, _, rfl, rfl⟩⟩

/-- A store to the aliased part, whichever form made it. -/
theorem storeAt_leavesAlias {s : State} (hrerun : s.cur.rerun = none) (hroom : s.cur.logsRoom 1) {o : Out} {op a n : Nat}
    {align : Int} {bs : List Byte} (ho : o = .next (s.storeAt op a align bs)) (hbs : bs.length = n) (hn : 0 < n)
    (ha : Spec.aliased a n) (hal : (a : Int) % align = 0) : ∃ t, o = .next t ∧ leavesAlias s t [] [(a, bs)] := by
  subst hbs
  rw [ho, storeAt_of_aliased hn ha hal]
  exact ⟨_, rfl, (mcastStore_leavesAlias hrerun hroom op a bs).2⟩

/-! ### The stores of a scatter -/

theorem foldl_mcastStore_leavesAlias (op : Nat) (out : List (Nat × List Byte)) {s : State} (hrerun : s.cur.rerun = none)
    (hroom : s.cur.logsRoom out.length) : leavesAlias s (out.foldl (fun s x => s.mcastStore op x.1 x.2) s) [] out := by
  induction out generalizing s with
  | nil => exact leavesAlias_refl s
  | cons x out ih =>
    have hone : s.cur.logsRoom 1 := hroom.imp_right fun h => ⟨h.1, by have := h.2; rw [List.length_cons] at this; omega⟩
    obtain ⟨hsame, hleaves⟩ := mcastStore_leavesAlias hrerun hone op x.1 x.2
    have hrest : (s.mcastStore op x.1 x.2).cur.logsRoom out.length :=
      logsRoom_of_leavesAlias hsame hleaves (by rwa [List.length_singleton, Nat.add_comm])
    exact leavesAlias_append hsame hleaves (ih (hsame.2.2.2.trans hrerun) hrest)

/-- The entry by which a scatter's lanes outside the aliased part leave, where there are any. -/
def State.localEntry (s : State) (here : List (Nat × List Byte)) : List Pend :=
  if here.isEmpty then [] else [⟨2, s.cur.cur, s.cur.cur, .spw (here.map fun x => placed x.1 x.2).flatten⟩]

theorem scatterHere_leavesAlias (s : State) (here : List (Nat × List Byte)) :
    sameIssue s (s.scatterHere here) ∧ leavesAlias s (s.scatterHere here) (s.localEntry here) [] := by
  rw [State.scatterHere, State.localEntry]
  split
  · exact ⟨sameIssue_refl s, leavesAlias_refl s⟩
  · rw [sentFrom_eq_foldl_send]
    have hcur (c : Core) : (s.setCore s.ictx.core c).cur = c := core_setCore_self s _ c
    rw [sameIssue, leavesAlias, hcur]
    refine ⟨⟨rfl, rfl, rfl, rfl⟩, fun j hj => core_setCore_other s _ hj, ?_, rfl, fun hb => ?_, fun hb => ?_⟩
    · rw [List.map_nil, List.append_nil]
      rfl
    · exact ⟨rfl, rfl, if_pos hb⟩
    · exact ⟨rfl, [], (List.append_nil _).symm, rfl⟩

/-- Settles O22: a store to the aliased part is one multicast store, and a scatter's lanes there are as many. -/
theorem aliasStoresAreMulticast : Obligations.AliasStoresAreMulticast := by
  intro s hrerun
  refine ⟨fun a hroom => ⟨fun x hx ha hal => ?_, fun x hx ha hal => ?_⟩, fun f u a hg h hroom hlocal => ?_⟩
  · obtain ⟨hn, op, hop⟩ := exec_stores hx
    obtain ⟨himm, hreg⟩ := hop s
    have hal' : (a : Int) % x.2.2 = 0 := by exact_mod_cast hal
    exact ⟨fun f hg hea => storeAt_leavesAlias hrerun hroom (hea ▸ himm f hg) (length_bytesOfNat _ _) hn ha hal',
      fun f hg hea => storeAt_leavesAlias hrerun hroom (hea ▸ hreg f hg) (length_bytesOfNat _ _) hn ha hal'⟩
  · obtain ⟨op, hop⟩ := exec_vectorStores hx
    obtain ⟨himm, hreg⟩ := hop s
    have hal' : (a : Int) % 4 = 0 := by exact_mod_cast hal
    exact ⟨fun f hg hea => storeAt_leavesAlias hrerun hroom (hea ▸ himm f hg) (length_laneBytes _) (by decide) ha hal',
      fun f hg hea => storeAt_leavesAlias hrerun hroom (hea ▸ hreg f hg) (length_laneBytes _) (by decide) ha hal'⟩
  · have hexec := scatter_of_allowed hg (fun l hl => (h l hl).1) (fun l hl => (h l hl).2.1) (fun l hl => (h l hl).2.2)
      rfl rfl hlocal (.inr (hroom.imp_right And.right))
    obtain ⟨hsame, hleaves⟩ := scatterHere_leavesAlias s
      ((laneWords a (s.rv u 2 f.d)).filter fun x => decide (x.1 < 0x400000))
    have hrest := logsRoom_of_leavesAlias (n := ((laneWords a (s.rv u 2 f.d)).filter fun x => decide (0x400000 ≤ x.1)).length)
      hsame hleaves (by rw [List.length_nil, Nat.zero_add]; exact hroom)
    have hall (op : Nat) := leavesAlias_append hsame hleaves
      (foldl_mcastStore_leavesAlias op _ (hsame.2.2.2.trans hrerun) hrest)
    cases u <;> exact ⟨_, hexec _, hall _⟩

end Sys2Proof.Machine
end

section

/-!
## Late writes and late reads (R156, R178, R181, R186, R187, R204, R208, R209, R231; O13)

A C0 write puts its bytes into the scratchpad one by one and holds the old byte of each; an arrival voids what is held. For bytes
placed at consecutive addresses both are said at once, by address.
-/
namespace Sys2Proof.Machine

/-! ### Bytes placed in the scratchpad -/

theorem writeC0_cons (c : Core) (x : Nat × Byte) (w : List (Nat × Byte)) :
    c.writeC0 false (x :: w) = ({ c.holdByte x.1 with sp := c.sp.setByte x.1 x.2 } : Core).writeC0 false w := rfl

theorem writeC0_frame (c : Core) (w : List (Nat × Byte)) :
    c.writeC0 false w = { c with sp := (c.writeC0 false w).sp, undo := (c.writeC0 false w).undo } := by
  induction w generalizing c with
  | nil => rfl
  | cons x w ih => rw [writeC0_cons]; exact ih _

/-- The interval holds the old byte of every address written, unless it holds one already (R209). -/
theorem undo_writeC0_placed (c : Core) (a : Nat) (bs : List Byte) (j : Nat) :
    sget none (c.writeC0 false (placed a bs)).undo j =
      if a ≤ j ∧ j < a + bs.length then some ((sget none c.undo j).getD (c.sp.byte j)) else sget none c.undo j := by
  induction bs generalizing c a with
  | nil => rw [if_neg (by simp only [List.length_nil]; omega)]; rfl
  | cons b bs ih =>
    have hundo : sget none (c.holdByte a).undo j =
        if j = a then some ((sget none c.undo j).getD (c.sp.byte a)) else sget none c.undo j := by
      rw [Core.holdByte, sget_smod]
    rw [placed, writeC0_cons, ih, List.length_cons]
    simp only [hundo, byte_setByte]
    by_cases hj : j = a
    · subst hj
      rw [if_neg (by omega), if_pos rfl, if_pos (by omega)]
    · rw [if_neg hj, if_neg hj]
      exact if_congr (by omega) rfl rfl

theorem writeArrival_cons (c : Core) (x : Nat × Byte) (w : List (Nat × Byte)) :
    c.writeArrival (x :: w) =
      ({ c with sp := c.sp.setByte x.1 x.2, undo := sset none c.undo x.1 none } : Core).writeArrival w := rfl

theorem writeArrival_frame (c : Core) (w : List (Nat × Byte)) :
    c.writeArrival w = { c with sp := (c.writeArrival w).sp, undo := (c.writeArrival w).undo } := by
  induction w generalizing c with
  | nil => rfl
  | cons x w ih => rw [writeArrival_cons]; exact ih _

/-- An arrival voids what the interval held of its bytes (R204). -/
theorem undo_writeArrival_placed (c : Core) (a : Nat) (bs : List Byte) (j : Nat) :
    sget none (c.writeArrival (placed a bs)).undo j =
      if a ≤ j ∧ j < a + bs.length then none else sget none c.undo j := by
  induction bs generalizing c a with
  | nil => rw [if_neg (by simp only [List.length_nil]; omega)]; rfl
  | cons b bs ih =>
    rw [placed, writeArrival_cons, ih, List.length_cons]
    simp only [sget_sset]
    by_cases hj : j = a
    · rw [if_pos hj, ite_self, if_pos (by omega)]
    · rw [if_neg hj]
      exact if_congr (by omega) rfl rfl

theorem writePlain_frame (c : Core) (w : List (Nat × Byte)) : c.writePlain w = { c with sp := (c.writePlain w).sp } := by
  induction w generalizing c with
  | nil => rfl
  | cons x w ih => exact ih _

/-! ### C0 writes (R178, R181, R186, R208, R209) -/

theorem exec_c0WriteApplied_one {s : State} {k : Nat} {e : Pend} (hk : s.ev.k = k) (hpend : (s.core k).pend = [e])
    (hleft : e.left = 0) :
    exec .c0WriteApplied s = .next (s.setCore k { ((s.core k).applyC0 e).1 with pend := ((s.core k).applyC0 e).2 }) := by
  subst hk
  show execC0WriteApplied s = _
  simp only [execC0WriteApplied, hpend, List.foldl_cons, List.foldl_nil, hleft, if_true, List.nil_append]

theorem atomNew_eq (op : Nat) (old v : W) :
    atomNew op old v = if op = 0 then old + v else if op = 1 then (if old.toInt < v.toInt then v else old) else v := by
  simp only [atomNew, BitVec.slt, decide_eq_true_eq]

theorem placed_bytesOfNat (a n v : Nat) :
    placed a (bytesOfNat n v) = (List.range n).map fun i => (a + i, BitVec.ofNat 8 (v / 256 ^ i)) := by
  induction n generalizing a v with
  | zero => rfl
  | succ n ih =>
    rw [bytesOfNat, placed, ih, List.range_succ_eq_map, List.map_cons, List.map_map, Nat.pow_zero, Nat.div_one]
    refine congrArg _ (List.map_congr_left fun i _ => ?_)
    rw [Nat.div_div_eq_div_mul, ← Nat.pow_succ', Nat.add_assoc, Nat.add_comm 1]
    rfl

/-- The four bytes that an atomic stores are those of its new word (R5, R186). -/
theorem map_extract_eq_placed (a : Nat) (v : W) :
    ((List.range 4).map fun i => (a + i, v.extractLsb' (8 * i) 8)) = placed a (bytesOfNat 4 v.toNat) := by
  rw [placed_bytesOfNat]
  refine List.map_congr_left fun i _ => congrArg _ (congrArg (BitVec.ofNat 8) ?_)
  rw [Nat.shiftRight_eq_div_pow, Nat.pow_mul]

theorem applyC0_spw {c : Core} {e : Pend} {w : List (Nat × Byte)} (hkind : e.kind = .spw w) (howner : e.owner = false)
    (hrerun : c.rerun = none) : c.applyC0 e = (c.writeC0 false w, []) := by
  rw [Core.applyC0, hkind, howner]
  exact congrArg (·, []) (sign_of_noRerun (by rw [writeC0_frame]; exact hrerun) _)

theorem applyC0_atom {c : Core} {e : Pend} {op a : Nat} {d : BitVec 6} {v : W} (hkind : e.kind = .atom op a d v)
    (howner : e.owner = false) (hrerun : c.rerun = none) :
    c.applyC0 e = (c.writeC0 false (placed a (bytesOfNat 4 (atomNew op (BitVec.ofNat 32 (c.sp.nat a 4)) v).toNat)),
      [{ e with left := 4, kind := .reg d (BitVec.ofNat 32 (c.sp.nat a 4)) }]) := by
  rw [Core.applyC0, hkind, howner, ← map_extract_eq_placed]
  exact congrArg (·, _) (sign_of_noRerun (by rw [writeC0_frame]; exact hrerun) _)

theorem applyC0_status {c : Core} {e : Pend} {req : Nat} {w : List (Nat × Byte)} (hkind : e.kind = .status req w) :
    c.applyC0 e = (c.writePlain w, []) := by
  rw [Core.applyC0, hkind]

theorem c0WritesAreApplied : Spec.C0WritesAreApplied := by
  intro s k e hk hpend hleft howner hrerun
  have hexec := exec_c0WriteApplied_one hk hpend hleft
  have hother (c : Core) : ∀ j, j ≠ k → (s.setCore k c).core j = s.core j := fun j hj => core_setCore_other s c hj
  refine ⟨fun a bs hkind => ⟨_, hexec, hother _, ?_⟩, fun op a d v _ hkind => ⟨_, hexec, hother _, ?_⟩,
    fun req a bs hkind => ⟨_, hexec, hother _, ?_⟩⟩
  · rw [core_setCore_self, applyC0_spw hkind howner hrerun]
    refine ⟨rfl, by rw [writeC0_frame], fun j => ?_, fun j => undo_writeC0_placed _ a bs j⟩
    rw [sp_writeC0_placed, byte_setBytes]
  · rw [core_setCore_self, applyC0_atom hkind howner hrerun, ← atomNew_eq]
    generalize atomNew op _ v = new
    refine ⟨rfl, ?_, fun j hj => ?_⟩
    · rw [sp_writeC0_placed]
      refine (congrArg (BitVec.ofNat 32) (nat_setNat_self _ a 4 new.toNat)).trans ?_
      exact BitVec.eq_of_toNat_eq (by rw [BitVec.toNat_ofNat]; omega)
    · rw [sp_writeC0_placed, byte_setBytes_outside _ _ _ _ (by rwa [length_bytesOfNat])]
  · rw [core_setCore_self, applyC0_status hkind]
    refine ⟨by rw [writePlain_frame], fun j => ?_⟩
    rw [sp_writePlain_placed, byte_setBytes]

/-! ### VBCVT's late read (R156) -/

theorem flushReleases_of_noRelease {s : State} {k : Nat} {e : Pend} (hpend : (s.core k).pend = [e])
    (hkind : ∀ f r, e.kind ≠ .release f r) : s.flushReleases k = s := by
  obtain ⟨left, owner, bank, kind⟩ := e
  rw [State.flushReleases, hpend]
  cases kind with
  | release f r => exact absurd rfl (hkind f r)
  | _ => rfl

/-- What a late read of a code sees: its register whatever released it meanwhile (R64, R156). -/
def Bank.lateRead (b : Bank) (unit : Bool) (lit : W) (free : Nat → Nat → W) (rb : BitVec 6) : VReg :=
  ({ b with relV0 := 0, relV1 := 0 } : Bank).readV unit lit free rb

theorem lateRead_main (b : Bank) (unit : Bool) (lit : W) (free : Nat → Nat → W) {rb : BitVec 6} (h : rb.toNat < 48) :
    b.lateRead unit lit free rb = sget 0 (if unit then b.v1 else b.v0) rb.toNat := by
  rw [Bank.lateRead, Bank.readV, if_pos h, Bank.releasedV]
  cases unit <;> simp

/-- The core whose one entry was VBCVT's late read: the result is on its way with the value read. -/
theorem exec_vbcvtLateRead_one {s : State} {k : Nat} {e : Pend} (hk : s.ev.k = k) (hpend : (s.core k).pend = [e])
    (hleft : e.left = 0) {r : VRes} {rb : BitVec 6} {lit : W} (hkind : e.kind = .lateB r rb lit false) :
    ∃ free, exec .vbcvtLateRead s = .next (s.setCore k { s.core k with
      pend := [⟨3, e.owner, e.bank, .vres { r with b := ((s.core k).bankN e.bank).lateRead r.unit lit free rb }⟩] }) := by
  subst hk
  obtain ⟨left, owner, bank, kind⟩ := e
  obtain rfl : left = 0 := hleft
  obtain rfl : kind = .lateB r rb lit false := hkind
  refine ⟨fun n l => Config.unpredictable s.fresh (32768 + n) (64 * s.ev.k + l), ?_⟩
  show execVbcvtLateRead s = _
  simp only [execVbcvtLateRead, State.modCore, hpend, List.map_cons, List.map_nil]
  rw [flushReleases_of_noRelease (by rw [core_setCore_self]) (by simp)]
  rfl

/-! ### Multicast stores landing (R187, R204, R231) -/

/-- A multicast store put into the layers of its mask among the first n. -/
def State.land (s : State) (col : Nat) (ls : BitVec 4) (w : List (Nat × Byte)) (n : Nat) : State :=
  (List.range n).foldl (fun s l => if ls.getLsbD l then s.modCore (coreIn col l) fun c => c.writeArrival w else s) s

theorem coreIn_ne {col z l : Nat} (h : z ≠ l) : coreIn col z ≠ coreIn col l := by
  rw [coreIn, coreIn]
  omega

theorem coreIn_colOf_layerOf (k : Nat) : coreIn (colOf k) (layerOf k) = k := by
  rw [coreIn, colOf, layerOf]
  omega

theorem core_land_layer (s : State) (col : Nat) (ls : BitVec 4) (w : List (Nat × Byte)) (n z : Nat) :
    (s.land col ls w n).core (coreIn col z) =
      if z < n ∧ ls.getLsbD z = true then (s.core (coreIn col z)).writeArrival w else s.core (coreIn col z) := by
  induction n with
  | zero => exact (if_neg (by omega)).symm
  | succ n ih =>
    have hstep : s.land col ls w (n + 1) = if ls.getLsbD n then (s.land col ls w n).modCore (coreIn col n) fun c =>
        c.writeArrival w else s.land col ls w n := by
      rw [State.land, List.range_succ, List.foldl_append]; rfl
    rw [hstep]
    by_cases hz : z = n
    · subst hz
      split
      · next hb => rw [core_modCore_self, ih, if_neg (by omega), if_pos ⟨by omega, hb⟩]
      · next hb => rw [ih, if_neg (by omega), if_neg (by tauto)]
    · rw [if_congr (and_congr_left' (show z < n + 1 ↔ z < n by omega)) rfl rfl, ← ih]
      split
      · rw [core_modCore, if_neg (coreIn_ne hz)]
      · rfl

theorem core_land_other (s : State) (col : Nat) (ls : BitVec 4) (w : List (Nat × Byte)) {n j : Nat}
    (hj : ∀ z < n, j ≠ coreIn col z) : (s.land col ls w n).core j = s.core j := by
  induction n with
  | zero => rfl
  | succ n ih =>
    rw [State.land, List.range_succ, List.foldl_append, List.foldl_cons, List.foldl_nil]
    have ih := ih fun z hz => hj z (by omega)
    split
    · rw [core_modCore, if_neg (hj n (by omega))]
      exact ih
    · exact ih

theorem exec_multicastLand_one {s : State} {k : Nat} {e : Pend} (hk : s.ev.k = k) (hpend : (s.core k).pend = [e])
    (hleft : e.left = 0) {ls : BitVec 4} {w : List (Nat × Byte)} (hkind : e.kind = .mcast ls w) :
    exec .multicastLand s = .next ((s.setCore k { s.core k with pend := [] }).land (colOf k) ls w 4) := by
  subst hk
  obtain ⟨left, owner, bank, kind⟩ := e
  obtain rfl : left = 0 := hleft
  obtain rfl : kind = .mcast ls w := hkind
  show execMulticastLand s = _
  simp only [execMulticastLand, hpend]
  rfl

theorem lateReadsAndMulticastStores : Spec.LateReadsAndMulticastStores := by
  intro s k e hk hpend hleft
  refine ⟨fun r rb lit hkind => ?_, fun ls a bs hkind => ⟨_, exec_multicastLand_one hk hpend hleft hkind, ?_⟩⟩
  · obtain ⟨free, hexec⟩ := exec_vbcvtLateRead_one hk hpend hleft hkind
    refine ⟨_, _, hexec, fun j hj => core_setCore_other s _ hj, core_setCore_self s k _,
      fun h => lateRead_main _ _ lit free h, fun h l hl => ?_, fun h => ?_⟩
    · rw [Bank.lateRead, Bank.readV, h]
      exact lane_ofLanes _ hl
    · rw [Bank.lateRead, Bank.readV, h]
      rfl
  · have hkeeps (j : Nat) : ((s.setCore k { s.core k with pend := [] }).core j).sp = (s.core j).sp ∧
        ((s.setCore k { s.core k with pend := [] }).core j).undo = (s.core j).undo := by
      rw [core_setCore]
      split
      · next h => rw [h]; exact ⟨rfl, rfl⟩
      · exact ⟨rfl, rfl⟩
    refine ⟨fun z hz j => ?_, fun z hz j => ?_, ?_, fun j hj hjk => ?_⟩
    · rw [core_land_layer, ← (hkeeps _).1]
      by_cases hb : ls.getLsbD z = true
      · rw [if_pos ⟨hz, hb⟩, sp_writeArrival_placed, byte_setBytes]
        exact if_congr (and_iff_right hb).symm rfl rfl
      · rw [if_neg (hb ·.2), if_neg (hb ·.1)]
    · rw [core_land_layer, ← (hkeeps _).2]
      by_cases hb : ls.getLsbD z = true
      · rw [if_pos ⟨hz, hb⟩, undo_writeArrival_placed]
        exact if_congr (and_iff_right hb).symm rfl rfl
      · rw [if_neg (hb ·.2), if_neg (hb ·.1)]
    · have hlayer := core_land_layer (s.setCore k { s.core k with pend := [] }) (colOf k) ls (placed a bs) 4 (layerOf k)
      rw [coreIn_colOf_layerOf, core_setCore_self] at hlayer
      rw [hlayer]
      split
      · rw [writeArrival_frame]
      · rfl
    · rw [core_land_other _ _ _ _ hj, core_setCore_other _ _ hjk]

/-- Settles O13: the entry is alone, so each event is one edit of its core or of the cores of its column. -/
theorem lateWritesReachTheScratchpad : Obligations.LateWritesReachTheScratchpad :=
  ⟨c0WritesAreApplied, lateReadsAndMulticastStores⟩

end Sys2Proof.Machine
end

section

/-!
## Copies (R189 to R196; O23)

CPYGO edits its core several times and may schedule one event; `editsCur` says of such a run of edits what the executing core has
become. The events of a copy edit the head of the sequencer's queue.
-/
namespace Sys2Proof.Machine

/-! ### CPYLD (R191) -/

section
variable {s : State} {a : Nat}

theorem descAt_of_misaligned (h : a % 64 ≠ 0) : s.descAt a = .error cAlign := if_pos h

theorem descAt_of_beyond (hal : a % 64 = 0) (h : 0x400000 < a + 64) : s.descAt a = .error cSpRange :=
  (if_neg (not_not.2 hal)).trans (if_pos h)

theorem descAt_of_allowed (hal : a % 64 = 0) (h : a + 64 ≤ 0x400000) :
    s.descAt a = .ok (BitVec.ofNat 512 (s.cur.sp.nat a 64)) :=
  (if_neg (not_not.2 hal)).trans (if_neg (Nat.not_lt.2 h))

end

section
variable {s : State} {f : FmtGA} (hg : s.guard f.gn f.g = true) (hbank : s.cur.cur = false)
include hg hbank

theorem exec_cpyld_of_error {code : Nat} (h : s.descAt (s.rs 0 f.a).toNat = .error code) :
    exec (.cpyld f) s = .next (Spec.trapped s code) := by
  show execCpyld f s = _
  simp only [execCpyld, hg, hbank, h, trap_eq_trapped hbank]
  rfl

theorem exec_cpyld_of_legal {d : BitVec 512} (h : s.descAt (s.rs 0 f.a).toNat = .ok d)
    (hlegal : (CopyDesc.ofBits d).stageOk = true) : exec (.cpyld f) s = .next (Spec.sent s [(1, .stage d)] []) := by
  show execCpyld f s = _
  simp only [execCpyld, hg, hbank, h, hlegal, ← upd_send_eq_sent]
  rfl

theorem exec_cpyld_of_illegal {d : BitVec 512} (h : s.descAt (s.rs 0 f.a).toNat = .ok d)
    (hlegal : (CopyDesc.ofBits d).stageOk = false) : exec (.cpyld f) s = .next (Spec.trapped s cCopyDesc) := by
  show execCpyld f s = _
  simp only [execCpyld, hg, hbank, h, hlegal, trap_eq_trapped hbank]
  rfl

end

/-! ### Several edits of the executing core -/

/-- The second state differs from the first in the executing core only, which is now c. -/
def editsCur (s t : State) (c : Core) : Prop :=
  t = { s with cores := t.cores } ∧ ∀ j, t.core j = if j = s.ictx.core then c else s.core j

section
variable {s t u : State} {c : Core}

theorem editsCur_setCore (s : State) (c : Core) : editsCur s (s.setCore s.ictx.core c) c :=
  ⟨rfl, fun j => core_setCore s _ j c⟩

theorem editsCur_upd (h : editsCur s t c) (g : Core → Core) : editsCur s (t.upd g) (g c) := by
  obtain ⟨hrest, hcores⟩ := h
  have hictx : t.ictx = s.ictx := by rw [hrest]
  have hcur : t.cur = c := by rw [State.cur, hcores, hictx, if_pos rfl]
  refine ⟨congrArg (fun x : State => { x with cores := (t.upd g).cores }) hrest, fun j => ?_⟩
  by_cases hj : j = s.ictx.core
  · rw [if_pos hj, hj, ← hictx]
    exact (cur_upd t g).trans (congrArg g hcur)
  · rw [core_upd_other t g (hictx ▸ hj), hcores, if_neg hj, if_neg hj]

theorem editsCur_foldl_upd (h : editsCur s t c) (gs : List (Core → Core)) :
    editsCur s (gs.foldl State.upd t) (gs.foldl (fun c g => g c) c) := by
  induction gs generalizing t c with
  | nil => exact h
  | cons g gs ih => exact ih (editsCur_upd h g)

theorem alike_of_editsCur (h : editsCur s t c) : Spec.alike t (s.setCore s.ictx.core c) := by
  obtain ⟨hrest, hcores⟩ := h
  refine ⟨fun j => (hcores j).trans (core_setCore s _ j c).symm, ?_, ?_, ?_, ?_⟩ <;> rw [hrest]
  exacts [fun _ => rfl, fun _ => rfl, fun _ => rfl, rfl]

end

/-! ### CPYGO (R192) -/

theorem ticketAfter_eq_nextTicket (t : Nat) : Spec.ticketAfter t = nextTicket t := by
  rw [Spec.ticketAfter, nextTicket]
  exact if_congr (by omega) rfl rfl

/-- The core with one more local copy in its sequencer's queue. -/
def Core.withCopy (c : Core) (t db : Nat) (slot : Option RingSlot) (y : Nat) : Core :=
  { c with seq := { c.seq with ticket := t, queue := c.seq.queue ++ [Spec.newCopy .local_ t c.seq.staging db slot y] } }

/-- A copy that enters an empty queue is to start four cycles later (R194). -/
def State.startsFirst (s : State) : State :=
  if s.cur.seq.queue = [] then Spec.due s (s.clkOf s.ictx.core + 4) (evK .copyStart s.ictx.core) else s

theorem enqueueCopy_eq_upd (s : State) (t db : Nat) (slot : Option RingSlot) :
    s.enqueueCopy s.ictx.core .local_ s.cur.seq.staging db slot t =
      s.startsFirst.upd fun c => c.withCopy t db slot (s.clkOf s.ictx.core) := by
  simp only [State.enqueueCopy, State.startsFirst, List.isEmpty_iff]
  rw [apply_ite fun u : State => u.upd fun c => c.withCopy t db slot (s.clkOf s.ictx.core)]
  rfl

/-- The copy enters the queue, and what is sent after it is on its way. -/
theorem completesAs_enqueueCopy (s : State) (t db : Nat) (slot : Option RingSlot) (res : List (Nat × PendKind)) :
    Spec.completesAs
      (.next (res.foldl (fun s x => s.upd fun c => c.send x.1 x.2)
        (s.enqueueCopy s.ictx.core .local_ s.cur.seq.staging db slot t)))
      (let s' := Spec.sentFrom s (s.cur.withCopy t db slot (s.clkOf s.ictx.core)) res []
       if s.cur.seq.queue = [] then Spec.due s' (s.clkOf s.ictx.core + 4) (evK .copyStart s.ictx.core) else s') := by
  have hedits (u : State) (c : Core) : Spec.alike (res.foldl (fun s x => s.upd fun c => c.send x.1 x.2) (u.setCore u.ictx.core c))
      (u.setCore u.ictx.core (res.foldl (fun c x => c.send x.1 x.2) c)) := by
    have h := alike_of_editsCur (editsCur_foldl_upd (editsCur_setCore u c) (res.map fun x c => c.send x.1 x.2))
    rwa [List.foldl_map, List.foldl_map] at h
  refine ⟨_, rfl, ?_⟩
  rw [enqueueCopy_eq_upd, State.startsFirst]
  simp only [sentFrom_eq_foldl_send]
  split
  · exact hedits (Spec.due s (s.clkOf s.ictx.core + 4) (evK .copyStart s.ictx.core)) _
  · exact hedits s _

/-- Where a copy's destination begins: within the TAIL slot of a ring, or at its base; or the cause it raises. -/
def CopyDesc.dest (d : CopyDesc) (r : Ring) : Except Nat Nat := if d.dring then d.ringDest r true else .ok d.dbase

section
variable {s : State} {f : FmtD} (hg : s.guard f.gn f.g = true) (hbank : s.cur.cur = false) (hloaded : s.cur.seq.loaded = true)
  {d : CopyDesc} (hd : CopyDesc.ofBits s.cur.seq.staging = d)
include hg hbank hloaded hd

theorem exec_cpygo_of_error {code : Nat} (hdest : d.dest (s.ringTail d.dq) = .error code) :
    exec (.cpygo f) s = .next (Spec.trapped s code) := by
  show execCpygo f s = _
  rw [CopyDesc.dest] at hdest
  simp only [execCpygo, hg, hbank, hloaded, hd, hdest, trap_eq_trapped hbank]
  rfl

theorem exec_cpygo_of_full {db : Nat} (hdest : d.dest (s.ringTail d.dq) = .ok db) (hfull : 4 ≤ s.cur.seq.queue.length) :
    exec (.cpygo f) s = .next (Spec.sent s [(1, .reg f.d 0)] []) := by
  show execCpygo f s = _
  rw [CopyDesc.dest] at hdest
  simp only [execCpygo, hg, hbank, hloaded, hd, hdest, if_pos hfull, ← upd_send_eq_sent]
  rfl

/-- A copy that finds room enters the queue; into a ring, it takes the TAIL slot and advances TAIL. -/
theorem exec_cpygo_of_room {db : Nat} {r : Ring} (hr : s.ringTail d.dq = r) (hdest : d.dest r = .ok db)
    (hroom : s.cur.seq.queue.length < 4) :
    let t := Spec.ticketAfter s.cur.seq.ticket
    let slot : Option RingSlot := if d.dring then some ⟨s.cur.cur, d.dq.toNat, r.tail⟩ else none
    let res : List (Nat × PendKind) :=
      (if d.dring then [(1, .qtail d.dq.toNat (BitVec.ofNat 8 (r.next r.tail r.twrap).1) (r.next r.tail r.twrap).2)] else []) ++
        [(1, .reg f.d (BitVec.ofNat 32 t))]
    Spec.completesAs (exec (.cpygo f) s)
      (let s' := Spec.sentFrom s (s.cur.withCopy t db slot (s.clkOf s.ictx.core)) res []
       if s.cur.seq.queue = [] then Spec.due s' (s.clkOf s.ictx.core + 4) (evK .copyStart s.ictx.core) else s') := by
  intro t slot res
  refine Eq.subst (motive := fun o => Spec.completesAs o _) ?_ (completesAs_enqueueCopy s t db slot res)
  show _ = execCpygo f s
  rw [CopyDesc.dest] at hdest
  simp only [execCpygo, hg, hbank, hloaded, hd, hr, hdest, if_neg (Nat.not_le.2 hroom), ← ticketAfter_eq_nextTicket, res, slot, t]
  cases d.dring <;> rfl

end

theorem exec_cpygo_of_bank1 {s : State} {f : FmtD} (hg : s.guard f.gn f.g = true) (hbank : s.cur.cur = true) :
    exec (.cpygo f) s = .next (Spec.sent s [(1, .reg f.d 0)] []) := by
  show execCpygo f s = _
  simp only [execCpygo, hg, hbank, ← upd_send_eq_sent]
  rfl

theorem exec_cpygo_of_unstaged {s : State} {f : FmtD} (hg : s.guard f.gn f.g = true) (hbank : s.cur.cur = false)
    (hloaded : s.cur.seq.loaded = false) : exec (.cpygo f) s = .next (Spec.trapped s cCopyDesc) := by
  show execCpygo f s = _
  simp only [execCpygo, hg, hbank, hloaded, trap_eq_trapped hbank]
  rfl

/-! ### A ring as destination (R192) -/

/-- The destination of a copy at base db lies in a ring's TAIL slot and apart from its source. -/
def CopyDesc.fitsSlot (d : CopyDesc) (r : Ring) (db : Nat) : Prop :=
  r.slotAt r.tail ≤ d.dstLo db ∧ d.dstHi db < r.slotAt r.tail + r.slotsz ∧ (d.dstHi db < d.srcLo ∨ d.srcHi < d.dstLo db)

section
variable {d : CopyDesc} {r : Ring}

theorem dest_of_noRing (h : d.dring = false) : d.dest r = .ok d.dbase := if_neg (by rw [h]; decide)

theorem dest_of_ring (h : d.dring = true) : d.dest r = d.ringDest r true := if_pos h

theorem ringDest_of_notOk (hok : r.ok = false) : d.ringDest r true = .error cRingDesc := by
  rw [CopyDesc.ringDest, hok]; rfl

theorem ringDest_of_full (hok : r.ok = true) (hfull : r.full = true) : d.ringDest r true = .error cRingFull := by
  rw [CopyDesc.ringDest, hok, hfull]; rfl

theorem ringDest_of_ready (hok : r.ok = true) (hfull : r.full = false) :
    (d.fitsSlot r (r.slotAt r.tail + d.dbase) → d.ringDest r true = .ok (r.slotAt r.tail + d.dbase)) ∧
    (¬ d.fitsSlot r (r.slotAt r.tail + d.dbase) → d.ringDest r true = .error cCopyDesc) := by
  generalize hdb : r.slotAt r.tail + d.dbase = db
  have hdest : d.ringDest r true = if decide (d.dstLo db < r.slotAt r.tail) ||
      decide ((r.slotAt r.tail + r.slotsz : Int) ≤ d.dstHi db) || overlap (d.dstLo db) (d.dstHi db) d.srcLo d.srcHi
      then .error cCopyDesc else .ok db := by
    rw [CopyDesc.ringDest, hok, hfull, ← hdb]; rfl
  have hcheck : (decide (d.dstLo db < r.slotAt r.tail) || decide ((r.slotAt r.tail + r.slotsz : Int) ≤ d.dstHi db) ||
      overlap (d.dstLo db) (d.dstHi db) d.srcLo d.srcHi) = true ↔ ¬ d.fitsSlot r db := by
    simp only [overlap, CopyDesc.fitsSlot, Bool.or_eq_true, Bool.and_eq_true, decide_eq_true_eq]
    omega
  exact ⟨fun h => hdest.trans (if_neg (mt hcheck.1 (not_not.2 h))), fun h => hdest.trans (if_pos (hcheck.2 h))⟩

end

/-! ### The copy forms -/

theorem copyForms : Spec.CopyForms := by
  refine fun s => ⟨fun f hg hbank => ?_, fun f hg hbank hloaded hdring hroom => ?_, fun f hg hbank hloaded hdring hfull => ?_,
    fun f hg hbank hloaded hdring => ?_, fun f hg hbank => exec_cpygo_of_bank1 hg hbank,
    fun f hg hbank hloaded => exec_cpygo_of_unstaged hg hbank hloaded, fun f hg => ?_⟩
  · exact ⟨fun hal hin hlegal => exec_cpyld_of_legal hg hbank (descAt_of_allowed hal hin) hlegal,
      fun hal hin hlegal => exec_cpyld_of_illegal hg hbank (descAt_of_allowed hal hin) hlegal,
      fun hal => exec_cpyld_of_error hg hbank (descAt_of_misaligned hal),
      fun hal hout => exec_cpyld_of_error hg hbank (descAt_of_beyond hal hout)⟩
  · have h := exec_cpygo_of_room hg hbank hloaded rfl rfl (dest_of_noRing hdring) hroom
    simp only [hdring, Bool.false_eq_true, if_false, List.nil_append, Core.withCopy] at h
    exact h
  · exact exec_cpygo_of_full hg hbank hloaded rfl (dest_of_noRing hdring) hfull
  · have hdest {r : Ring} := dest_of_ring (r := r) hdring
    refine ⟨fun hok => exec_cpygo_of_error hg hbank hloaded rfl (hdest.trans (ringDest_of_notOk hok)),
      fun hok hfull => exec_cpygo_of_error hg hbank hloaded rfl (hdest.trans (ringDest_of_full hok hfull)),
      fun hok hfull hfits => exec_cpygo_of_error hg hbank hloaded rfl (hdest.trans ((ringDest_of_ready hok hfull).2 hfits)),
      fun hok hfull hfits => exec_cpygo_of_full hg hbank hloaded rfl (hdest.trans ((ringDest_of_ready hok hfull).1 hfits)),
      fun hok hfull hfits hroom => ?_⟩
    have h := exec_cpygo_of_room hg hbank hloaded rfl rfl (hdest.trans ((ringDest_of_ready hok hfull).1 hfits)) hroom
    simp only [hdring, if_true, List.cons_append, List.nil_append, Core.withCopy] at h
    exact h
  · rw [show exec (.cpystat f) s = execCpystat f s from rfl, execCpystat, if_pos hg, ← upd_send_eq_sent]
    simp only [State.upd, State.modCore, CopySeq.status, State.cur]

end Sys2Proof.Machine
end

section

/-!
## The events of a copy (R193 to R196; O23)

Each event edits the head of its core's queue and schedules what follows.
-/
namespace Sys2Proof.Machine

theorem colOf_div (k : Nat) : colOf k / 128 = dieOf k := by
  rw [colOf, dieOf]
  omega

/-- An event due in a cycle of a core's column is one due in a cycle of the core's die. -/
theorem dueCol_colOf (s : State) (k clk : Nat) (e : Ev) : Spec.dueCol s (colOf k) clk e = s.scheduleCore k clk e := by
  rw [Spec.dueCol, colOf_div]
  rfl

/-- The core with another queue of copies. -/
def Core.withQueue (c : Core) (q : List Copy) : Core := { c with seq := { c.seq with queue := q } }

theorem modHead_of_cons {c : Core} {cp : Copy} {rest : List Copy} (h : c.seq.queue = cp :: rest) (f : Copy → Copy) :
    c.modHead f = c.withQueue (f cp :: rest) := by
  rw [Core.modHead, h]; rfl

/-! ### What an event leaves alone -/

section
variable {s t : State} {ks cols : List Nat}

theorem keeps_refl (s : State) (ks cols : List Nat) : Spec.keeps s s ks cols :=
  ⟨fun _ _ => rfl, fun _ _ => rfl, rfl, rfl, rfl, rfl⟩

theorem keeps_modCore (h : Spec.keeps s t ks cols) {k : Nat} (hk : k ∈ ks) (f : Core → Core) :
    Spec.keeps s (t.modCore k f) ks cols := by
  obtain ⟨hcore, hrest⟩ := h
  refine ⟨fun j hj => ?_, hrest⟩
  rw [core_modCore, if_neg fun e : j = k => hj (e ▸ hk), hcore j hj]

theorem keeps_scheduleCore (h : Spec.keeps s t ks cols) (k y : Nat) (e : Ev) : Spec.keeps s (t.scheduleCore k y e) ks cols := h

end

/-! ### The events -/

section
variable {s : State} {k : Nat} (hk : s.ev.k = k) {cp : Copy} {rest : List Copy} (hq : (s.core k).seq.queue = cp :: rest)
include hk hq

/-- A local copy starts and its first beat follows at once (R194). -/
theorem exec_copyStart_of_local (hrun : (s.core k).seqStopped (s.clkOf k) = false) (hstarted : cp.started = none)
    (hkind : cp.kind = .local_) (hreading : cp.reading = true) :
    exec .copyStart s = .next ((s.setCore k ((s.core k).withQueue ({ cp with started := some (s.clkOf k) } :: rest))).scheduleCore k
      (s.clkOf k) (evB .copyBeat k 0 false)) := by
  subst hk
  show execCopyStart s = _
  simp only [execCopyStart, hq, hrun, hstarted, hkind, hreading, State.modCore, modHead_of_cons hq]
  rfl

/-- A beat is read, to be written two cycles later, and the next is read in the next cycle (R194). -/
theorem exec_copyBeat_of_read (hread : s.ev.b = false) (hrun : (s.core k).seqStopped (s.clkOf k) = false)
    (hreading : cp.reading = true) (hmore : cp.step.reading = true) :
    exec .copyBeat s = .next (((s.setCore k ((s.core k).withQueue ({ cp.step with flight := cp.flight ++
      [(s.clkOf k + 2, cp.next.dst, (s.core k).sp.bytes cp.next.src cp.next.len, cp.next.endRun)] } :: rest))).scheduleCore k
      (s.clkOf k + 2) (evB .copyBeat k 0 true)).scheduleCore k (s.clkOf k + 1) (evB .copyBeat k 0 false)) := by
  subst hk
  show execCopyBeat s = _
  simp only [execCopyBeat, hread, hq, hrun, hreading, hmore, State.modCore, modHead_of_cons hq]
  rfl

/-- A beat that was read is written where it goes, and leaves the copy's beats in flight (R194, R195). -/
theorem exec_copyBeat_of_write (hwrite : s.ev.b = true) (hkind : cp.kind = .local_) {y a : Nat} {bs : List Byte} {e : Bool}
    {fl : List (Nat × Nat × List Byte × Bool)} (hflight : cp.flight = (y, a, bs, e) :: fl) :
    ∃ t, exec .copyBeat s = .next t ∧ Spec.keeps s t [k] [] ∧ t.core k = ((s.core k).writeArrival (placed a bs)).withQueue
      ({ cp with flight := fl, runsDone := if e then cp.runsDone + 1 else cp.runsDone } :: rest) := by
  subst hk
  have hq' : ((s.core s.ev.k).writeArrival (placed a bs)).seq.queue = cp :: rest := by
    rw [writeArrival_frame]; exact hq
  refine ⟨s.landBeat s.ev.k, ?_, ?_⟩
  · show execCopyBeat s = _
    rw [execCopyBeat, hwrite]
    rfl
  · have hlands : s.writeBeat s.ev.k cp.kind a bs = s.modCore s.ev.k fun c => c.writeArrival (placed a bs) := by rw [hkind]; rfl
    simp only [State.landBeat, hq, hflight, hlands]
    have hkeeps (f g : Core → Core) : Spec.keeps s ((s.modCore s.ev.k f).modCore s.ev.k g) [s.ev.k] [] :=
      keeps_modCore (keeps_modCore (keeps_refl s _ _) List.mem_cons_self f) List.mem_cons_self g
    split
    · refine ⟨keeps_scheduleCore (hkeeps _ _) _ _ _, ?_⟩
      rw [core_scheduleCore, core_modCore_self, core_modCore_self, modHead_of_cons hq']
    · refine ⟨hkeeps _ _, ?_⟩
      rw [core_modCore_self, core_modCore_self, modHead_of_cons hq']

/-- A copy that is complete leaves the queue, and its ticket is the last done (R193, R194). -/
theorem exec_copyComplete_of_cons : ∃ t, exec .copyComplete s = .next t ∧ Spec.keeps s t [k] [] ∧
    t.core k = { s.core k with seq := { (s.core k).seq with queue := rest, lastDone := cp.ticket } } := by
  subst hk
  have hkeeps (f : Core → Core) := keeps_modCore (keeps_refl s [s.ev.k] []) List.mem_cons_self f
  show ∃ t, execCopyComplete s = .next t ∧ _
  simp only [execCopyComplete, hq]
  cases rest with
  | nil => exact ⟨_, rfl, hkeeps _, core_modCore_self s _ _⟩
  | cons nx rest => exact
      ⟨_, rfl, keeps_scheduleCore (hkeeps _) _ _ _, (core_scheduleCore _ _ _ _ _).trans (core_modCore_self s _ _)⟩

/-- After a rollback the copies recorded begin again, four cycles after bank 0 issues (R196, R206). -/
theorem exec_copyRestart_of_cons : exec .copyRestart s = .next ((s.setCore k
    { (s.core k).withQueue ((cp :: rest).map fun x => { x with go := s.clkOf k }) with seqHold := false }).scheduleCore k
      (s.clkOf k + 4) (evK .copyStart k)) := by
  subst hk
  show execCopyRestart s = _
  simp only [execCopyRestart, State.modCore, core_setCore_self, hq, List.map_cons, List.isEmpty_cons]
  rfl

end

theorem copyEventsHaveTheirEffect : Spec.CopyEventsHaveTheirEffect := by
  intro s cp rest
  refine fun hq => ⟨fun hrun hstarted hkind hreading => ?_, fun hread hrun hreading hmore => ?_,
    fun y a bs e fl hwrite hkind hflight => ?_, exec_copyComplete_of_cons rfl hq, ?_⟩
  · rw [dueCol_colOf]
    exact exec_copyStart_of_local rfl hq hrun hstarted hkind hreading
  · simp only [dueCol_colOf]
    exact exec_copyBeat_of_read rfl hq hread hrun hreading hmore
  · obtain ⟨t, hexec, hkeeps, hcore⟩ := exec_copyBeat_of_write rfl hq hwrite hkind hflight
    refine ⟨t, hexec, hkeeps, fun j => ?_, ?_, ?_, ?_⟩ <;> rw [hcore]
    · show ((s.core s.ev.k).writeArrival (placed a bs)).sp.byte j = _
      rw [sp_writeArrival_placed, byte_setBytes]
    · rfl
    · rw [writeArrival_frame]; rfl
    · rw [writeArrival_frame]; rfl
  · rw [dueCol_colOf]
    exact exec_copyRestart_of_cons rfl hq

/-- Settles O23: the forms by what they stage and enqueue, the events by the head of the queue. -/
theorem copiesAreStagedStartedAndMoved : Obligations.CopiesAreStagedStartedAndMoved :=
  ⟨copyForms, copyEventsHaveTheirEffect⟩

end Sys2Proof.Machine
end
